-- ==== Sys2Proof/Word.lean ====
section
/-! DEFINITION. The words of the device: bytes, 64-bit register words and 32-byte Sloldo payloads. -/
namespace Sys2Proof

/-- A byte of memory. -/
abbrev Byte := BitVec 8

/-- A 64-bit word: registers of either width are held in one (R9). -/
abbrev Word := BitVec 64

/-- The 256-bit payload of a Sloldo block; payload bit p is bit p (R85, R86). -/
abbrev Payload := BitVec 256

end Sys2Proof
end

