-- ==== Sys2Proof/Syntax.lean ====
section
/-! DEFINITION. The commands: one constructor per row of the opcode table, with its operands. A physical event that the
spec places outside the device (a block on a lane, an edge on a pin, the end of a time) is a command too: its arrival states that it
happened (DESIGN CHOICE 3). Commands
with operands come first, in the order of the table, so that compiled code can build them. -/
namespace Sys2Proof

/-- A command of the block. -/
inductive Instr where
  /-- REGISTER_WRITE (R15). -/
  | registerWrite (addr : Nat) (width : Nat) (value : Nat)
  /-- ISL_RESET_WRITE (R33). -/
  | islResetWrite (value : Nat)
  /-- AG_COMMIT_ARM (R45). -/
  | agCommitArm (g : Nat)
  /-- FRAME_DEADLINE (R49). -/
  | frameDeadline (g : Nat)
  /-- FRAME_MARKER_ARRIVE (R57). -/
  | frameMarkerArrive (k : Nat)
  /-- COMMIT_ARRIVE (R57). -/
  | commitArrive (k : Nat)
  /-- LANE_TRAIN (R75). -/
  | laneTrain (n : Nat)
  /-- LANE_DISABLE (R75). -/
  | laneDisable (n : Nat)
  /-- BLOCK_RECEIVE (R92). -/
  | blockReceive (n : Nat) (line : List Bool)
  /-- TRAIN_RECEIVE (R70). -/
  | trainReceive (n : Nat)
  /-- TAP_CHANGE_APPLY (R70). -/
  | tapChangeApply (n : Nat)
  /-- TRAIN_REQUEST_TIMEOUT (R70). -/
  | trainRequestTimeout (n : Nat)
  /-- TRAINING_TIMEOUT (R71). -/
  | trainingTimeout (n : Nat)
  /-- LANE_PLL_UNLOCK (R64). -/
  | lanePllUnlock (n : Nat)
  /-- HUNT_TIMEOUT (R75). -/
  | huntTimeout (n : Nat)
  /-- TX_IDLE_ENTRY (R77). -/
  | txIdleEntry (n : Nat)
  /-- IDLE_RECEIVE (R77). -/
  | idleReceive (n : Nat)
  /-- SIGNAL_DETECT (R75). -/
  | signalDetect (n : Nat)
  /-- TX_WAKE (R78). -/
  | txWake (n : Nat)
  /-- WAKE_LOCK_TIMEOUT (R79). -/
  | wakeLockTimeout (n : Nat)
  /-- BLOCK_TRANSMIT (R98). -/
  | blockTransmit (n : Nat)
  /-- PRBS_GEN_EN (R82). -/
  | prbsGenEn (n : Nat) (on : Bool)
  /-- PRBS_CHK_EN (R82). -/
  | prbsChkEn (n : Nat) (on : Bool)
  /-- PRBS_INJECT (R81). -/
  | prbsInject (n : Nat)
  /-- PRBS_SNAP (R83). -/
  | prbsSnap (n : Nat)
  /-- PRBS_CLEAR (R83). -/
  | prbsClear (n : Nat)
  /-- PRBS_CHECKER_LOCK (R83). -/
  | prbsCheckerLock (n : Nat)
  /-- PRBS_CHECKER_UNLOCK (R83). -/
  | prbsCheckerUnlock (n : Nat)
  /-- LANE_ROTATION_REMOVE (R74). -/
  | laneRotationRemove (n : Nat)
  /-- TIME_RECEIVE (R409). -/
  | timeReceive (n : Nat)
  /-- QUALITY_RECEIVE (R393). -/
  | qualityReceive (n : Nat)
  /-- ACK_RECEIVE (R111). -/
  | ackReceive (n : Nat)
  /-- NAK_RECEIVE (R111). -/
  | nakReceive (n : Nat)
  /-- PAUSE_RECEIVE (R114). -/
  | pauseReceive (n : Nat)
  /-- PAUSE_EXPIRE (R114). -/
  | pauseExpire (n : Nat)
  /-- TRIGGER_RECEIVE (R115). -/
  | triggerReceive (n : Nat)
  /-- HANDOVER_RECEIVE (R490). -/
  | handoverReceive (n : Nat)
  /-- FSTART_RECEIVE (R106). -/
  | fstartReceive (n : Nat)
  /-- FEND_RECEIVE (R106). -/
  | fendReceive (n : Nat)
  /-- DATA_BLOCK_RECEIVE (R99). -/
  | dataBlockReceive (n : Nat)
  /-- ACK_SEND (R110). -/
  | ackSend (n : Nat)
  /-- NAK_REPEAT (R110). -/
  | nakRepeat (n : Nat)
  /-- ACK_WAIT_TIMEOUT (R111). -/
  | ackWaitTimeout (n : Nat)
  /-- REPLAY_EXHAUSTED (R486). -/
  | replayExhausted (n : Nat)
  /-- SLOT_COMMIT_POST (R126). -/
  | slotCommitPost (value : Nat)
  /-- STAT_RECORD_DELIVER (R130). -/
  | statRecordDeliver (k : Nat)
  /-- CT_WRITE_SEND (R383). -/
  | ctWriteSend (c : Nat)
  /-- CT_WRITE_COMMIT (R381). -/
  | ctWriteCommit (c : Nat) (ns : Nat)
  /-- FILL_UNIT_READ (R136). -/
  | fillUnitRead (k : Nat)
  /-- FILL_UNIT_COMPLETE (R136). -/
  | fillUnitComplete (k : Nat)
  /-- PNL_NOP (R154). -/
  | pnlNop (p : Nat)
  /-- SETA (R154). -/
  | pnlSeta (p : Nat)
  /-- SETAH (R154). -/
  | pnlSetah (p : Nat)
  /-- PNL_ADDA (R154). -/
  | pnlAdda (p : Nat)
  /-- SETT (R154). -/
  | pnlSett (p : Nat)
  /-- SETRP (R154). -/
  | pnlSetrp (p : Nat)
  /-- OPEN (R149). -/
  | pnlOpen (p : Nat)
  /-- SPILL (R150). -/
  | pnlSpill (p : Nat)
  /-- DUMP (R150). -/
  | pnlDump (p : Nat)
  /-- CLEAR (R150). -/
  | pnlClear (p : Nat)
  /-- PROMOTE (R174). -/
  | pnlPromote (p : Nat)
  /-- LOADW (R231). -/
  | pnlLoadw (p : Nat)
  /-- PNL_BR (R157). -/
  | pnlBr (p : Nat)
  /-- BNZ (R157). -/
  | pnlBnz (p : Nat)
  /-- REPEAT (R154). -/
  | pnlRepeat (p : Nat)
  /-- WAITU (R154). -/
  | pnlWaitu (p : Nat)
  /-- RELU (R205). -/
  | pnlRelu (p : Nat)
  /-- FMARK (R159). -/
  | pnlFmark (p : Nat)
  /-- SVCRET (R161). -/
  | pnlSvcret (p : Nat)
  /-- PNL_HALT (R163). -/
  | pnlHalt (p : Nat)
  /-- ARRAY_NOP (R155). -/
  | arrayNop (p : Nat)
  /-- ACC (R141). -/
  | arrAcc (p : Nat) (upset : List (Nat × Byte))
  /-- RETR (R156). -/
  | arrRetr (p : Nat) (upset : List (Nat × Byte))
  /-- ZACC (R167). -/
  | arrZacc (p : Nat)
  /-- ZSHIFT (R167). -/
  | arrZshift (p : Nat)
  /-- BEAMV (R218). -/
  | arrBeamv (p : Nat)
  /-- BEAMD (R226). -/
  | arrBeamd (p : Nat)
  /-- PLANE_BUFFER_FREE (R151). -/
  | planeBufferFree (p : Nat)
  /-- PROMOTE_ADD_COMPLETE (R174). -/
  | promoteAddComplete (p : Nat)
  /-- LOADW_COMPLETE (R231). -/
  | loadwComplete (p : Nat) (slot : Nat)
  /-- SERVICE_ENTRY (R161). -/
  | serviceEntry (p : Nat)
  /-- SLOT_WAIT_EXPIRE (R165). -/
  | slotWaitExpire (p : Nat)
  /-- SPILL_PLANE_ARRIVE (R180). -/
  | spillPlaneArrive (k : Nat)
  /-- SPILL_WRITE_DONE (R189). -/
  | spillWriteDone (p : Nat)
  /-- CLOSE_MARKER_ARRIVE (R183). -/
  | closeMarkerArrive (k : Nat)
  /-- DUMP_READ_RECORD (R183). -/
  | dumpReadRecord (p : Nat)
  /-- DRAIN_POST (R186). -/
  | drainPost (value : Nat)
  /-- VERDICT_POST (R201). -/
  | verdictPost (k : Nat) (value : Nat)
  /-- VERDICT_HANDLE (R203). -/
  | verdictHandle (k : Nat)
  /-- BEAM_EMISSION (R221). -/
  | beamEmission (k : Nat)
  /-- BEAM_SAMPLE_ARRIVE (R224). -/
  | beamSampleArrive (k : Nat)
  /-- WEIGHT_COMMIT_POST (R233). -/
  | weightCommitPost (k : Nat) (value : Nat)
  /-- EGRESS_UNIT_ARRIVE (R240). -/
  | egressUnitArrive (src : Nat)
  /-- CLOSE_NOTICE_ARRIVE (R248). -/
  | closeNoticeArrive (src : Nat)
  /-- QUEUE_ENTRY (R250). -/
  | queueEntry (q : Nat)
  /-- EGRESS_FRAME_DEAL (R251). -/
  | egressFrameDeal (g : Nat)
  /-- RING_DESC_POLL (R256). -/
  | ringDescPoll (q : Nat)
  /-- RING_KICK (R256). -/
  | ringKick (q : Nat)
  /-- RING_WRITE_RESPONSE (R255). -/
  | ringWriteResponse (q : Nat)
  /-- WIN_RELEASE (R260). -/
  | winRelease (w : Nat)
  /-- PATTERN_LOAD_DONE (R275). -/
  | patternLoadDone (ok : Bool) (ext : List Nat)
  /-- ACTIVATE_POST (R278). -/
  | activatePost (value : Nat)
  /-- STOP_POST (R281). -/
  | stopPost (value : Nat)
  /-- TEST_FRAME_GENERATE (R283). -/
  | testFrameGenerate (g : Nat)
  /-- LDW (R295). -/
  | awlLdw (n : Nat) (slot : Nat)
  /-- LDH (R295). -/
  | awlLdh (n : Nat) (slot : Nat)
  /-- LDHS (R295). -/
  | awlLdhs (n : Nat) (slot : Nat)
  /-- STW (R295). -/
  | awlStw (n : Nat) (slot : Nat)
  /-- STH (R295). -/
  | awlSth (n : Nat) (slot : Nat)
  /-- AWL_NOP (R297). -/
  | awlNop (n : Nat)
  /-- MAC (R298). -/
  | awlMac (n : Nat)
  /-- MSU (R298). -/
  | awlMsu (n : Nat)
  /-- MPY (R298). -/
  | awlMpy (n : Nat)
  /-- MOVA (R297). -/
  | awlMova (n : Nat)
  /-- AWL_ADDA (R297). -/
  | awlAdda (n : Nat)
  /-- INSH (R297). -/
  | awlInsh (n : Nat)
  /-- INS24 (R297). -/
  | awlIns24 (n : Nat)
  /-- SHA (R297). -/
  | awlSha (n : Nat)
  /-- MOVX (R298). -/
  | awlMovx (n : Nat)
  /-- MOVXL (R297). -/
  | awlMovxl (n : Nat)
  /-- MOVXM (R297). -/
  | awlMovxm (n : Nat)
  /-- MOVXH (R297). -/
  | awlMovxh (n : Nat)
  /-- ADDAC (R297). -/
  | awlAddac (n : Nat)
  /-- ADD (R297). -/
  | awlAdd (n : Nat)
  /-- SUB (R297). -/
  | awlSub (n : Nat)
  /-- AND (R297). -/
  | awlAnd (n : Nat)
  /-- OR (R297). -/
  | awlOr (n : Nat)
  /-- XOR (R297). -/
  | awlXor (n : Nat)
  /-- ADDI (R297). -/
  | awlAddi (n : Nat)
  /-- SHI (R297). -/
  | awlShi (n : Nat)
  /-- LI (R297). -/
  | awlLi (n : Nat)
  /-- LUI (R297). -/
  | awlLui (n : Nat)
  /-- MAXX (R299). -/
  | awlMaxx (n : Nat)
  /-- MINX (R299). -/
  | awlMinx (n : Nat)
  /-- MAXA (R299). -/
  | awlMaxa (n : Nat)
  /-- MINA (R299). -/
  | awlMina (n : Nat)
  /-- MOVS (R291). -/
  | awlMovs (n : Nat)
  /-- MOVTS (R291). -/
  | awlMovts (n : Nat)
  /-- AWL_BR (R300). -/
  | awlBr (n : Nat)
  /-- BEQZ (R300). -/
  | awlBeqz (n : Nat)
  /-- BNEZ (R300). -/
  | awlBnez (n : Nat)
  /-- BLTZ (R300). -/
  | awlBltz (n : Nat)
  /-- BGEZ (R300). -/
  | awlBgez (n : Nat)
  /-- CALL (R297). -/
  | awlCall (n : Nat)
  /-- RET (R297). -/
  | awlRet (n : Nat)
  /-- LOOP (R301). -/
  | awlLoop (n : Nat)
  /-- LOOPR (R301). -/
  | awlLoopr (n : Nat)
  /-- REP (R302). -/
  | awlRep (n : Nat)
  /-- RTE (R306). -/
  | awlRte (n : Nat)
  /-- IOR (R310). -/
  | awlIor (n : Nat)
  /-- IOW (R310). -/
  | awlIow (n : Nat)
  /-- IORA (R310). -/
  | awlIora (n : Nat)
  /-- IOWA (R310). -/
  | awlIowa (n : Nat)
  /-- POSTV (R311). -/
  | awlPostv (n : Nat)
  /-- WAIT (R308). -/
  | awlWait (n : Nat)
  /-- TRAP (R297). -/
  | awlTrap (n : Nat)
  /-- AWL_HALT (R297). -/
  | awlHalt (n : Nat)
  /-- AWL_EXCEPTION_ENTRY (R306). -/
  | awlExceptionEntry (n : Nat)
  /-- AWL_WAIT_WAKE (R308). -/
  | awlWaitWake (n : Nat)
  /-- AWL_RUN (R315). -/
  | awlRun (n : Nat)
  /-- AWL_CTRL_HALT (R315). -/
  | awlCtrlHalt (n : Nat)
  /-- AWL_RESET (R290). -/
  | awlReset (n : Nat)
  /-- AWL_STEP (R315). -/
  | awlStep (n : Nat)
  /-- DOORBELL_RING (R308). -/
  | doorbellRing (n : Nat)
  /-- XFER_GO (R313). -/
  | xferGo (n : Nat) (value : Nat)
  /-- XFER_END (R313). -/
  | xferEnd (n : Nat) (ok : Bool) (ext : List Nat)
  /-- CAPTURE_SAMPLE_ARRIVE (R316). -/
  | captureSampleArrive (full : Bool)
  /-- TRIG_SW (R321). -/
  | trigSw (value : Nat)
  /-- REGION_RELEASE (R324). -/
  | regionRelease (r : Nat)
  /-- PCIE_RETRAIN (R329). -/
  | pcieRetrain (p : Nat)
  /-- PCIE_LINK_DOWN (R329). -/
  | pcieLinkDown (p : Nat)
  /-- PCIE_INBOUND_REQUEST (R328). -/
  | pcieInboundRequest (p : Nat) (tag : Nat) (write : Bool) (bus : Nat) (cells : List (Option Nat))
  /-- PCIE_COMPLETION_TIMEOUT (R327). -/
  | pcieCompletionTimeout (p : Nat)
  /-- CHANNEL_TRAIN (R335). -/
  | channelTrain (c : Nat)
  /-- CHANNEL_TRAINING_DONE (R336). -/
  | channelTrainingDone (c : Nat) (code : Nat)
  /-- CHANNEL_TRAINING_TIMEOUT (R336). -/
  | channelTrainingTimeout (c : Nat)
  /-- MEM_REQUEST_ISSUE (R342). -/
  | memRequestIssue (c : Nat)
  /-- MEM_TRANSFER_DONE (R338). -/
  | memTransferDone (c : Nat) (fails : Nat) (ecc : Nat) (beat : Nat)
  /-- REFRESH_DUE (R343). -/
  | refreshDue (c : Nat)
  /-- SCRUB_READ (R352). -/
  | scrubRead (c : Nat) (ecc : Nat)
  /-- SCRUB_WRITEBACK (R352). -/
  | scrubWriteback (c : Nat)
  /-- ONCHIP_SCRUB (R352). -/
  | onchipScrub (mem : Nat) (outcome : Nat)
  /-- ILV_MASK_WRITE (R334). -/
  | ilvMaskWrite (mask : Nat)
  /-- REPAIR_PROGRAM (R355). -/
  | repairProgram (value : Nat)
  /-- WELT_REQUEST (R360). -/
  | weltRequest (m : Nat) (tag : Nat) (write : Bool) (kind : Nat) (addr : Nat) (cells : List (Option Nat))
  /-- WELT_GRANT (R362). -/
  | weltGrant (t : Nat)
  /-- WELT_RESPONSE (R365). -/
  | weltResponse (m : Nat) (tag : Nat) (ok : Bool) (data : List Nat)
  /-- WELT_TIMEOUT (R367). -/
  | weltTimeout (m : Nat) (tag : Nat)
  /-- DMA_RUN (R371). -/
  | dmaRun (c : Nat)
  /-- DMA_ABORT (R379). -/
  | dmaAbort (c : Nat)
  /-- DMA_KICK (R371). -/
  | dmaKick (c : Nat)
  /-- DMA_CH_CONFIG_WRITE (R379). -/
  | dmaChConfigWrite (c : Nat) (ring : Bool) (value : Nat)
  /-- DMA_DESC_POLL (R371). -/
  | dmaDescPoll (c : Nat)
  /-- DMA_READ_DONE (R372). -/
  | dmaReadDone (c : Nat) (ok : Bool) (ext : List Nat)
  /-- DMA_WRITE_RESPONSE (R376). -/
  | dmaWriteResponse (c : Nat) (ok : Bool)
  /-- INCREMENT_WRITE (R387). -/
  | incrementWrite (value : Nat)
  /-- REFERENCE_EVALUATION (R395). -/
  | referenceEvaluation (act : Nat) (range : Nat) (lock : Bool) (freqs : List Int)
  /-- QL_MESSAGE_RECEIVE (R392). -/
  | qlMessageReceive (ql : Nat) (msg : Nat)
  /-- QL_TIMEOUT (R392). -/
  | qlTimeout (ql : Nat)
  /-- PPS_EDGE (R404). -/
  | ppsEdge (p : Nat)
  /-- FRAME_OUT_ARM (R406). -/
  | frameOutArm (k : Nat)
  /-- FRAME_OUT_PULSE (R406). -/
  | frameOutPulse (k : Nat)
  /-- PHASE_STEP (R407). -/
  | phaseStep (value : Nat)
  /-- PTP_LANE_TX (R409). -/
  | ptpLaneTx (value : Nat)
  /-- DELAY_RESP_SEND (R409). -/
  | delayRespSend (n : Nat)
  /-- CORE_HOLD_WRITE (R418). -/
  | coreHoldWrite (value : Nat)
  /-- INTC_CLAIM (R421). -/
  | intcClaim (c : Nat)
  /-- INTC_COMPLETE (R421). -/
  | intcComplete (c : Nat) (src : Nat)
  /-- BOOT_SLOT_CHECK (R425). -/
  | bootSlotCheck (img : List Nat)
  /-- QSPI_COMMAND (R428). -/
  | qspiCommand (value : Nat)
  /-- QSPI_COMMAND_DONE (R428). -/
  | qspiCommandDone (data : List Nat)
  /-- MGMT_ENABLE (R432). -/
  | mgmtEnable (on : Bool)
  /-- MGMT_RING_WRITE (R432). -/
  | mgmtRingWrite (r : Nat) (value : Nat)
  /-- MGMT_KICK (R432). -/
  | mgmtKick (r : Nat)
  /-- MGMT_DESC_POLL (R432). -/
  | mgmtDescPoll (r : Nat)
  /-- MGMT_FRAME_RECEIVE (R430). -/
  | mgmtFrameReceive (bytes : List Nat)
  /-- MGMT_LINK_CHANGE (R430). -/
  | mgmtLinkChange (up : Bool) (speed : Nat) (half : Bool)
  /-- MDIO_DONE (R430). -/
  | mdioDone (data : Nat)
  /-- SMU_TAP_FRAME (R435). -/
  | smuTapFrame (full : Bool)
  /-- SMU_FRAME_CLOSE_TIMEOUT (R437). -/
  | smuFrameCloseTimeout (stream : Nat)
  /-- SMU_SPI_READ (R450). -/
  | smuSpiRead (addr : Nat) (n : Nat)
  /-- SMU_SPI_WRITE (R450). -/
  | smuSpiWrite (addr : Nat) (bytes : List Nat)
  /-- FW_START (R444). -/
  | smuFwStart (len : Nat)
  /-- SEAL (R445). -/
  | smuSeal (check : Nat)
  /-- BREAK (R445). -/
  | smuBreak (check : Nat)
  /-- SMU_POWER_ON (R447). -/
  | smuPowerOn (good : Bool)
  /-- MON_SOURCE_SAMPLE (R454). -/
  | monSourceSample (o : Nat)
  /-- MON_OUTPUT_FRAME (R455). -/
  | monOutputFrame (o : Nat)
  /-- MON_START (R462). -/
  | monStart (o : Nat)
  /-- MON_STOP (R462). -/
  | monStop (o : Nat)
  /-- MON_CONFIG_WRITE (R463). -/
  | monConfigWrite (o : Nat) (src : Bool) (value : Nat)
  /-- MON_IN_FRAME (R466). -/
  | monInFrame (start : Bool) (a : Nat) (b : Nat) (mark : Bool)
  /-- HK_CONVERSION_DONE (R470). -/
  | hkConversionDone (code : Nat)
  /-- HK_URGENT_REQUEST (R471). -/
  | hkUrgentRequest (input : Nat)
  /-- EVR_SOFTWARE_APPEND (R482). -/
  | evrSoftwareAppend (value : Nat)
  /-- PORST_FALL (R510). -/
  | porstFall (n : Nat)
  /-- FO_REQ_CHANGE (R487). -/
  | foReqChange (low : Bool)
  /-- HANDOVER_GAP_END (R492). -/
  | handoverGapEnd (blocks : Nat)
  /-- JTAG_SAMPLE (R524). -/
  | jtagSample (pins : Nat)
  /-- JTAG_PRELOAD (R524). -/
  | jtagPreload (value : Nat)
  /-- TAP_RESET (R524). -/
  | tapReset (low : Bool)
  /-- LOSS_OF_SIGNAL (R77). -/
  | lossOfSignal (n : Nat)
  /-- LANE_PLL_LOCK (R64). -/
  | lanePllLock (n : Nat)
  /-- PRBS_COUNTER_SATURATE (R83). -/
  | prbsCounterSaturate (n : Nat)
  /-- PCIE_LINK_UP (R327). -/
  | pcieLinkUp (p : Nat) (speed : Nat) (width : Nat)
  /-- URGENCY_RISE (R341). -/
  | urgencyRise (c : Nat) (idx : Nat)
  /-- ROW_IDLE_CLOSE (R340). -/
  | rowIdleClose (c : Nat) (bank : Nat)
  /-- LREF_QUALITY_TIMEOUT (R393). -/
  | lrefQualityTimeout (k : Nat)
  /-- PCIE_AER_MESSAGE (R327). -/
  | pcieAerMessage (p : Nat)
  /-- MACHINE_TIMER_INTERRUPT (R423). -/
  | machineTimerInterrupt (h : Nat)
  /-- DRAIN_COMPLETE (R190). -/
  | drainComplete
  /-- DUMP_MARKER_ARRIVE (R247). -/
  | dumpMarkerArrive
  /-- RELAY_FRAME_ARRIVE (R253). -/
  | relayFrameArrive
  /-- PATTERN_LOAD (R274). -/
  | patternLoad
  /-- PATTERN_CANCEL (R277). -/
  | patternCancel
  /-- REQ_SIG_SET (R275). -/
  | reqSigSet
  /-- KEY_LOCK_SET (R286). -/
  | keyLockSet
  /-- COLD_ACTIVATION_COMPLETE (R279). -/
  | coldActivationComplete
  /-- SWAP_COMPLETE (R280). -/
  | swapComplete
  /-- STOP_COMPLETE (R281). -/
  | stopComplete
  /-- CAPTURE_HEADER_WRITE (R319). -/
  | captureHeaderWrite
  /-- CAPTURE_TRIGGER (R323). -/
  | captureTrigger
  /-- TRIG_IN_EDGE (R321). -/
  | trigInEdge
  /-- REPAIR_DONE (R355). -/
  | repairDone
  /-- TIME_LOAD_REQUEST (R388). -/
  | timeLoadRequest
  /-- TIME_SNAP (R389). -/
  | timeSnap
  /-- TIME_MESSAGE_SEND (R390). -/
  | timeMessageSend
  /-- EPOCH (R390). -/
  | epoch
  /-- BUILD_OUT_END (R399). -/
  | buildOutEnd
  /-- QUALITY_SEND (R393). -/
  | qualitySend
  /-- PTP_WATCHDOG_EXPIRE (R394). -/
  | ptpWatchdogExpire
  /-- PHASE_SLEW (R407). -/
  | phaseSlew
  /-- TS_POP (R411). -/
  | tsPop
  /-- POWER_ON_RESET (R509). -/
  | powerOnReset
  /-- SCRATCH_EXIT (R427). -/
  | scratchExit
  /-- SCRATCH_WRITEBACK_DONE (R427). -/
  | scratchWritebackDone
  /-- MGMT_RX_NODESC_TIMEOUT (R432). -/
  | mgmtRxNodescTimeout
  /-- MGMT_FRAME_TRANSMIT (R432). -/
  | mgmtFrameTransmit
  /-- MDIO_FRAME (R430). -/
  | mdioFrame
  /-- SMU_POWER_RECORD_DUE (R442). -/
  | smuPowerRecordDue
  /-- SMU_PPS_EDGE (R440). -/
  | smuPpsEdge
  /-- SMU_PPS_MISSING (R440). -/
  | smuPpsMissing
  /-- FW_CHECK_DONE (R444). -/
  | smuFwCheckDone
  /-- SMU_POWER_LOSS (R447). -/
  | smuPowerLoss
  /-- SMU_MIRROR_UPDATE (R449). -/
  | smuMirrorUpdate
  /-- THERM_TRIP (R516). -/
  | thermTrip
  /-- EVR_APPEND_ARRIVE (R479). -/
  | evrAppendArrive
  /-- EVR_RECORD_PROGRAMMED (R477). -/
  | evrRecordProgrammed
  /-- EVR_BLOCK_ERASE_DONE (R477). -/
  | evrBlockEraseDone
  /-- EVR_OP_TIME_SAVE (R476). -/
  | evrOpTimeSave
  /-- HANDOVER_REPEAT (R489). -/
  | handoverRepeat
  /-- HANDOVER_WAIT_EXPIRE (R491). -/
  | handoverWaitExpire
  /-- FO_RELEASE_COMPLETE (R492). -/
  | foReleaseComplete
  /-- JTAG_BYPASS (R524). -/
  | jtagBypass
  /-- JTAG_IDCODE (R524). -/
  | jtagIdcode
  /-- JTAG_EXTEST (R524). -/
  | jtagExtest
deriving DecidableEq, Repr

end Sys2Proof
end

