-- ==== Sys2Proof/Config.lean ====
section
/-! DEFINITION. What one part or one board fixes, and the free values of the spec: constants without a body, so that
nothing proved can lean on a value of them. A function of a counter gives a fresh value at each use (the field
`free` of the device state counts the uses). -/
namespace Sys2Proof.Config

/-- The ordering code fused in the part, 0 to 3 (R3, R503). -/
opaque partCode : Nat

/-- XO_IN is 20 MHz (TIM.STATUS.XO_20M, fused). -/
opaque xo20M : Bool

/-- SHA-384 hash bytes of boot key slot k, byte i (FUSE.BOOT_KEY, fused). -/
opaque bootKeyByte : Nat → Nat → Nat

/-- The lowest SEC_VERSION accepted (FUSE.BOOT_CFG.MIN_VERSION, fused). -/
opaque bootMinVersion : Nat

/-- Revoked boot key slots (FUSE.BOOT_CFG.REVOKE, fused). -/
opaque bootRevoke : Nat

/-- The linear-equalizer setting that a receiver tries at a step of its search: an order of its own choosing (R69). -/
opaque eqSetting : (free lane : Nat) → Nat

/-- The coefficient request that a receiver makes next in negotiation, 0 for none left, else a request code (R69, R70). -/
opaque negotiate : (free lane : Nat) → Nat

/-- The history from which a PRBS generator starts: the spec gives a polynomial and no start (R81). -/
opaque prbsStart : (free lane : Nat) → Nat

/-- The adapted decision-feedback taps of a receiver (R68). -/
opaque dfeTaps : (free lane : Nat) → Nat

/-- A part of a panel beam accumulator whose exact sum falls outside its 32 bits: the spec states no result (R219). -/
opaque beamSum : (free : Nat) → Int

/-- A part of a staged beam vector whose exact sum falls outside its 32 bits: the spec states no result (R221). -/
opaque stageSum : (sum : Int) → Int

/-- The beam block of a slot that OPEN binds, which no weight plane's header names: the spec states no value (R220). -/
opaque openBlock : (panel cycle : Nat) → Nat

/-- ROW_OFF and the beam block of a weight plane whose header could not be read: the spec states no value (R231). -/
opaque unreadHeader : (free : Nat) → Nat

/-- What a negative autocorrelation is in the reduction unit's unsigned comparison: the spec states no value (R194). -/
opaque redNegative : (value : Int) → Nat

/-- What a window word shows of a negative autocorrelation: the spec states no value (R258). -/
opaque windowNegative : (value : Int) → Nat

/-- N_SUM of a group-frame entry, which names no one granule: the spec states no value (R212). -/
opaque groupSum : (isl frame group : Nat) → Nat

/-- EADDR after an Awl interrupt, for which the spec names no address (R291, R306). -/
opaque awlEaddr : (free : Nat) → Nat

/-- The change of INCREMENT that an update of the hardware servo makes, whose arithmetic the spec does not give (R404). -/
opaque servoStep : (free : Nat) → Int

/-- The boot ROM's word at a byte offset: the spec gives no content (R424). -/
opaque bootRom : (offset : Nat) → Nat

/-- CODE of a DMA channel that halts because the write of a finished descriptor fails: the spec names none (R377). -/
opaque dmaCode : (free : Nat) → Nat

/-- What a byte of SDRAM reads as that nothing has written since its channel's power-on training: its content is undefined (R525). -/
opaque coldByte : (free addr : Nat) → Nat

/-- What on-die ECC reports for a beat that nothing has written since then, modulo 3: 0 good, 1 corrected, 2 uncorrected (R525). -/
opaque coldReport : (free beat : Nat) → Nat

/-- Runs of an image, at most, that a load has written to SDRAM when pass 2 refuses it: the spec does not say how far it came (R274). -/
opaque runsWritten : (free : Nat) → Nat

/-- The factory fuse map: the repair of an on-chip memory that it names at a place, as a FUSE.REPAIR entry spells one (R354). -/
opaque factoryRepair : (place : Nat) → Nat

/-- What a byte of SDRAM reads as that two regions of a pattern share: their contents are undefined (R134, R284). -/
opaque overlapByte : (free addr stored : Nat) → Nat

/-- Parts of the products of one operation that cross alignment groups, which are undefined (R42). -/
opaque crossPart : (free i : Nat) → Int

/-- Parts of a plane of lags from a Z configuration of more than 64 signals, which are undefined (R168, R284). -/
opaque lagPart : (free i : Nat) → Int

/-- Word i of a spill record whose sum is undefined: a plane outside the list of its integration's parity, or of a panel that
breaks R202 (R185, R284). -/
opaque recordWord : (free i : Nat) → Nat

/-- Byte i of an occupancy table of an island whose X panels have different run grids, which is undefined (R210, R284). -/
opaque tableByte : (free i : Nat) → Nat

/-- Byte i of a BEAM frame where T_F does not divide 4,096, whose framing is undefined (R224, R284). -/
opaque beamByte : (free i : Nat) → Nat

/-- Whether the engine's write queue is full as a segment's last pieces are settled (R320): the spec does not say when it is. -/
opaque capQueueFull : (free : Nat) → Bool

/-- Byte i of the 256-bit device key fused in the SMU: no path reads it (R441). -/
opaque smuKeyByte : (i : Nat) → Nat

/-- Byte i of the firmware hash fused in the SMU (R444). -/
opaque smuFwHashByte : (i : Nat) → Nat

/-- The SMU is provisioned for certification, as the ordering codes VX4-M and VX4-M-E say (VX4M; R2, R451, R503). -/
def vx4m : Bool := 2 ≤ partCode % 4

/-- Byte i of the PAD record before record `seq` of power-up `boot`: only its first four bytes are defined (R441). -/
opaque smuPad : (boot seq i : Nat) → Nat

/-- COUNT and POWER of a POWER entry with NO_DATA set whose stream delivered samples before it was closed: the spec does not
say whether they show those samples (R442). -/
opaque smuOpenSum : (boot first stream field : Nat) → Nat

end Sys2Proof.Config
end

