-- ==== Sys2Proof/Machine/RegTypes.lean ====
section
/-! DEFINITION. The shapes of the register map: access types (R15), registers, fields, table rows, and the closed
list of register names. -/
namespace Sys2Proof.Machine

/-- Access types of register fields (R15). -/
inductive Access where
  | rw | ro | wo | w1c | w1s | rwl | pop
deriving DecidableEq, Repr

/-- A register: its physical address, its width in bits and its reset value (R14, R21). -/
structure Reg where
  addr : Nat
  width : Nat
  reset : Nat
deriving DecidableEq, Repr

/-- A field of a register: bits hi down to lo (R11). -/
structure RF where
  reg : Reg
  hi : Nat
  lo : Nat
deriving DecidableEq, Repr

/-- One row of a register table: bits and access type (R9, R15). -/
structure FieldDef where
  hi : Nat
  lo : Nat
  acc : Access
deriving DecidableEq, Repr

/-- The names of the registers, one per register table of the spec. -/
inductive RegId where
  | DEV_ISL_RESET | DEV_ID | ISL_FRAME_NO | ING_FRAME_HEAD | ING_FRAME_TAIL | ING_AG_EPOCH_SC | ING_AG_CFG
  | ING_AG_MAP_SC | ING_AG_MAP_SEC | ING_AG_MAP_NS | ING_AG_PERIOD | ING_AG_COMMIT | ING_AG_STATUS
  | ING_AG_UNDERRUN_CNT | ING_AG_DISCARD_CNT | LANE_CFG | LANE_CTRL | LANE_STATE | LANE_EVENTS | LANE_TX_EQ
  | LANE_RX_EQ | LANE_TRN | LANE_HDR_ERR_CNT | LANE_LINK_CNT | LANE_PRBS_CTRL | LANE_PRBS_ERR | LANE_PRBS_BITS
  | FRM_CNT | ING_CT_CFG | ING_CT_BASE | ING_CH_BLOCK | ING_SLOT_COMMIT | ING_SLOT_STATUS | ING_CT_SKIP
  | ING_SLOT_MASK_SH | ING_SLOT_MASK | ING_STREAM_ST | ING_SIG_ENTRY | ISL_STAT_RING | ISL_STAT_WR | ISL_STAT_RD
  | ISL_STAT_DROP | ISL_FILL_CFG | ISL_FILL_DISCARD | PNL_CFG | PNL_STATUS | PNL_PC | PNL_EVENTS | PNL_IRQ_EN
  | PNL_SLOT_WAIT | PNL_FRAME | PNL_SLOT_BOUND | PNL_SLOT_CLOSING | PNL_CONFLICT_INFO | PNL_CONFLICT_CNT
  | PNL_UNBOUND_CNT | PNL_HOLDOFF_MAX | PNL_ARRAY_CYCLES | PNL_HELD_CYCLES | PNL_A | PNL_UCODE | PNL_INT_CFG
  | PNL_INT_START | PNL_SAT_CNT | PNL_ACC_EVENTS | ISL_PHASE_CFG | ISL_PHASE_BASE | ISL_PHASE_MISS_CNT
  | ISL_RED_CFG | ISL_RED_THRESH | ISL_RED_STATUS | ISL_RED_WINDOW | ISL_RED_LATE | ISL_RED_TOP_VAL
  | ISL_RED_TOP_POS | MEM_SPILL_BASE | MEM_SPILL_LIMIT | MEM_SPILL_STATUS | MEM_SPILL_ADDS | MEM_DUMP_BUSY
  | MEM_SPILL_LIST | DEV_DRAIN_AT | DEV_DRAIN_STATUS | DEV_DRAIN_DONE_AT | ISL_VERDICT_POST | ISL_VERDICT_CFG
  | ISL_VERDICT_STATUS | ISL_VERDICT_EVENTS | ISL_VERDICT_CNT | ISL_OCC_BASE | ISL_OCC_CFG | ISL_OCC_ROUTE
  | ISL_RETR_MAP | PNL_RETR_CFG | PNL_RETR_CNT | ISL_BEAM_TAB | ISL_BEAM_CFG | ISL_WEIGHT_CFG | ISL_WEIGHT_COMMIT
  | ISL_WEIGHT_STATUS | ISL_MARK_HEAD | ISL_BEAM_EVENTS | ISL_BEAM_CNT | ISL_WEIGHT_BASE | ISL_BEAM_LAST_EPOCH
  | PRT_ENTRY | EGR_DUMP_SEQ | EGR_DUMP_LAST_F | EGR_EVENTS | EGR_IRQ_EN | EGR_ROUTE_ERR_CNT | EGR_CLIP_CNT
  | EGR_GROUP_LOST | EGR_GROUP_CFG | EGR_RELAY_DROP | EGR_QUEUE | EGR_Q_DROP | EGR_RING_CFG | EGR_RING_PTR
  | EGR_WIN_HDR | EGR_WIN_SEQ | EGR_WIN_CTRL | EGR_WIN_DATA | PAT_CTRL | PAT_STATUS | PAT_EVENTS | PAT_ERR_OFFSET
  | PAT_LOAD_ADDR | PAT_LOAD_LEN | PAT_ACTIVATE_AT | PAT_STOP_AT | PAT_ACTIVE_ID | PAT_SHADOW_ID | PAT_ACTIVE_AT
  | PAT_PUBKEY | DEV_MODE | DEV_TEST_CFG | ISL_CLK | AWL_CTRL | AWL_STATUS | AWL_EVENTS | AWL_ECAUSE | AWL_EPC
  | AWL_EADDR | AWL_HOST_SIG | AWL_DOORBELL | AWL_CYCLES | AWL_STALLS | AWL_SPEC | AWL_XREG | AWL_ACC | CAP_CFG
  | CAP_RING_BASE | CAP_RING_GEOM | CAP_TRIG_CFG | CAP_TRIG_SW | CAP_NEXT_SEQ | CAP_HEAD_SEQ | CAP_EVENTS | CAP_CNT
  | CAP_RGN_START | CAP_RGN_END | CAP_RGN_CTRL | CAP_TAP | PCIE_CFG | PCIE_STATUS | PCIE_OB_XLATE | PCIE_IB_BASE
  | PCIE_IB_XLATE | PCIE_MSI_ADDR | MEM_CFG | MEM_ILV | MEM_SCHED | MEM_SCRUB | MEM_STATUS | MEM_PORT_TARGET
  | MEM_CH_CTRL | MEM_CH_STATUS | MEM_CH_ERR_ADDR | MEM_CH_CNT | ECC_SPILL_CHK | ECC_EVENTS | ECC_CE_THRESH
  | ECC_CNT | ECC_LAST_UE | ECC_DIAG_CTRL | ECC_DIAG_RAW | ECC_ONCHIP_SCRUB | FUSE_REPAIR | FUSE_REPAIR_PROG
  | FUSE_REPAIR_STATUS | WELT_PARK | WELT_TIMEOUT | WELT_EVENTS | WELT_ERR_INFO | WELT_ERR_ADDR | WELT_CNT
  | WELT_IND_MAX | WELT_IND_OVER_CNT | WELT_IND_DROP_CNT | WELT_M_STATUS | DMA_EVENTS | DMA_DONE | DMA_IRQ_EN
  | DMA_CH_CFG | DMA_CH_RING | DMA_CH_CTRL | DMA_CH_STATUS | DMA_CH_REMAIN | DMA_CH_ELEM | DMA_CH_BYTES | TIM_CTRL
  | TIM_STATUS | TIM_HISTORY | TIM_SEL_CFG | TIM_ARB_CFG | TIM_QTX | TIM_LREF | TIM_PTP_REF | TIM_TIME_LOAD_SEC
  | TIM_TIME_LOAD_NS | TIM_PPS_OUT | TIM_SNAP_SEC | TIM_SNAP_NSF | TIM_INCREMENT | TIM_HOLD_EST | TIM_PHASE_STEP
  | TIM_PHASE_PEND | TIM_REF_CFG | TIM_REF_STATUS | TIM_REF_FREQ | TIM_FO_CFG | TIM_FO_OFFSET | TIM_FO_PERIOD
  | PTP_STATUS | PTP_TS_POP | PTP_TS_SEC | PTP_TS_NSF | PTP_TS_CSEC | PTP_TS_CNSF | PTP_LANE_TX | PTP_PORT_CFG
  | PTP_PORT_LAT | INTC_PRIO | INTC_PENDING | INTC_ENABLE | INTC_THRESHOLD | INTC_CLAIM | HTIM_TIME | HTIM_CMP
  | HTIM_SWI | DEV_CORE_CTRL | DEV_CORE_RVEC | DEV_BOOT | DEV_L2_CTRL | DEV_QSPI_CTRL | DEV_QSPI_DATA
  | FUSE_BOOT_KEY | FUSE_BOOT_CFG | MGMT_CFG | MGMT_STATUS | MGMT_MAC_ADDR | MGMT_RING | MGMT_PTR | MGMT_MDIO
  | MGMT_CNT | SMU_STATUS | SMU_EVENTS | SMU_CMD | SMU_CFG | SMU_TIME_CFG | SMU_REC_HEAD | SMU_REC_TAIL
  | SMU_KEY_ID | SMU_BOOT | SMU_FW_ID | SMU_CFG_HASH | SMU_CNT | SMU_OCC | SMU_SEL | SMU_THR | SMU_NOTE | MON_CFG
  | MON_SRC | MON_NCO | MON_RATIO | MON_CTRL | MON_STATUS | MON_EVENTS | MON_CNT | MON_CS | MON_IN_STATUS | HK_CFG
  | HK_SEQ_EN | HK_STATUS | HK_URGENT | HK_URGENT_RESULT | HK_RESULT | EVR_EVENTS | EVR_POWER_CYCLES | EVR_OP_TIME
  | EVR_HEAD | EVR_OLDEST | EVR_ONCE_NEXT | EVR_LOST_CNT | EVR_APPEND | EVR_WIN_SEL | EVR_SW_BUF | EVR_STORE
  | EGR_LINK_FAIL | FO_CFG | FO_STATUS | FO_EVENTS | FO_LAST | FO_LAST_NEXT | FO_SUPP_CNT | FO_WIN_LO | FO_WIN_HI
  | DEV_STATUS | FUSE_PART_CODE
deriving DecidableEq, Repr

/-- A register as a row: name, base address, instance dimensions (count, step) from the outermost, width,
whether it requires whole-width writes (R500), and its fields other than reserved ones. -/
structure RegDef where
  id : RegId
  base : Nat
  dims : List (Nat × Nat)
  width : Nat
  whole : Bool
  fields : List FieldDef
deriving DecidableEq, Repr

end Sys2Proof.Machine
end

