-- ==== Sys2Proof/Machine/RegMap.lean ====
section
/-! DEFINITION. The register map of the device: every register of the spec's register tables at its address
(R14, R497, R498), with its width, reset value and fields. One name per register (namespace R) and one per named
field (namespace F), each taking its instance numbers in the order of the address expression of its table. -/
namespace Sys2Proof.Machine
namespace R

/-- DEV.ISL_RESET, 32 bits (01_architecture.md, R33). -/
def DEV_ISL_RESET : Reg := ⟨0xf000000300, 32, 0x0⟩
/-- DEV.ID, 32 bits (01_architecture.md, R35). -/
def DEV_ID : Reg := ⟨0xf000000000, 32, 0x56044d10⟩
/-- ISL_n.FRAME_NO, 64 bits (02_time_and_alignment.md, R59). -/
def ISL_FRAME_NO (n : Nat) : Reg := ⟨0xf002000010 + n * 0x100000, 64, 0x0⟩
/-- ING.FRAME_HEAD, 64 bits (02_time_and_alignment.md, R59). -/
def ING_FRAME_HEAD : Reg := ⟨0xf000a3f000, 64, 0x0⟩
/-- ING.FRAME_TAIL, 64 bits (02_time_and_alignment.md, R59). -/
def ING_FRAME_TAIL : Reg := ⟨0xf000a3f008, 64, 0x0⟩
/-- ING.AG_EPOCH_SC, 64 bits (02_time_and_alignment.md, R60). -/
def ING_AG_EPOCH_SC (g : Nat) : Reg := ⟨0xf000a40000 + g * 0x100, 64, 0x0⟩
/-- ING.AG_CFG, 32 bits (02_time_and_alignment.md, R60). -/
def ING_AG_CFG (g : Nat) : Reg := ⟨0xf000a40008 + g * 0x100, 32, 0x0⟩
/-- ING.AG_MAP_SC, 64 bits (02_time_and_alignment.md, R60). -/
def ING_AG_MAP_SC (g : Nat) : Reg := ⟨0xf000a40010 + g * 0x100, 64, 0x0⟩
/-- ING.AG_MAP_SEC, 64 bits (02_time_and_alignment.md, R60). -/
def ING_AG_MAP_SEC (g : Nat) : Reg := ⟨0xf000a40018 + g * 0x100, 64, 0x0⟩
/-- ING.AG_MAP_NS, 64 bits (02_time_and_alignment.md, R60). -/
def ING_AG_MAP_NS (g : Nat) : Reg := ⟨0xf000a40020 + g * 0x100, 64, 0x0⟩
/-- ING.AG_PERIOD, 64 bits (02_time_and_alignment.md, R60). -/
def ING_AG_PERIOD (g : Nat) : Reg := ⟨0xf000a40028 + g * 0x100, 64, 0x140000000000⟩
/-- ING.AG_COMMIT, 32 bits (02_time_and_alignment.md, R60). -/
def ING_AG_COMMIT (g : Nat) : Reg := ⟨0xf000a40030 + g * 0x100, 32, 0x0⟩
/-- ING.AG_STATUS, 32 bits (02_time_and_alignment.md, R60). -/
def ING_AG_STATUS (g : Nat) : Reg := ⟨0xf000a40034 + g * 0x100, 32, 0x0⟩
/-- ING.AG_UNDERRUN_CNT, 32 bits (02_time_and_alignment.md, R60). -/
def ING_AG_UNDERRUN_CNT (g : Nat) : Reg := ⟨0xf000a40038 + g * 0x100, 32, 0x0⟩
/-- ING.AG_DISCARD_CNT, 32 bits (02_time_and_alignment.md, R60). -/
def ING_AG_DISCARD_CNT (g : Nat) : Reg := ⟨0xf000a4003c + g * 0x100, 32, 0x0⟩
/-- LANE.CFG, 32 bits (03_lanes.md, R84). -/
def LANE_CFG (n : Nat) : Reg := ⟨0xf000800000 + n * 0x1000, 32, 0x0⟩
/-- LANE.CTRL, 32 bits (03_lanes.md, R84). -/
def LANE_CTRL (n : Nat) : Reg := ⟨0xf000800004 + n * 0x1000, 32, 0x8⟩
/-- LANE.STATE, 32 bits (03_lanes.md, R84). -/
def LANE_STATE (n : Nat) : Reg := ⟨0xf000800008 + n * 0x1000, 32, 0x0⟩
/-- LANE.EVENTS, 32 bits (03_lanes.md, R84). -/
def LANE_EVENTS (n : Nat) : Reg := ⟨0xf00080000c + n * 0x1000, 32, 0x0⟩
/-- LANE.TX_EQ, 32 bits (03_lanes.md, R84). -/
def LANE_TX_EQ (n : Nat) : Reg := ⟨0xf000800010 + n * 0x1000, 32, 0x3f0000⟩
/-- LANE.RX_EQ, 32 bits (03_lanes.md, R84). -/
def LANE_RX_EQ (n : Nat) : Reg := ⟨0xf000800014 + n * 0x1000, 32, 0x0⟩
/-- LANE.TRN, 32 bits (03_lanes.md, R84). -/
def LANE_TRN (n : Nat) : Reg := ⟨0xf000800018 + n * 0x1000, 32, 0x0⟩
/-- LANE.HDR_ERR_CNT, 32 bits (03_lanes.md, R84). -/
def LANE_HDR_ERR_CNT (n : Nat) : Reg := ⟨0xf00080001c + n * 0x1000, 32, 0x0⟩
/-- LANE.LINK_CNT, 32 bits (03_lanes.md, R84). -/
def LANE_LINK_CNT (n : Nat) : Reg := ⟨0xf000800020 + n * 0x1000, 32, 0x0⟩
/-- LANE.PRBS_CTRL, 32 bits (03_lanes.md, R84). -/
def LANE_PRBS_CTRL (n : Nat) : Reg := ⟨0xf000800024 + n * 0x1000, 32, 0x0⟩
/-- LANE.PRBS_ERR, 32 bits (03_lanes.md, R84). -/
def LANE_PRBS_ERR (n : Nat) : Reg := ⟨0xf000800028 + n * 0x1000, 32, 0x0⟩
/-- LANE.PRBS_BITS, 64 bits (03_lanes.md, R84). -/
def LANE_PRBS_BITS (n : Nat) : Reg := ⟨0xf000800030 + n * 0x1000, 64, 0x0⟩
/-- FRM.CNT, 32 bits (05_ingest_and_corner_turn.md, R138). -/
def FRM_CNT (n i : Nat) : Reg := ⟨0xf000900000 + n * 0x100 + i * 0x4, 32, 0x0⟩
/-- ING.CT_CFG, 64 bits (05_ingest_and_corner_turn.md, R139). -/
def ING_CT_CFG : Reg := ⟨0xf000a00000, 64, 0x0⟩
/-- ING.CT_BASE, 64 bits (05_ingest_and_corner_turn.md, R139). -/
def ING_CT_BASE : Reg := ⟨0xf000a00008, 64, 0x0⟩
/-- ING.CH_BLOCK, 32 bits (05_ingest_and_corner_turn.md, R139). -/
def ING_CH_BLOCK (k : Nat) : Reg := ⟨0xf000a00010 + k * 0x4, 32, 0x0⟩
/-- ING.SLOT_COMMIT, 64 bits (05_ingest_and_corner_turn.md, R139). -/
def ING_SLOT_COMMIT : Reg := ⟨0xf000a00100, 64, 0x0⟩
/-- ING.SLOT_STATUS, 32 bits (05_ingest_and_corner_turn.md, R139). -/
def ING_SLOT_STATUS : Reg := ⟨0xf000a00108, 32, 0x0⟩
/-- ING.CT_SKIP, 32 bits (05_ingest_and_corner_turn.md, R139). -/
def ING_CT_SKIP (k : Nat) : Reg := ⟨0xf000a00200 + k * 0x4, 32, 0x0⟩
/-- ING.SLOT_MASK_SH, 64 bits (05_ingest_and_corner_turn.md, R139). -/
def ING_SLOT_MASK_SH (ig : Nat) : Reg := ⟨0xf000a01000 + ig * 0x8, 64, 0xffffffffffffffff⟩
/-- ING.SLOT_MASK, 64 bits (05_ingest_and_corner_turn.md, R139). -/
def ING_SLOT_MASK (ig : Nat) : Reg := ⟨0xf000a01800 + ig * 0x8, 64, 0xffffffffffffffff⟩
/-- ING.STREAM_ST, 32 bits (05_ingest_and_corner_turn.md, R139). -/
def ING_STREAM_ST (s : Nat) : Reg := ⟨0xf000a10000 + s * 0x4, 32, 0x0⟩
/-- ING.SIG_ENTRY, 64 bits (05_ingest_and_corner_turn.md, R139). -/
def ING_SIG_ENTRY (s : Nat) : Reg := ⟨0xf000a20000 + s * 0x8, 64, 0x0⟩
/-- ISL_n.STAT_RING, 32 bits (05_ingest_and_corner_turn.md, R140). -/
def ISL_STAT_RING (n j : Nat) : Reg := ⟨0xf002000100 + n * 0x100000 + j * 0x20, 32, 0x0⟩
/-- ISL_n.STAT_WR, 32 bits (05_ingest_and_corner_turn.md, R140). -/
def ISL_STAT_WR (n j : Nat) : Reg := ⟨0xf002000104 + n * 0x100000 + j * 0x20, 32, 0x0⟩
/-- ISL_n.STAT_RD, 32 bits (05_ingest_and_corner_turn.md, R140). -/
def ISL_STAT_RD (n j : Nat) : Reg := ⟨0xf002000108 + n * 0x100000 + j * 0x20, 32, 0x0⟩
/-- ISL_n.STAT_DROP, 32 bits (05_ingest_and_corner_turn.md, R140). -/
def ISL_STAT_DROP (n j : Nat) : Reg := ⟨0xf00200010c + n * 0x100000 + j * 0x20, 32, 0x0⟩
/-- ISL_n.FILL_CFG, 32 bits (05_ingest_and_corner_turn.md, R140). -/
def ISL_FILL_CFG (n : Nat) : Reg := ⟨0xf002000140 + n * 0x100000, 32, 0x0⟩
/-- ISL_n.FILL_DISCARD, 32 bits (05_ingest_and_corner_turn.md, R140). -/
def ISL_FILL_DISCARD (n : Nat) : Reg := ⟨0xf002000144 + n * 0x100000, 32, 0x0⟩
/-- PNL.CFG, 32 bits (06_correlation_array.md, R169). -/
def PNL_CFG (p : Nat) : Reg := ⟨0xf002010000 + p / 8 * 0x100000 + p % 8 * 0x10000, 32, 0x0⟩
/-- PNL.STATUS, 32 bits (06_correlation_array.md, R169). -/
def PNL_STATUS (p : Nat) : Reg := ⟨0xf002010004 + p / 8 * 0x100000 + p % 8 * 0x10000, 32, 0x0⟩
/-- PNL.PC, 32 bits (06_correlation_array.md, R169). -/
def PNL_PC (p : Nat) : Reg := ⟨0xf002010008 + p / 8 * 0x100000 + p % 8 * 0x10000, 32, 0x0⟩
/-- PNL.EVENTS, 32 bits (06_correlation_array.md, R169). -/
def PNL_EVENTS (p : Nat) : Reg := ⟨0xf00201000c + p / 8 * 0x100000 + p % 8 * 0x10000, 32, 0x0⟩
/-- PNL.IRQ_EN, 32 bits (06_correlation_array.md, R169). -/
def PNL_IRQ_EN (p : Nat) : Reg := ⟨0xf002010010 + p / 8 * 0x100000 + p % 8 * 0x10000, 32, 0x0⟩
/-- PNL.SLOT_WAIT, 32 bits (06_correlation_array.md, R169). -/
def PNL_SLOT_WAIT (p : Nat) : Reg := ⟨0xf002010014 + p / 8 * 0x100000 + p % 8 * 0x10000, 32, 0x10000⟩
/-- PNL.FRAME, 64 bits (06_correlation_array.md, R169). -/
def PNL_FRAME (p : Nat) : Reg := ⟨0xf002010018 + p / 8 * 0x100000 + p % 8 * 0x10000, 64, 0x0⟩
/-- PNL.SLOT_BOUND, 32 bits (06_correlation_array.md, R169). -/
def PNL_SLOT_BOUND (p : Nat) : Reg := ⟨0xf002010020 + p / 8 * 0x100000 + p % 8 * 0x10000, 32, 0x0⟩
/-- PNL.SLOT_CLOSING, 32 bits (06_correlation_array.md, R169). -/
def PNL_SLOT_CLOSING (p : Nat) : Reg := ⟨0xf002010024 + p / 8 * 0x100000 + p % 8 * 0x10000, 32, 0x0⟩
/-- PNL.CONFLICT_INFO, 32 bits (06_correlation_array.md, R169). -/
def PNL_CONFLICT_INFO (p : Nat) : Reg := ⟨0xf002010028 + p / 8 * 0x100000 + p % 8 * 0x10000, 32, 0x0⟩
/-- PNL.CONFLICT_CNT, 32 bits (06_correlation_array.md, R169). -/
def PNL_CONFLICT_CNT (p : Nat) : Reg := ⟨0xf00201002c + p / 8 * 0x100000 + p % 8 * 0x10000, 32, 0x0⟩
/-- PNL.UNBOUND_CNT, 32 bits (06_correlation_array.md, R169). -/
def PNL_UNBOUND_CNT (p : Nat) : Reg := ⟨0xf002010030 + p / 8 * 0x100000 + p % 8 * 0x10000, 32, 0x0⟩
/-- PNL.HOLDOFF_MAX, 32 bits (06_correlation_array.md, R169). -/
def PNL_HOLDOFF_MAX (p : Nat) : Reg := ⟨0xf002010034 + p / 8 * 0x100000 + p % 8 * 0x10000, 32, 0x0⟩
/-- PNL.ARRAY_CYCLES, 64 bits (06_correlation_array.md, R169). -/
def PNL_ARRAY_CYCLES (p : Nat) : Reg := ⟨0xf002010038 + p / 8 * 0x100000 + p % 8 * 0x10000, 64, 0x0⟩
/-- PNL.HELD_CYCLES, 64 bits (06_correlation_array.md, R169). -/
def PNL_HELD_CYCLES (p : Nat) : Reg := ⟨0xf002010040 + p / 8 * 0x100000 + p % 8 * 0x10000, 64, 0x0⟩
/-- PNL.A, 32 bits (06_correlation_array.md, R169). -/
def PNL_A (p a : Nat) : Reg := ⟨0xf002010100 + p / 8 * 0x100000 + p % 8 * 0x10000 + a * 0x4, 32, 0x0⟩
/-- PNL.UCODE, 64 bits (06_correlation_array.md, R169). -/
def PNL_UCODE (p w : Nat) : Reg := ⟨0xf002018000 + p / 8 * 0x100000 + p % 8 * 0x10000 + w * 0x8, 64, 0x0⟩
/-- PNL.INT_CFG, 32 bits (07_accumulation_and_drain.md, R198). -/
def PNL_INT_CFG (p : Nat) : Reg := ⟨0xf002010050 + p / 8 * 0x100000 + p % 8 * 0x10000, 32, 0x0⟩
/-- PNL.INT_START, 64 bits (07_accumulation_and_drain.md, R198). -/
def PNL_INT_START (p : Nat) : Reg := ⟨0xf002010058 + p / 8 * 0x100000 + p % 8 * 0x10000, 64, 0x0⟩
/-- PNL.SAT_CNT, 32 bits (07_accumulation_and_drain.md, R198). -/
def PNL_SAT_CNT (p : Nat) : Reg := ⟨0xf002010060 + p / 8 * 0x100000 + p % 8 * 0x10000, 32, 0x0⟩
/-- PNL.ACC_EVENTS, 32 bits (07_accumulation_and_drain.md, R198). -/
def PNL_ACC_EVENTS (p : Nat) : Reg := ⟨0xf002010064 + p / 8 * 0x100000 + p % 8 * 0x10000, 32, 0x0⟩
/-- ISL_n.PHASE_CFG, 32 bits (07_accumulation_and_drain.md, R198). -/
def ISL_PHASE_CFG (n : Nat) : Reg := ⟨0xf002000300 + n * 0x100000, 32, 0x0⟩
/-- ISL_n.PHASE_BASE, 64 bits (07_accumulation_and_drain.md, R198). -/
def ISL_PHASE_BASE (n : Nat) : Reg := ⟨0xf002000308 + n * 0x100000, 64, 0x0⟩
/-- ISL_n.PHASE_MISS_CNT, 32 bits (07_accumulation_and_drain.md, R198). -/
def ISL_PHASE_MISS_CNT (n : Nat) : Reg := ⟨0xf002000310 + n * 0x100000, 32, 0x0⟩
/-- ISL_n.RED_CFG, 32 bits (07_accumulation_and_drain.md, R198). -/
def ISL_RED_CFG (n : Nat) : Reg := ⟨0xf002000400 + n * 0x100000, 32, 0x0⟩
/-- ISL_n.RED_THRESH, 64 bits (07_accumulation_and_drain.md, R198). -/
def ISL_RED_THRESH (n : Nat) : Reg := ⟨0xf002000408 + n * 0x100000, 64, 0xffffffffffff⟩
/-- ISL_n.RED_STATUS, 32 bits (07_accumulation_and_drain.md, R198). -/
def ISL_RED_STATUS (n : Nat) : Reg := ⟨0xf002000410 + n * 0x100000, 32, 0x0⟩
/-- ISL_n.RED_WINDOW, 64 bits (07_accumulation_and_drain.md, R198). -/
def ISL_RED_WINDOW (n : Nat) : Reg := ⟨0xf002000418 + n * 0x100000, 64, 0x0⟩
/-- ISL_n.RED_LATE, 32 bits (07_accumulation_and_drain.md, R198). -/
def ISL_RED_LATE (n : Nat) : Reg := ⟨0xf002000420 + n * 0x100000, 32, 0x0⟩
/-- ISL_n.RED_TOP_VAL, 64 bits (07_accumulation_and_drain.md, R198). -/
def ISL_RED_TOP_VAL (n k : Nat) : Reg := ⟨0xf002000440 + n * 0x100000 + k * 0x10, 64, 0x0⟩
/-- ISL_n.RED_TOP_POS, 64 bits (07_accumulation_and_drain.md, R198). -/
def ISL_RED_TOP_POS (n k : Nat) : Reg := ⟨0xf002000448 + n * 0x100000 + k * 0x10, 64, 0x0⟩
/-- MEM.SPILL_BASE, 64 bits (07_accumulation_and_drain.md, R198). -/
def MEM_SPILL_BASE : Reg := ⟨0xf001040000, 64, 0x0⟩
/-- MEM.SPILL_LIMIT, 64 bits (07_accumulation_and_drain.md, R198). -/
def MEM_SPILL_LIMIT : Reg := ⟨0xf001040008, 64, 0x0⟩
/-- MEM.SPILL_STATUS, 32 bits (07_accumulation_and_drain.md, R198). -/
def MEM_SPILL_STATUS : Reg := ⟨0xf001040010, 32, 0x0⟩
/-- MEM.SPILL_ADDS, 64 bits (07_accumulation_and_drain.md, R198). -/
def MEM_SPILL_ADDS : Reg := ⟨0xf001040018, 64, 0x0⟩
/-- MEM.DUMP_BUSY, 64 bits (07_accumulation_and_drain.md, R198). -/
def MEM_DUMP_BUSY : Reg := ⟨0xf001040020, 64, 0x0⟩
/-- MEM.SPILL_LIST, 64 bits (07_accumulation_and_drain.md, R198). -/
def MEM_SPILL_LIST (p : Nat) : Reg := ⟨0xf001040100 + p * 0x8, 64, 0x0⟩
/-- DEV.DRAIN_AT, 64 bits (07_accumulation_and_drain.md, R198). -/
def DEV_DRAIN_AT : Reg := ⟨0xf000000100, 64, 0xff000000000000⟩
/-- DEV.DRAIN_STATUS, 32 bits (07_accumulation_and_drain.md, R198). -/
def DEV_DRAIN_STATUS : Reg := ⟨0xf000000108, 32, 0x0⟩
/-- DEV.DRAIN_DONE_AT, 64 bits (07_accumulation_and_drain.md, R198). -/
def DEV_DRAIN_DONE_AT : Reg := ⟨0xf000000110, 64, 0x0⟩
/-- ISL_n.VERDICT_POST, 64 bits (08_flagging_and_retraction.md, R215). -/
def ISL_VERDICT_POST (n : Nat) : Reg := ⟨0xf002000500 + n * 0x100000, 64, 0x0⟩
/-- ISL_n.VERDICT_CFG, 32 bits (08_flagging_and_retraction.md, R215). -/
def ISL_VERDICT_CFG (n : Nat) : Reg := ⟨0xf002000508 + n * 0x100000, 32, 0x0⟩
/-- ISL_n.VERDICT_STATUS, 32 bits (08_flagging_and_retraction.md, R215). -/
def ISL_VERDICT_STATUS (n : Nat) : Reg := ⟨0xf00200050c + n * 0x100000, 32, 0x0⟩
/-- ISL_n.VERDICT_EVENTS, 32 bits (08_flagging_and_retraction.md, R215). -/
def ISL_VERDICT_EVENTS (n : Nat) : Reg := ⟨0xf002000510 + n * 0x100000, 32, 0x0⟩
/-- ISL_n.VERDICT_CNT, 32 bits (08_flagging_and_retraction.md, R215). -/
def ISL_VERDICT_CNT (n i : Nat) : Reg := ⟨0xf002000520 + n * 0x100000 + i * 0x4, 32, 0x0⟩
/-- ISL_n.OCC_BASE, 64 bits (08_flagging_and_retraction.md, R215). -/
def ISL_OCC_BASE (n : Nat) : Reg := ⟨0xf002000540 + n * 0x100000, 64, 0x0⟩
/-- ISL_n.OCC_CFG, 64 bits (08_flagging_and_retraction.md, R215). -/
def ISL_OCC_CFG (n : Nat) : Reg := ⟨0xf002000548 + n * 0x100000, 64, 0x0⟩
/-- ISL_n.OCC_ROUTE, 32 bits (08_flagging_and_retraction.md, R215). -/
def ISL_OCC_ROUTE (n : Nat) : Reg := ⟨0xf002000550 + n * 0x100000, 32, 0x0⟩
/-- ISL_n.RETR_MAP, 32 bits (08_flagging_and_retraction.md, R215). -/
def ISL_RETR_MAP (n j : Nat) : Reg := ⟨0xf002004000 + n * 0x100000 + j * 0x4, 32, 0x0⟩
/-- PNL.RETR_CFG, 32 bits (08_flagging_and_retraction.md, R215). -/
def PNL_RETR_CFG (p : Nat) : Reg := ⟨0xf002010070 + p / 8 * 0x100000 + p % 8 * 0x10000, 32, 0x0⟩
/-- PNL.RETR_CNT, 32 bits (08_flagging_and_retraction.md, R215). -/
def PNL_RETR_CNT (p : Nat) : Reg := ⟨0xf002010074 + p / 8 * 0x100000 + p % 8 * 0x10000, 32, 0x0⟩
/-- ISL_n.BEAM_TAB, 64 bits (09_beamforming.md, R237). -/
def ISL_BEAM_TAB (n BB : Nat) : Reg := ⟨0xf002000600 + n * 0x100000 + BB * 0x8, 64, 0x0⟩
/-- ISL_n.BEAM_CFG, 32 bits (09_beamforming.md, R237). -/
def ISL_BEAM_CFG (n : Nat) : Reg := ⟨0xf002000700 + n * 0x100000, 32, 0x0⟩
/-- ISL_n.WEIGHT_CFG, 64 bits (09_beamforming.md, R237). -/
def ISL_WEIGHT_CFG (n : Nat) : Reg := ⟨0xf002000708 + n * 0x100000, 64, 0x0⟩
/-- ISL_n.WEIGHT_COMMIT, 64 bits (09_beamforming.md, R237). -/
def ISL_WEIGHT_COMMIT (n : Nat) : Reg := ⟨0xf002000710 + n * 0x100000, 64, 0x0⟩
/-- ISL_n.WEIGHT_STATUS, 32 bits (09_beamforming.md, R237). -/
def ISL_WEIGHT_STATUS (n : Nat) : Reg := ⟨0xf002000718 + n * 0x100000, 32, 0x40⟩
/-- ISL_n.MARK_HEAD, 64 bits (09_beamforming.md, R237). -/
def ISL_MARK_HEAD (n : Nat) : Reg := ⟨0xf002000720 + n * 0x100000, 64, 0x0⟩
/-- ISL_n.BEAM_EVENTS, 32 bits (09_beamforming.md, R237). -/
def ISL_BEAM_EVENTS (n : Nat) : Reg := ⟨0xf002000728 + n * 0x100000, 32, 0x0⟩
/-- ISL_n.BEAM_CNT, 32 bits (09_beamforming.md, R237). -/
def ISL_BEAM_CNT (n i : Nat) : Reg := ⟨0xf002000730 + n * 0x100000 + i * 0x4, 32, 0x0⟩
/-- ISL_n.WEIGHT_BASE, 64 bits (09_beamforming.md, R237). -/
def ISL_WEIGHT_BASE (n : Nat) : Reg := ⟨0xf002000748 + n * 0x100000, 64, 0x0⟩
/-- ISL_n.BEAM_LAST_EPOCH, 32 bits (09_beamforming.md, R237). -/
def ISL_BEAM_LAST_EPOCH (n : Nat) : Reg := ⟨0xf002000750 + n * 0x100000, 32, 0x0⟩
/-- PRT.ENTRY, 64 bits (10_products_and_egress.md, R261). -/
def PRT_ENTRY (e : Nat) : Reg := ⟨0xf000c00000 + e * 0x8, 64, 0x0⟩
/-- EGR.DUMP_SEQ, 32 bits (10_products_and_egress.md, R261). -/
def EGR_DUMP_SEQ : Reg := ⟨0xf000d00000, 32, 0x0⟩
/-- EGR.DUMP_LAST_F, 64 bits (10_products_and_egress.md, R261). -/
def EGR_DUMP_LAST_F : Reg := ⟨0xf000d00008, 64, 0x0⟩
/-- EGR.EVENTS, 32 bits (10_products_and_egress.md, R261). -/
def EGR_EVENTS : Reg := ⟨0xf000d00010, 32, 0x0⟩
/-- EGR.IRQ_EN, 32 bits (10_products_and_egress.md, R261). -/
def EGR_IRQ_EN : Reg := ⟨0xf000d00014, 32, 0x0⟩
/-- EGR.ROUTE_ERR_CNT, 32 bits (10_products_and_egress.md, R261). -/
def EGR_ROUTE_ERR_CNT : Reg := ⟨0xf000d00018, 32, 0x0⟩
/-- EGR.CLIP_CNT, 32 bits (10_products_and_egress.md, R261). -/
def EGR_CLIP_CNT : Reg := ⟨0xf000d0001c, 32, 0x0⟩
/-- EGR.GROUP_LOST, 32 bits (10_products_and_egress.md, R261). -/
def EGR_GROUP_LOST (g : Nat) : Reg := ⟨0xf000d00100 + g * 0x4, 32, 0x0⟩
/-- EGR.GROUP_CFG, 32 bits (10_products_and_egress.md, R261). -/
def EGR_GROUP_CFG (g : Nat) : Reg := ⟨0xf000d00200 + g * 0x4, 32, 0x0⟩
/-- EGR.RELAY_DROP, 32 bits (10_products_and_egress.md, R261). -/
def EGR_RELAY_DROP (g : Nat) : Reg := ⟨0xf000d00280 + g * 0x4, 32, 0x0⟩
/-- EGR.QUEUE, 64 bits (10_products_and_egress.md, R261). -/
def EGR_QUEUE (q : Nat) : Reg := ⟨0xf000d10000 + q * 0x8, 64, 0x0⟩
/-- EGR.Q_DROP, 32 bits (10_products_and_egress.md, R261). -/
def EGR_Q_DROP (q : Nat) : Reg := ⟨0xf000d18000 + q * 0x4, 32, 0x0⟩
/-- EGR.RING_CFG, 64 bits (10_products_and_egress.md, R261). -/
def EGR_RING_CFG (q : Nat) : Reg := ⟨0xf000d20000 + q * 0x10, 64, 0x0⟩
/-- EGR.RING_PTR, 32 bits (10_products_and_egress.md, R261). -/
def EGR_RING_PTR (q : Nat) : Reg := ⟨0xf000d20008 + q * 0x10, 32, 0x0⟩
/-- EGR.WIN_HDR, 64 bits (10_products_and_egress.md, R261). -/
def EGR_WIN_HDR (w : Nat) : Reg := ⟨0xf000d40000 + w * 0x20, 64, 0x0⟩
/-- EGR.WIN_SEQ, 32 bits (10_products_and_egress.md, R261). -/
def EGR_WIN_SEQ (w : Nat) : Reg := ⟨0xf000d40008 + w * 0x20, 32, 0x0⟩
/-- EGR.WIN_CTRL, 32 bits (10_products_and_egress.md, R261). -/
def EGR_WIN_CTRL (w : Nat) : Reg := ⟨0xf000d4000c + w * 0x20, 32, 0x0⟩
/-- EGR.WIN_DATA, 64 bits (10_products_and_egress.md, R261). -/
def EGR_WIN_DATA (w i : Nat) : Reg := ⟨0xf000d80000 + w * 0x8000 + i * 0x8, 64, 0x0⟩
/-- PAT.CTRL, 32 bits (11_pattern_images_and_modes.md, R286). -/
def PAT_CTRL : Reg := ⟨0xf000b00000, 32, 0x0⟩
/-- PAT.STATUS, 32 bits (11_pattern_images_and_modes.md, R286). -/
def PAT_STATUS : Reg := ⟨0xf000b00004, 32, 0x0⟩
/-- PAT.EVENTS, 32 bits (11_pattern_images_and_modes.md, R286). -/
def PAT_EVENTS : Reg := ⟨0xf000b00008, 32, 0x0⟩
/-- PAT.ERR_OFFSET, 32 bits (11_pattern_images_and_modes.md, R286). -/
def PAT_ERR_OFFSET : Reg := ⟨0xf000b0000c, 32, 0x0⟩
/-- PAT.LOAD_ADDR, 64 bits (11_pattern_images_and_modes.md, R286). -/
def PAT_LOAD_ADDR : Reg := ⟨0xf000b00010, 64, 0x0⟩
/-- PAT.LOAD_LEN, 32 bits (11_pattern_images_and_modes.md, R286). -/
def PAT_LOAD_LEN : Reg := ⟨0xf000b00018, 32, 0x0⟩
/-- PAT.ACTIVATE_AT, 64 bits (11_pattern_images_and_modes.md, R286). -/
def PAT_ACTIVATE_AT : Reg := ⟨0xf000b00020, 64, 0x0⟩
/-- PAT.STOP_AT, 64 bits (11_pattern_images_and_modes.md, R286). -/
def PAT_STOP_AT : Reg := ⟨0xf000b00028, 64, 0x0⟩
/-- PAT.ACTIVE_ID, 64 bits (11_pattern_images_and_modes.md, R286). -/
def PAT_ACTIVE_ID : Reg := ⟨0xf000b00030, 64, 0x0⟩
/-- PAT.SHADOW_ID, 64 bits (11_pattern_images_and_modes.md, R286). -/
def PAT_SHADOW_ID : Reg := ⟨0xf000b00038, 64, 0x0⟩
/-- PAT.ACTIVE_AT, 64 bits (11_pattern_images_and_modes.md, R286). -/
def PAT_ACTIVE_AT : Reg := ⟨0xf000b00040, 64, 0x0⟩
/-- PAT.PUBKEY, 64 bits (11_pattern_images_and_modes.md, R286). -/
def PAT_PUBKEY (i : Nat) : Reg := ⟨0xf000b00100 + i * 0x8, 64, 0x0⟩
/-- DEV.MODE, 32 bits (11_pattern_images_and_modes.md, R286). -/
def DEV_MODE : Reg := ⟨0xf000000008, 32, 0x0⟩
/-- DEV.TEST_CFG, 32 bits (11_pattern_images_and_modes.md, R286). -/
def DEV_TEST_CFG : Reg := ⟨0xf000000010, 32, 0x0⟩
/-- ISL_n.CLK, 32 bits (11_pattern_images_and_modes.md, R286). -/
def ISL_CLK (n : Nat) : Reg := ⟨0xf002000020 + n * 0x100000, 32, 0x14⟩
/-- AWL.CTRL, 32 bits (12_awl_signal_cores.md, R315). -/
def AWL_CTRL (n : Nat) : Reg := ⟨0xf002800000 + n * 0x10000, 32, 0x0⟩
/-- AWL.STATUS, 32 bits (12_awl_signal_cores.md, R315). -/
def AWL_STATUS (n : Nat) : Reg := ⟨0xf002800004 + n * 0x10000, 32, 0x0⟩
/-- AWL.EVENTS, 32 bits (12_awl_signal_cores.md, R315). -/
def AWL_EVENTS (n : Nat) : Reg := ⟨0xf002800008 + n * 0x10000, 32, 0x0⟩
/-- AWL.ECAUSE, 32 bits (12_awl_signal_cores.md, R315). -/
def AWL_ECAUSE (n : Nat) : Reg := ⟨0xf00280000c + n * 0x10000, 32, 0x0⟩
/-- AWL.EPC, 32 bits (12_awl_signal_cores.md, R315). -/
def AWL_EPC (n : Nat) : Reg := ⟨0xf002800010 + n * 0x10000, 32, 0x0⟩
/-- AWL.EADDR, 32 bits (12_awl_signal_cores.md, R315). -/
def AWL_EADDR (n : Nat) : Reg := ⟨0xf002800014 + n * 0x10000, 32, 0x0⟩
/-- AWL.HOST_SIG, 32 bits (12_awl_signal_cores.md, R315). -/
def AWL_HOST_SIG (n : Nat) : Reg := ⟨0xf002800018 + n * 0x10000, 32, 0x0⟩
/-- AWL.DOORBELL, 32 bits (12_awl_signal_cores.md, R315). -/
def AWL_DOORBELL (n : Nat) : Reg := ⟨0xf00280001c + n * 0x10000, 32, 0x0⟩
/-- AWL.CYCLES, 64 bits (12_awl_signal_cores.md, R315). -/
def AWL_CYCLES (n : Nat) : Reg := ⟨0xf002800020 + n * 0x10000, 64, 0x0⟩
/-- AWL.STALLS, 64 bits (12_awl_signal_cores.md, R315). -/
def AWL_STALLS (n : Nat) : Reg := ⟨0xf002800028 + n * 0x10000, 64, 0x0⟩
/-- AWL.SPEC, 64 bits (12_awl_signal_cores.md, R315). -/
def AWL_SPEC (n i : Nat) : Reg := ⟨0xf002800100 + n * 0x10000 + i * 0x8, 64, 0x0⟩
/-- AWL.XREG, 64 bits (12_awl_signal_cores.md, R315). -/
def AWL_XREG (n i : Nat) : Reg := ⟨0xf002800400 + n * 0x10000 + i * 0x8, 64, 0x0⟩
/-- AWL.ACC, 64 bits (12_awl_signal_cores.md, R315). -/
def AWL_ACC (n a : Nat) : Reg := ⟨0xf002800600 + n * 0x10000 + a * 0x8, 64, 0x0⟩
/-- CAP.CFG, 32 bits (13_transient_capture.md, R330). -/
def CAP_CFG : Reg := ⟨0xf001200000, 32, 0x0⟩
/-- CAP.RING_BASE, 64 bits (13_transient_capture.md, R330). -/
def CAP_RING_BASE (L : Nat) : Reg := ⟨0xf001200010 + L * 0x10, 64, 0x0⟩
/-- CAP.RING_GEOM, 64 bits (13_transient_capture.md, R330). -/
def CAP_RING_GEOM (L : Nat) : Reg := ⟨0xf001200018 + L * 0x10, 64, 0x0⟩
/-- CAP.TRIG_CFG, 64 bits (13_transient_capture.md, R330). -/
def CAP_TRIG_CFG : Reg := ⟨0xf001200040, 64, 0x0⟩
/-- CAP.TRIG_SW, 64 bits (13_transient_capture.md, R330). -/
def CAP_TRIG_SW : Reg := ⟨0xf001200048, 64, 0x0⟩
/-- CAP.NEXT_SEQ, 64 bits (13_transient_capture.md, R330). -/
def CAP_NEXT_SEQ : Reg := ⟨0xf001200050, 64, 0x0⟩
/-- CAP.HEAD_SEQ, 64 bits (13_transient_capture.md, R330). -/
def CAP_HEAD_SEQ : Reg := ⟨0xf001200058, 64, 0x0⟩
/-- CAP.EVENTS, 32 bits (13_transient_capture.md, R330). -/
def CAP_EVENTS : Reg := ⟨0xf001200060, 32, 0x0⟩
/-- CAP.CNT, 32 bits (13_transient_capture.md, R330). -/
def CAP_CNT (i : Nat) : Reg := ⟨0xf001200080 + i * 0x4, 32, 0x0⟩
/-- CAP.RGN_START, 64 bits (13_transient_capture.md, R330). -/
def CAP_RGN_START (r : Nat) : Reg := ⟨0xf001200100 + r * 0x20, 64, 0x0⟩
/-- CAP.RGN_END, 64 bits (13_transient_capture.md, R330). -/
def CAP_RGN_END (r : Nat) : Reg := ⟨0xf001200108 + r * 0x20, 64, 0x0⟩
/-- CAP.RGN_CTRL, 32 bits (13_transient_capture.md, R330). -/
def CAP_RGN_CTRL (r : Nat) : Reg := ⟨0xf001200110 + r * 0x20, 32, 0x0⟩
/-- CAP.TAP, 32 bits (13_transient_capture.md, R330). -/
def CAP_TAP (i : Nat) : Reg := ⟨0xf001210000 + i * 0x4, 32, 0x0⟩
/-- PCIE.CFG, 32 bits (13_transient_capture.md, R330). -/
def PCIE_CFG (n : Nat) : Reg := ⟨0xf001300000 + n * 0x1000, 32, 0xa0⟩
/-- PCIE.STATUS, 32 bits (13_transient_capture.md, R330). -/
def PCIE_STATUS (n : Nat) : Reg := ⟨0xf001300004 + n * 0x1000, 32, 0x0⟩
/-- PCIE.OB_XLATE, 64 bits (13_transient_capture.md, R330). -/
def PCIE_OB_XLATE (n : Nat) : Reg := ⟨0xf001300008 + n * 0x1000, 64, 0x0⟩
/-- PCIE.IB_BASE, 64 bits (13_transient_capture.md, R330). -/
def PCIE_IB_BASE (n : Nat) : Reg := ⟨0xf001300010 + n * 0x1000, 64, 0x0⟩
/-- PCIE.IB_XLATE, 64 bits (13_transient_capture.md, R330). -/
def PCIE_IB_XLATE (n : Nat) : Reg := ⟨0xf001300018 + n * 0x1000, 64, 0x0⟩
/-- PCIE.MSI_ADDR, 64 bits (13_transient_capture.md, R330). -/
def PCIE_MSI_ADDR (n : Nat) : Reg := ⟨0xf001300020 + n * 0x1000, 64, 0x0⟩
/-- MEM.CFG, 32 bits (14_memory_and_integrity.md, R357). -/
def MEM_CFG : Reg := ⟨0xf001000000, 32, 0x0⟩
/-- MEM.ILV, 64 bits (14_memory_and_integrity.md, R357). -/
def MEM_ILV : Reg := ⟨0xf001000008, 64, 0x0⟩
/-- MEM.SCHED, 32 bits (14_memory_and_integrity.md, R357). -/
def MEM_SCHED : Reg := ⟨0xf001000010, 32, 0x8001020⟩
/-- MEM.SCRUB, 32 bits (14_memory_and_integrity.md, R357). -/
def MEM_SCRUB : Reg := ⟨0xf001000018, 32, 0x80000100⟩
/-- MEM.STATUS, 32 bits (14_memory_and_integrity.md, R357). -/
def MEM_STATUS : Reg := ⟨0xf001000020, 32, 0x0⟩
/-- MEM.PORT_TARGET, 32 bits (14_memory_and_integrity.md, R357). -/
def MEM_PORT_TARGET (p : Nat) : Reg := ⟨0xf001000100 + p * 0x4, 32, if p = 0 then 512 else if p < 10 then 2048 else if p < 12 then 8192 else 16384⟩
/-- MEM.CH_CTRL, 32 bits (14_memory_and_integrity.md, R357). -/
def MEM_CH_CTRL (i : Nat) : Reg := ⟨0xf001010000 + i * 0x100, 32, 0x0⟩
/-- MEM.CH_STATUS, 32 bits (14_memory_and_integrity.md, R357). -/
def MEM_CH_STATUS (i : Nat) : Reg := ⟨0xf001010004 + i * 0x100, 32, 0x0⟩
/-- MEM.CH_ERR_ADDR, 64 bits (14_memory_and_integrity.md, R357). -/
def MEM_CH_ERR_ADDR (i : Nat) : Reg := ⟨0xf001010008 + i * 0x100, 64, 0x0⟩
/-- MEM.CH_CNT, 32 bits (14_memory_and_integrity.md, R357). -/
def MEM_CH_CNT (i k : Nat) : Reg := ⟨0xf001010010 + i * 0x100 + k * 0x4, 32, 0x0⟩
/-- ECC.SPILL_CHK, 64 bits (14_memory_and_integrity.md, R357). -/
def ECC_SPILL_CHK : Reg := ⟨0xf001100000, 64, 0x0⟩
/-- ECC.EVENTS, 32 bits (14_memory_and_integrity.md, R357). -/
def ECC_EVENTS : Reg := ⟨0xf001100008, 32, 0x0⟩
/-- ECC.CE_THRESH, 32 bits (14_memory_and_integrity.md, R357). -/
def ECC_CE_THRESH : Reg := ⟨0xf00110000c, 32, 0x400⟩
/-- ECC.CNT, 32 bits (14_memory_and_integrity.md, R357). -/
def ECC_CNT (i : Nat) : Reg := ⟨0xf001100010 + i * 0x4, 32, 0x0⟩
/-- ECC.LAST_UE, 64 bits (14_memory_and_integrity.md, R357). -/
def ECC_LAST_UE : Reg := ⟨0xf001100040, 64, 0x0⟩
/-- ECC.DIAG_CTRL, 32 bits (14_memory_and_integrity.md, R357). -/
def ECC_DIAG_CTRL : Reg := ⟨0xf001100048, 32, 0x0⟩
/-- ECC.DIAG_RAW, 32 bits (14_memory_and_integrity.md, R357). -/
def ECC_DIAG_RAW : Reg := ⟨0xf001100050, 32, 0x0⟩
/-- ECC.ONCHIP_SCRUB, 32 bits (14_memory_and_integrity.md, R357). -/
def ECC_ONCHIP_SCRUB : Reg := ⟨0xf001100058, 32, 0x80000400⟩
/-- FUSE.REPAIR, 32 bits (14_memory_and_integrity.md, R357). -/
def FUSE_REPAIR (e : Nat) : Reg := ⟨0xf000101000 + e * 0x4, 32, 0x0⟩
/-- FUSE.REPAIR_PROG, 64 bits (14_memory_and_integrity.md, R357). -/
def FUSE_REPAIR_PROG : Reg := ⟨0xf000101100, 64, 0x0⟩
/-- FUSE.REPAIR_STATUS, 32 bits (14_memory_and_integrity.md, R357). -/
def FUSE_REPAIR_STATUS : Reg := ⟨0xf000101108, 32, 0x0⟩
/-- WELT.PARK, 32 bits (15_welt_dma_and_qos.md, R385). -/
def WELT_PARK : Reg := ⟨0xf000f00000, 32, 0x0⟩
/-- WELT.TIMEOUT, 32 bits (15_welt_dma_and_qos.md, R385). -/
def WELT_TIMEOUT : Reg := ⟨0xf000f00004, 32, 0x4000000⟩
/-- WELT.EVENTS, 32 bits (15_welt_dma_and_qos.md, R385). -/
def WELT_EVENTS : Reg := ⟨0xf000f00008, 32, 0x0⟩
/-- WELT.ERR_INFO, 32 bits (15_welt_dma_and_qos.md, R385). -/
def WELT_ERR_INFO : Reg := ⟨0xf000f00010, 32, 0x0⟩
/-- WELT.ERR_ADDR, 64 bits (15_welt_dma_and_qos.md, R385). -/
def WELT_ERR_ADDR : Reg := ⟨0xf000f00018, 64, 0x0⟩
/-- WELT.CNT, 32 bits (15_welt_dma_and_qos.md, R385). -/
def WELT_CNT (i : Nat) : Reg := ⟨0xf000f00020 + i * 0x4, 32, 0x0⟩
/-- WELT.IND_MAX, 32 bits (15_welt_dma_and_qos.md, R385). -/
def WELT_IND_MAX : Reg := ⟨0xf000f00040, 32, 0x0⟩
/-- WELT.IND_OVER_CNT, 32 bits (15_welt_dma_and_qos.md, R385). -/
def WELT_IND_OVER_CNT : Reg := ⟨0xf000f00044, 32, 0x0⟩
/-- WELT.IND_DROP_CNT, 32 bits (15_welt_dma_and_qos.md, R385). -/
def WELT_IND_DROP_CNT : Reg := ⟨0xf000f00048, 32, 0x0⟩
/-- WELT.M_STATUS, 32 bits (15_welt_dma_and_qos.md, R385). -/
def WELT_M_STATUS (m : Nat) : Reg := ⟨0xf000f00080 + m * 0x4, 32, 0x0⟩
/-- DMA.EVENTS, 64 bits (15_welt_dma_and_qos.md, R385). -/
def DMA_EVENTS : Reg := ⟨0xf000e00000, 64, 0x0⟩
/-- DMA.DONE, 64 bits (15_welt_dma_and_qos.md, R385). -/
def DMA_DONE : Reg := ⟨0xf000e00008, 64, 0x0⟩
/-- DMA.IRQ_EN, 64 bits (15_welt_dma_and_qos.md, R385). -/
def DMA_IRQ_EN : Reg := ⟨0xf000e00010, 64, 0x0⟩
/-- DMA.CH_CFG, 32 bits (15_welt_dma_and_qos.md, R385). -/
def DMA_CH_CFG (c : Nat) : Reg := ⟨0xf000e10000 + c * 0x40, 32, 0x0⟩
/-- DMA.CH_RING, 64 bits (15_welt_dma_and_qos.md, R385). -/
def DMA_CH_RING (c : Nat) : Reg := ⟨0xf000e10008 + c * 0x40, 64, 0x0⟩
/-- DMA.CH_CTRL, 32 bits (15_welt_dma_and_qos.md, R385). -/
def DMA_CH_CTRL (c : Nat) : Reg := ⟨0xf000e10010 + c * 0x40, 32, 0x0⟩
/-- DMA.CH_STATUS, 32 bits (15_welt_dma_and_qos.md, R385). -/
def DMA_CH_STATUS (c : Nat) : Reg := ⟨0xf000e10014 + c * 0x40, 32, 0x0⟩
/-- DMA.CH_REMAIN, 32 bits (15_welt_dma_and_qos.md, R385). -/
def DMA_CH_REMAIN (c : Nat) : Reg := ⟨0xf000e10018 + c * 0x40, 32, 0x0⟩
/-- DMA.CH_ELEM, 32 bits (15_welt_dma_and_qos.md, R385). -/
def DMA_CH_ELEM (c : Nat) : Reg := ⟨0xf000e1001c + c * 0x40, 32, 0x0⟩
/-- DMA.CH_BYTES, 64 bits (15_welt_dma_and_qos.md, R385). -/
def DMA_CH_BYTES (c : Nat) : Reg := ⟨0xf000e10020 + c * 0x40, 64, 0x0⟩
/-- TIM.CTRL, 32 bits (16_timing_unit.md, R412). -/
def TIM_CTRL : Reg := ⟨0xf000400000, 32, 0x70⟩
/-- TIM.STATUS, 32 bits (16_timing_unit.md, R412). -/
def TIM_STATUS : Reg := ⟨0xf000400004, 32, 0xfff0⟩
/-- TIM.HISTORY, 32 bits (16_timing_unit.md, R412). -/
def TIM_HISTORY : Reg := ⟨0xf000400008, 32, 0x0⟩
/-- TIM.SEL_CFG, 32 bits (16_timing_unit.md, R412). -/
def TIM_SEL_CFG : Reg := ⟨0xf00040000c, 32, 0xa403c⟩
/-- TIM.ARB_CFG, 32 bits (16_timing_unit.md, R412). -/
def TIM_ARB_CFG : Reg := ⟨0xf000400010, 32, 0x2710812c⟩
/-- TIM.QTX, 32 bits (16_timing_unit.md, R412). -/
def TIM_QTX : Reg := ⟨0xf000400014, 32, 0xfc⟩
/-- TIM.LREF, 32 bits (16_timing_unit.md, R412). -/
def TIM_LREF : Reg := ⟨0xf000400018, 32, 0x0⟩
/-- TIM.PTP_REF, 32 bits (16_timing_unit.md, R412). -/
def TIM_PTP_REF : Reg := ⟨0xf00040001c, 32, 0x80f⟩
/-- TIM.TIME_LOAD_SEC, 64 bits (16_timing_unit.md, R412). -/
def TIM_TIME_LOAD_SEC : Reg := ⟨0xf000400020, 64, 0x0⟩
/-- TIM.TIME_LOAD_NS, 32 bits (16_timing_unit.md, R412). -/
def TIM_TIME_LOAD_NS : Reg := ⟨0xf000400028, 32, 0x0⟩
/-- TIM.PPS_OUT, 32 bits (16_timing_unit.md, R412). -/
def TIM_PPS_OUT : Reg := ⟨0xf00040002c, 32, 0xc00186a0⟩
/-- TIM.SNAP_SEC, 64 bits (16_timing_unit.md, R412). -/
def TIM_SNAP_SEC : Reg := ⟨0xf000400030, 64, 0x0⟩
/-- TIM.SNAP_NSF, 64 bits (16_timing_unit.md, R412). -/
def TIM_SNAP_NSF : Reg := ⟨0xf000400038, 64, 0x0⟩
/-- TIM.INCREMENT, 64 bits (16_timing_unit.md, R412). -/
def TIM_INCREMENT : Reg := ⟨0xf000400040, 64, 0x2000000000000⟩
/-- TIM.HOLD_EST, 64 bits (16_timing_unit.md, R412). -/
def TIM_HOLD_EST : Reg := ⟨0xf000400048, 64, 0x2000000000000⟩
/-- TIM.PHASE_STEP, 32 bits (16_timing_unit.md, R412). -/
def TIM_PHASE_STEP : Reg := ⟨0xf000400050, 32, 0x0⟩
/-- TIM.PHASE_PEND, 64 bits (16_timing_unit.md, R412). -/
def TIM_PHASE_PEND : Reg := ⟨0xf000400058, 64, 0x0⟩
/-- TIM.REF_CFG, 64 bits (16_timing_unit.md, R412). -/
def TIM_REF_CFG (i : Nat) : Reg := ⟨0xf000400100 + i * 0x10, 64, 0x0⟩
/-- TIM.REF_STATUS, 32 bits (16_timing_unit.md, R412). -/
def TIM_REF_STATUS (i : Nat) : Reg := ⟨0xf000400108 + i * 0x10, 32, 0xf2⟩
/-- TIM.REF_FREQ, 32 bits (16_timing_unit.md, R412). -/
def TIM_REF_FREQ (i : Nat) : Reg := ⟨0xf00040010c + i * 0x10, 32, 0x0⟩
/-- TIM.FO_CFG, 32 bits (16_timing_unit.md, R412). -/
def TIM_FO_CFG (k : Nat) : Reg := ⟨0xf000400200 + k * 0x10, 32, 0x3e800⟩
/-- TIM.FO_OFFSET, 32 bits (16_timing_unit.md, R412). -/
def TIM_FO_OFFSET (k : Nat) : Reg := ⟨0xf000400204 + k * 0x10, 32, 0x0⟩
/-- TIM.FO_PERIOD, 64 bits (16_timing_unit.md, R412). -/
def TIM_FO_PERIOD (k : Nat) : Reg := ⟨0xf000400208 + k * 0x10, 64, 0x0⟩
/-- PTP.STATUS, 32 bits (16_timing_unit.md, R412). -/
def PTP_STATUS : Reg := ⟨0xf000500000, 32, 0x0⟩
/-- PTP.TS_POP, 64 bits (16_timing_unit.md, R412). -/
def PTP_TS_POP : Reg := ⟨0xf000500008, 64, 0x0⟩
/-- PTP.TS_SEC, 64 bits (16_timing_unit.md, R412). -/
def PTP_TS_SEC : Reg := ⟨0xf000500010, 64, 0x0⟩
/-- PTP.TS_NSF, 64 bits (16_timing_unit.md, R412). -/
def PTP_TS_NSF : Reg := ⟨0xf000500018, 64, 0x0⟩
/-- PTP.TS_CSEC, 64 bits (16_timing_unit.md, R412). -/
def PTP_TS_CSEC : Reg := ⟨0xf000500020, 64, 0x0⟩
/-- PTP.TS_CNSF, 64 bits (16_timing_unit.md, R412). -/
def PTP_TS_CNSF : Reg := ⟨0xf000500028, 64, 0x0⟩
/-- PTP.LANE_TX, 64 bits (16_timing_unit.md, R412). -/
def PTP_LANE_TX : Reg := ⟨0xf000500030, 64, 0x0⟩
/-- PTP.PORT_CFG, 64 bits (16_timing_unit.md, R412). -/
def PTP_PORT_CFG (p : Nat) : Reg := ⟨0xf000501000 + p * 0x10, 64, 0x0⟩
/-- PTP.PORT_LAT, 64 bits (16_timing_unit.md, R412). -/
def PTP_PORT_LAT (p : Nat) : Reg := ⟨0xf000501008 + p * 0x10, 64, 0x0⟩
/-- INTC.PRIO, 32 bits (17_application_cores_boot_management.md, R422). -/
def INTC_PRIO (s : Nat) : Reg := ⟨0xf004000000 + s * 0x4, 32, 0x0⟩
/-- INTC.PENDING, 32 bits (17_application_cores_boot_management.md, R422). -/
def INTC_PENDING (w : Nat) : Reg := ⟨0xf004001000 + w * 0x4, 32, 0x0⟩
/-- INTC.ENABLE, 32 bits (17_application_cores_boot_management.md, R422). -/
def INTC_ENABLE (c w : Nat) : Reg := ⟨0xf004002000 + c * 0x80 + w * 0x4, 32, 0x0⟩
/-- INTC.THRESHOLD, 32 bits (17_application_cores_boot_management.md, R422). -/
def INTC_THRESHOLD (c : Nat) : Reg := ⟨0xf004200000 + c * 0x1000, 32, 0x0⟩
/-- INTC.CLAIM, 32 bits (17_application_cores_boot_management.md, R422). -/
def INTC_CLAIM (c : Nat) : Reg := ⟨0xf004200004 + c * 0x1000, 32, 0x0⟩
/-- INTC.COMPLETE, 32 bits (17_application_cores_boot_management.md, R422). -/
def INTC_COMPLETE (c : Nat) : Reg := ⟨0xf004200004 + c * 0x1000, 32, 0x0⟩
/-- HTIM.TIME, 64 bits (17_application_cores_boot_management.md, R423). -/
def HTIM_TIME : Reg := ⟨0xf000700000, 64, 0x0⟩
/-- HTIM.CMP, 64 bits (17_application_cores_boot_management.md, R423). -/
def HTIM_CMP (h : Nat) : Reg := ⟨0xf000700100 + h * 0x10, 64, 0xffffffffffffffff⟩
/-- HTIM.SWI, 32 bits (17_application_cores_boot_management.md, R423). -/
def HTIM_SWI (h : Nat) : Reg := ⟨0xf000700108 + h * 0x10, 32, 0x0⟩
/-- DEV.CORE_CTRL, 32 bits (17_application_cores_boot_management.md, R433). -/
def DEV_CORE_CTRL : Reg := ⟨0xf000000200, 32, 0xfe⟩
/-- DEV.CORE_RVEC, 64 bits (17_application_cores_boot_management.md, R433). -/
def DEV_CORE_RVEC : Reg := ⟨0xf000000208, 64, 0xf000080000⟩
/-- DEV.BOOT, 32 bits (17_application_cores_boot_management.md, R433). -/
def DEV_BOOT : Reg := ⟨0xf000000210, 32, 0x0⟩
/-- DEV.L2_CTRL, 32 bits (17_application_cores_boot_management.md, R433). -/
def DEV_L2_CTRL : Reg := ⟨0xf000000218, 32, 0x1⟩
/-- DEV.QSPI_CTRL, 64 bits (17_application_cores_boot_management.md, R433). -/
def DEV_QSPI_CTRL : Reg := ⟨0xf000000220, 64, 0x0⟩
/-- DEV.QSPI_DATA, 64 bits (17_application_cores_boot_management.md, R433). -/
def DEV_QSPI_DATA : Reg := ⟨0xf000000228, 64, 0x0⟩
/-- FUSE.BOOT_KEY, 64 bits (17_application_cores_boot_management.md, R433). -/
def FUSE_BOOT_KEY (k i : Nat) : Reg := ⟨0xf000100400 + k * 0x40 + i * 0x8, 64, 0x0⟩
/-- FUSE.BOOT_CFG, 32 bits (17_application_cores_boot_management.md, R433). -/
def FUSE_BOOT_CFG : Reg := ⟨0xf000100500, 32, 0x0⟩
/-- MGMT.CFG, 32 bits (17_application_cores_boot_management.md, R433). -/
def MGMT_CFG : Reg := ⟨0xf000600000, 32, 0xa0⟩
/-- MGMT.STATUS, 32 bits (17_application_cores_boot_management.md, R433). -/
def MGMT_STATUS : Reg := ⟨0xf000600004, 32, 0x0⟩
/-- MGMT.MAC_ADDR, 64 bits (17_application_cores_boot_management.md, R433). -/
def MGMT_MAC_ADDR : Reg := ⟨0xf000600008, 64, 0x0⟩
/-- MGMT.RING, 64 bits (17_application_cores_boot_management.md, R433). -/
def MGMT_RING (r : Nat) : Reg := ⟨0xf000600010 + r * 0x8, 64, 0x0⟩
/-- MGMT.PTR, 32 bits (17_application_cores_boot_management.md, R433). -/
def MGMT_PTR (r : Nat) : Reg := ⟨0xf000600020 + r * 0x4, 32, 0x0⟩
/-- MGMT.MDIO, 32 bits (17_application_cores_boot_management.md, R433). -/
def MGMT_MDIO : Reg := ⟨0xf000600028, 32, 0x0⟩
/-- MGMT.CNT, 32 bits (17_application_cores_boot_management.md, R433). -/
def MGMT_CNT (i : Nat) : Reg := ⟨0xf000600040 + i * 0x4, 32, 0x0⟩
/-- SMU.STATUS, 32 bits (18_sealed_measurement_unit.md, R452). -/
def SMU_STATUS : Reg := ⟨0xf001500000, 32, 0x0⟩
/-- SMU.EVENTS, 32 bits (18_sealed_measurement_unit.md, R452). -/
def SMU_EVENTS : Reg := ⟨0xf001500004, 32, 0x0⟩
/-- SMU.CMD, 64 bits (18_sealed_measurement_unit.md, R452). -/
def SMU_CMD : Reg := ⟨0xf001500008, 64, 0x0⟩
/-- SMU.CFG, 64 bits (18_sealed_measurement_unit.md, R452). -/
def SMU_CFG : Reg := ⟨0xf001500010, 64, 0x6400000000⟩
/-- SMU.TIME_CFG, 64 bits (18_sealed_measurement_unit.md, R452). -/
def SMU_TIME_CFG : Reg := ⟨0xf001500018, 64, 0x2faf08000201f4⟩
/-- SMU.REC_HEAD, 64 bits (18_sealed_measurement_unit.md, R452). -/
def SMU_REC_HEAD : Reg := ⟨0xf001500020, 64, 0x0⟩
/-- SMU.REC_TAIL, 64 bits (18_sealed_measurement_unit.md, R452). -/
def SMU_REC_TAIL : Reg := ⟨0xf001500028, 64, 0x0⟩
/-- SMU.KEY_ID, 64 bits (18_sealed_measurement_unit.md, R452). -/
def SMU_KEY_ID : Reg := ⟨0xf001500030, 64, 0x0⟩
/-- SMU.BOOT, 32 bits (18_sealed_measurement_unit.md, R452). -/
def SMU_BOOT : Reg := ⟨0xf001500038, 32, 0x0⟩
/-- SMU.FW_ID, 32 bits (18_sealed_measurement_unit.md, R452). -/
def SMU_FW_ID : Reg := ⟨0xf00150003c, 32, 0x0⟩
/-- SMU.CFG_HASH, 64 bits (18_sealed_measurement_unit.md, R452). -/
def SMU_CFG_HASH (i : Nat) : Reg := ⟨0xf001500040 + i * 0x8, 64, 0x0⟩
/-- SMU.CNT, 32 bits (18_sealed_measurement_unit.md, R452). -/
def SMU_CNT (i : Nat) : Reg := ⟨0xf001500080 + i * 0x4, 32, 0x0⟩
/-- SMU.OCC, 64 bits (18_sealed_measurement_unit.md, R452). -/
def SMU_OCC (k : Nat) : Reg := ⟨0xf001500100 + k * 0x8, 64, 0x0⟩
/-- SMU.SEL, 32 bits (18_sealed_measurement_unit.md, R452). -/
def SMU_SEL (w : Nat) : Reg := ⟨0xf001501000 + w * 0x4, 32, 0x0⟩
/-- SMU.THR, 32 bits (18_sealed_measurement_unit.md, R452). -/
def SMU_THR (w : Nat) : Reg := ⟨0xf001502000 + w * 0x4, 32, 0xffffffff⟩
/-- SMU.NOTE, 32 bits (18_sealed_measurement_unit.md, R452). -/
def SMU_NOTE : Reg := ⟨0xf00150f000, 32, 0x0⟩
/-- MON.CFG, 32 bits (19_monitor_port_and_housekeeping.md, R472). -/
def MON_CFG (n : Nat) : Reg := ⟨0xf001400000 + n * 0x100, 32, 0x40000000⟩
/-- MON.SRC, 32 bits (19_monitor_port_and_housekeeping.md, R472). -/
def MON_SRC (n : Nat) : Reg := ⟨0xf001400004 + n * 0x100, 32, 0x0⟩
/-- MON.NCO, 32 bits (19_monitor_port_and_housekeeping.md, R472). -/
def MON_NCO (n : Nat) : Reg := ⟨0xf001400008 + n * 0x100, 32, 0x0⟩
/-- MON.RATIO, 64 bits (19_monitor_port_and_housekeeping.md, R472). -/
def MON_RATIO (n : Nat) : Reg := ⟨0xf001400010 + n * 0x100, 64, 0x100000000⟩
/-- MON.CTRL, 32 bits (19_monitor_port_and_housekeeping.md, R472). -/
def MON_CTRL (n : Nat) : Reg := ⟨0xf001400018 + n * 0x100, 32, 0x0⟩
/-- MON.STATUS, 32 bits (19_monitor_port_and_housekeeping.md, R472). -/
def MON_STATUS (n : Nat) : Reg := ⟨0xf00140001c + n * 0x100, 32, 0x0⟩
/-- MON.EVENTS, 32 bits (19_monitor_port_and_housekeeping.md, R472). -/
def MON_EVENTS (n : Nat) : Reg := ⟨0xf001400020 + n * 0x100, 32, 0x0⟩
/-- MON.CNT, 32 bits (19_monitor_port_and_housekeeping.md, R472). -/
def MON_CNT (n i : Nat) : Reg := ⟨0xf001400024 + n * 0x100 + i * 0x4, 32, 0x0⟩
/-- MON.CS, 32 bits (19_monitor_port_and_housekeeping.md, R472). -/
def MON_CS (n w : Nat) : Reg := ⟨0xf001400040 + n * 0x100 + w * 0x4, 32, if w = 0 then 1 else 0⟩
/-- MON.IN_STATUS, 32 bits (19_monitor_port_and_housekeeping.md, R472). -/
def MON_IN_STATUS : Reg := ⟨0xf001400800, 32, 0x0⟩
/-- HK.CFG, 32 bits (19_monitor_port_and_housekeeping.md, R472). -/
def HK_CFG : Reg := ⟨0xf000300000, 32, 0x80000019⟩
/-- HK.SEQ_EN, 32 bits (19_monitor_port_and_housekeeping.md, R472). -/
def HK_SEQ_EN : Reg := ⟨0xf000300004, 32, 0xffff⟩
/-- HK.STATUS, 32 bits (19_monitor_port_and_housekeeping.md, R472). -/
def HK_STATUS : Reg := ⟨0xf000300008, 32, 0x0⟩
/-- HK.URGENT, 32 bits (19_monitor_port_and_housekeeping.md, R472). -/
def HK_URGENT : Reg := ⟨0xf00030000c, 32, 0x0⟩
/-- HK.URGENT_RESULT, 32 bits (19_monitor_port_and_housekeeping.md, R472). -/
def HK_URGENT_RESULT : Reg := ⟨0xf000300010, 32, 0x0⟩
/-- HK.RESULT, 32 bits (19_monitor_port_and_housekeeping.md, R472). -/
def HK_RESULT (i : Nat) : Reg := ⟨0xf000300100 + i * 0x4, 32, 0x0⟩
/-- EVR.EVENTS, 32 bits (20_events_faults_failover.md, R496). -/
def EVR_EVENTS : Reg := ⟨0xf000200000, 32, 0x0⟩
/-- EVR.POWER_CYCLES, 32 bits (20_events_faults_failover.md, R496). -/
def EVR_POWER_CYCLES : Reg := ⟨0xf000200008, 32, 0x0⟩
/-- EVR.OP_TIME, 64 bits (20_events_faults_failover.md, R496). -/
def EVR_OP_TIME : Reg := ⟨0xf000200010, 64, 0x0⟩
/-- EVR.HEAD, 32 bits (20_events_faults_failover.md, R496). -/
def EVR_HEAD : Reg := ⟨0xf000200018, 32, 0x0⟩
/-- EVR.OLDEST, 32 bits (20_events_faults_failover.md, R496). -/
def EVR_OLDEST : Reg := ⟨0xf00020001c, 32, 0x0⟩
/-- EVR.ONCE_NEXT, 32 bits (20_events_faults_failover.md, R496). -/
def EVR_ONCE_NEXT : Reg := ⟨0xf000200020, 32, 0x0⟩
/-- EVR.LOST_CNT, 32 bits (20_events_faults_failover.md, R496). -/
def EVR_LOST_CNT : Reg := ⟨0xf000200024, 32, 0x0⟩
/-- EVR.APPEND, 64 bits (20_events_faults_failover.md, R496). -/
def EVR_APPEND : Reg := ⟨0xf000200028, 64, 0x0⟩
/-- EVR.WIN_SEL, 32 bits (20_events_faults_failover.md, R496). -/
def EVR_WIN_SEL : Reg := ⟨0xf000200030, 32, 0x0⟩
/-- EVR.SW_BUF, 64 bits (20_events_faults_failover.md, R496). -/
def EVR_SW_BUF (i : Nat) : Reg := ⟨0xf000201000 + i * 0x8, 64, 0x0⟩
/-- EVR.STORE, 64 bits (20_events_faults_failover.md, R496). -/
def EVR_STORE (w : Nat) : Reg := ⟨0xf000280000 + w * 0x8, 64, 0x0⟩
/-- EGR.LINK_FAIL, 32 bits (20_events_faults_failover.md, R496). -/
def EGR_LINK_FAIL : Reg := ⟨0xf000d00020, 32, 0x0⟩
/-- FO.CFG, 64 bits (20_events_faults_failover.md, R496). -/
def FO_CFG : Reg := ⟨0xf001600000, 64, 0x0⟩
/-- FO.STATUS, 32 bits (20_events_faults_failover.md, R496). -/
def FO_STATUS : Reg := ⟨0xf001600008, 32, 0x0⟩
/-- FO.EVENTS, 32 bits (20_events_faults_failover.md, R496). -/
def FO_EVENTS : Reg := ⟨0xf00160000c, 32, 0x0⟩
/-- FO.LAST, 64 bits (20_events_faults_failover.md, R496). -/
def FO_LAST : Reg := ⟨0xf001600010, 64, 0x0⟩
/-- FO.LAST_NEXT, 32 bits (20_events_faults_failover.md, R496). -/
def FO_LAST_NEXT : Reg := ⟨0xf001600018, 32, 0x0⟩
/-- FO.SUPP_CNT, 32 bits (20_events_faults_failover.md, R496). -/
def FO_SUPP_CNT : Reg := ⟨0xf001600020, 32, 0x0⟩
/-- FO.WIN_LO, 64 bits (20_events_faults_failover.md, R496). -/
def FO_WIN_LO (w : Nat) : Reg := ⟨0xf001600030 + w * 0x10, 64, 0x0⟩
/-- FO.WIN_HI, 64 bits (20_events_faults_failover.md, R496). -/
def FO_WIN_HI (w : Nat) : Reg := ⟨0xf001600038 + w * 0x10, 64, 0x0⟩
/-- DEV.STATUS, 32 bits (21_register_index.md, R502). -/
def DEV_STATUS : Reg := ⟨0xf000000004, 32, 0x0⟩
/-- FUSE.PART_CODE, 32 bits (21_register_index.md, R503). -/
def FUSE_PART_CODE : Reg := ⟨0xf000100000, 32, 0x0⟩
end R

namespace F
def DEV_ISL_RESET_EGRESS : RF := ⟨R.DEV_ISL_RESET, 9, 9⟩
def DEV_ISL_RESET_INGEST : RF := ⟨R.DEV_ISL_RESET, 8, 8⟩
def DEV_ISL_RESET_ISL : RF := ⟨R.DEV_ISL_RESET, 7, 0⟩
def DEV_ID_PART : RF := ⟨R.DEV_ID, 31, 16⟩
def DEV_ID_VENDOR : RF := ⟨R.DEV_ID, 15, 8⟩
def DEV_ID_REV_MAJOR : RF := ⟨R.DEV_ID, 7, 4⟩
def DEV_ID_REV_MINOR : RF := ⟨R.DEV_ID, 3, 0⟩
def ISL_FRAME_NO_FRAME_NO (n : Nat) : RF := ⟨R.ISL_FRAME_NO n, 47, 0⟩
def ING_FRAME_HEAD_HEAD : RF := ⟨R.ING_FRAME_HEAD, 47, 0⟩
def ING_FRAME_TAIL_TAIL : RF := ⟨R.ING_FRAME_TAIL, 47, 0⟩
def ING_AG_EPOCH_SC_EPOCH_SC (g : Nat) : RF := ⟨R.ING_AG_EPOCH_SC g, 63, 0⟩
def ING_AG_CFG_MEMBERS (g : Nat) : RF := ⟨R.ING_AG_CFG g, 30, 17⟩
def ING_AG_CFG_WINDOW (g : Nat) : RF := ⟨R.ING_AG_CFG g, 16, 0⟩
def ING_AG_MAP_SC_SC_REF (g : Nat) : RF := ⟨R.ING_AG_MAP_SC g, 63, 0⟩
def ING_AG_MAP_SEC_T_SEC (g : Nat) : RF := ⟨R.ING_AG_MAP_SEC g, 47, 0⟩
def ING_AG_MAP_NS_T_NS (g : Nat) : RF := ⟨R.ING_AG_MAP_NS g, 63, 32⟩
def ING_AG_MAP_NS_T_FRAC (g : Nat) : RF := ⟨R.ING_AG_MAP_NS g, 31, 0⟩
def ING_AG_PERIOD_PERIOD (g : Nat) : RF := ⟨R.ING_AG_PERIOD g, 63, 0⟩
def ING_AG_COMMIT_ARM (g : Nat) : RF := ⟨R.ING_AG_COMMIT g, 0, 0⟩
def ING_AG_STATUS_OUT_STREAMS (g : Nat) : RF := ⟨R.ING_AG_STATUS g, 29, 16⟩
def ING_AG_STATUS_DISCARD (g : Nat) : RF := ⟨R.ING_AG_STATUS g, 1, 1⟩
def ING_AG_STATUS_UNDERRUN (g : Nat) : RF := ⟨R.ING_AG_STATUS g, 0, 0⟩
def ING_AG_UNDERRUN_CNT_COUNT (g : Nat) : RF := ⟨R.ING_AG_UNDERRUN_CNT g, 31, 0⟩
def ING_AG_DISCARD_CNT_COUNT (g : Nat) : RF := ⟨R.ING_AG_DISCARD_CNT g, 31, 0⟩
def LANE_CFG_GROUP (n : Nat) : RF := ⟨R.LANE_CFG n, 12, 8⟩
def LANE_CFG_RX_INV (n : Nat) : RF := ⟨R.LANE_CFG n, 5, 5⟩
def LANE_CFG_TX_INV (n : Nat) : RF := ⟨R.LANE_CFG n, 4, 4⟩
def LANE_CFG_RATE (n : Nat) : RF := ⟨R.LANE_CFG n, 3, 2⟩
def LANE_CFG_ROLE (n : Nat) : RF := ⟨R.LANE_CFG n, 1, 0⟩
def LANE_CTRL_IRQ_EN (n : Nat) : RF := ⟨R.LANE_CTRL n, 23, 16⟩
def LANE_CTRL_AUTO_WAKE (n : Nat) : RF := ⟨R.LANE_CTRL n, 3, 3⟩
def LANE_CTRL_IDLE_REQ (n : Nat) : RF := ⟨R.LANE_CTRL n, 2, 2⟩
def LANE_CTRL_DISABLE (n : Nat) : RF := ⟨R.LANE_CTRL n, 1, 1⟩
def LANE_CTRL_TRAIN (n : Nat) : RF := ⟨R.LANE_CTRL n, 0, 0⟩
def LANE_STATE_SIGNAL (n : Nat) : RF := ⟨R.LANE_STATE n, 8, 8⟩
def LANE_STATE_PLL_LOCK (n : Nat) : RF := ⟨R.LANE_STATE n, 7, 7⟩
def LANE_STATE_PARTNER_READY (n : Nat) : RF := ⟨R.LANE_STATE n, 6, 6⟩
def LANE_STATE_TX_IDLE (n : Nat) : RF := ⟨R.LANE_STATE n, 5, 5⟩
def LANE_STATE_RX_LOCK (n : Nat) : RF := ⟨R.LANE_STATE n, 4, 4⟩
def LANE_STATE_STATE (n : Nat) : RF := ⟨R.LANE_STATE n, 2, 0⟩
def LANE_EVENTS_UP (n : Nat) : RF := ⟨R.LANE_EVENTS n, 7, 7⟩
def LANE_EVENTS_PRBS_UNLOCK (n : Nat) : RF := ⟨R.LANE_EVENTS n, 6, 6⟩
def LANE_EVENTS_PRBS_REFUSED (n : Nat) : RF := ⟨R.LANE_EVENTS n, 5, 5⟩
def LANE_EVENTS_PLL_LOST (n : Nat) : RF := ⟨R.LANE_EVENTS n, 4, 4⟩
def LANE_EVENTS_SLOW_WAKE (n : Nat) : RF := ⟨R.LANE_EVENTS n, 3, 3⟩
def LANE_EVENTS_AUTO_RETRAIN (n : Nat) : RF := ⟨R.LANE_EVENTS n, 2, 2⟩
def LANE_EVENTS_LOCK_LOST (n : Nat) : RF := ⟨R.LANE_EVENTS n, 1, 1⟩
def LANE_EVENTS_TRAIN_FAIL (n : Nat) : RF := ⟨R.LANE_EVENTS n, 0, 0⟩
def LANE_TX_EQ_POST (n : Nat) : RF := ⟨R.LANE_TX_EQ n, 29, 24⟩
def LANE_TX_EQ_MAIN (n : Nat) : RF := ⟨R.LANE_TX_EQ n, 21, 16⟩
def LANE_TX_EQ_PRE (n : Nat) : RF := ⟨R.LANE_TX_EQ n, 13, 8⟩
def LANE_TX_EQ_INIT_PRESET (n : Nat) : RF := ⟨R.LANE_TX_EQ n, 2, 0⟩
def LANE_RX_EQ_CTLE (n : Nat) : RF := ⟨R.LANE_RX_EQ n, 27, 24⟩
def LANE_RX_EQ_DFE4 (n : Nat) : RF := ⟨R.LANE_RX_EQ n, 23, 18⟩
def LANE_RX_EQ_DFE3 (n : Nat) : RF := ⟨R.LANE_RX_EQ n, 17, 12⟩
def LANE_RX_EQ_DFE2 (n : Nat) : RF := ⟨R.LANE_RX_EQ n, 11, 6⟩
def LANE_RX_EQ_DFE1 (n : Nat) : RF := ⟨R.LANE_RX_EQ n, 5, 0⟩
def LANE_TRN_RESULT (n : Nat) : RF := ⟨R.LANE_TRN n, 31, 28⟩
def LANE_TRN_DURATION (n : Nat) : RF := ⟨R.LANE_TRN n, 27, 16⟩
def LANE_TRN_ERR_LIMIT (n : Nat) : RF := ⟨R.LANE_TRN n, 15, 0⟩
def LANE_HDR_ERR_CNT_COUNT (n : Nat) : RF := ⟨R.LANE_HDR_ERR_CNT n, 31, 0⟩
def LANE_LINK_CNT_LOCK_LOSS (n : Nat) : RF := ⟨R.LANE_LINK_CNT n, 31, 16⟩
def LANE_LINK_CNT_TRAIN_FAIL (n : Nat) : RF := ⟨R.LANE_LINK_CNT n, 15, 0⟩
def LANE_PRBS_CTRL_CHK_LOCK (n : Nat) : RF := ⟨R.LANE_PRBS_CTRL n, 8, 8⟩
def LANE_PRBS_CTRL_CLEAR (n : Nat) : RF := ⟨R.LANE_PRBS_CTRL n, 7, 7⟩
def LANE_PRBS_CTRL_SNAP (n : Nat) : RF := ⟨R.LANE_PRBS_CTRL n, 6, 6⟩
def LANE_PRBS_CTRL_INJECT (n : Nat) : RF := ⟨R.LANE_PRBS_CTRL n, 5, 5⟩
def LANE_PRBS_CTRL_INVERT (n : Nat) : RF := ⟨R.LANE_PRBS_CTRL n, 4, 4⟩
def LANE_PRBS_CTRL_POLY (n : Nat) : RF := ⟨R.LANE_PRBS_CTRL n, 3, 2⟩
def LANE_PRBS_CTRL_CHK_EN (n : Nat) : RF := ⟨R.LANE_PRBS_CTRL n, 1, 1⟩
def LANE_PRBS_CTRL_GEN_EN (n : Nat) : RF := ⟨R.LANE_PRBS_CTRL n, 0, 0⟩
def LANE_PRBS_ERR_ERRORS (n : Nat) : RF := ⟨R.LANE_PRBS_ERR n, 31, 0⟩
def LANE_PRBS_BITS_BITS (n : Nat) : RF := ⟨R.LANE_PRBS_BITS n, 47, 0⟩
def FRM_CNT_COUNT (n i : Nat) : RF := ⟨R.FRM_CNT n i, 31, 0⟩
def ING_CT_CFG_STREAMS : RF := ⟨R.ING_CT_CFG, 45, 32⟩
def ING_CT_CFG_NUM_CH : RF := ⟨R.ING_CT_CFG, 28, 16⟩
def ING_CT_CFG_FMT : RF := ⟨R.ING_CT_CFG, 15, 15⟩
def ING_CT_CFG_DEPTH : RF := ⟨R.ING_CT_CFG, 4, 0⟩
def ING_CT_BASE_BASE : RF := ⟨R.ING_CT_BASE, 39, 12⟩
def ING_CH_BLOCK_COUNT (k : Nat) : RF := ⟨R.ING_CH_BLOCK k, 28, 16⟩
def ING_CH_BLOCK_FIRST (k : Nat) : RF := ⟨R.ING_CH_BLOCK k, 11, 0⟩
def ING_SLOT_COMMIT_AT_FRAME : RF := ⟨R.ING_SLOT_COMMIT, 47, 0⟩
def ING_SLOT_STATUS_APPLIED : RF := ⟨R.ING_SLOT_STATUS, 3, 3⟩
def ING_SLOT_STATUS_REPLACED : RF := ⟨R.ING_SLOT_STATUS, 2, 2⟩
def ING_SLOT_STATUS_LATE : RF := ⟨R.ING_SLOT_STATUS, 1, 1⟩
def ING_SLOT_STATUS_PENDING : RF := ⟨R.ING_SLOT_STATUS, 0, 0⟩
def ING_CT_SKIP_COUNT (k : Nat) : RF := ⟨R.ING_CT_SKIP k, 31, 0⟩
def ING_SLOT_MASK_SH_MASK (ig : Nat) : RF := ⟨R.ING_SLOT_MASK_SH ig, 63, 0⟩
def ING_SLOT_MASK_MASK (ig : Nat) : RF := ⟨R.ING_SLOT_MASK ig, 63, 0⟩
def ING_STREAM_ST_DUPLICATE (s : Nat) : RF := ⟨R.ING_STREAM_ST s, 11, 11⟩
def ING_STREAM_ST_UNDERRUN (s : Nat) : RF := ⟨R.ING_STREAM_ST s, 10, 10⟩
def ING_STREAM_ST_BAD (s : Nat) : RF := ⟨R.ING_STREAM_ST s, 9, 9⟩
def ING_STREAM_ST_REJECTED (s : Nat) : RF := ⟨R.ING_STREAM_ST s, 8, 8⟩
def ING_STREAM_ST_MASKED (s : Nat) : RF := ⟨R.ING_STREAM_ST s, 3, 3⟩
def ING_STREAM_ST_OUT (s : Nat) : RF := ⟨R.ING_STREAM_ST s, 2, 2⟩
def ING_STREAM_ST_ABSENT (s : Nat) : RF := ⟨R.ING_STREAM_ST s, 1, 1⟩
def ING_STREAM_ST_MAPPED (s : Nat) : RF := ⟨R.ING_STREAM_ST s, 0, 0⟩
def ING_SIG_ENTRY_MAPPED (s : Nat) : RF := ⟨R.ING_SIG_ENTRY s, 63, 63⟩
def ING_SIG_ENTRY_LANE (s : Nat) : RF := ⟨R.ING_SIG_ENTRY s, 38, 32⟩
def ING_SIG_ENTRY_AG (s : Nat) : RF := ⟨R.ING_SIG_ENTRY s, 31, 26⟩
def ING_SIG_ENTRY_SLOT (s : Nat) : RF := ⟨R.ING_SIG_ENTRY s, 25, 20⟩
def ING_SIG_ENTRY_IG (s : Nat) : RF := ⟨R.ING_SIG_ENTRY s, 19, 13⟩
def ING_SIG_ENTRY_CT_INDEX (s : Nat) : RF := ⟨R.ING_SIG_ENTRY s, 12, 0⟩
def ISL_STAT_RING_LEN (n j : Nat) : RF := ⟨R.ISL_STAT_RING n j, 31, 16⟩
def ISL_STAT_RING_BASE (n j : Nat) : RF := ⟨R.ISL_STAT_RING n j, 13, 0⟩
def ISL_STAT_WR_COUNT (n j : Nat) : RF := ⟨R.ISL_STAT_WR n j, 31, 0⟩
def ISL_STAT_RD_COUNT (n j : Nat) : RF := ⟨R.ISL_STAT_RD n j, 31, 0⟩
def ISL_STAT_DROP_COUNT (n j : Nat) : RF := ⟨R.ISL_STAT_DROP n j, 31, 0⟩
def ISL_FILL_CFG_UNITS (n : Nat) : RF := ⟨R.ISL_FILL_CFG n, 18, 4⟩
def ISL_FILL_CFG_RUN_AHEAD (n : Nat) : RF := ⟨R.ISL_FILL_CFG n, 2, 0⟩
def ISL_FILL_DISCARD_COUNT (n : Nat) : RF := ⟨R.ISL_FILL_DISCARD n, 31, 0⟩
def PNL_CFG_SLOTS (p : Nat) : RF := ⟨R.PNL_CFG p, 10, 5⟩
def PNL_CFG_PHASE (p : Nat) : RF := ⟨R.PNL_CFG p, 4, 4⟩
def PNL_CFG_GANG (p : Nat) : RF := ⟨R.PNL_CFG p, 3, 3⟩
def PNL_CFG_ACC_FMT (p : Nat) : RF := ⟨R.PNL_CFG p, 2, 2⟩
def PNL_CFG_MODE (p : Nat) : RF := ⟨R.PNL_CFG p, 1, 0⟩
def PNL_STATUS_SWAP_PEND (p : Nat) : RF := ⟨R.PNL_STATUS p, 22, 22⟩
def PNL_STATUS_DRAIN_PEND (p : Nat) : RF := ⟨R.PNL_STATUS p, 21, 21⟩
def PNL_STATUS_RETR_QUEUE (p : Nat) : RF := ⟨R.PNL_STATUS p, 20, 16⟩
def PNL_STATUS_FAULT_CODE (p : Nat) : RF := ⟨R.PNL_STATUS p, 11, 8⟩
def PNL_STATUS_IN_DELAY (p : Nat) : RF := ⟨R.PNL_STATUS p, 5, 5⟩
def PNL_STATUS_IN_REPEAT (p : Nat) : RF := ⟨R.PNL_STATUS p, 4, 4⟩
def PNL_STATUS_STATE (p : Nat) : RF := ⟨R.PNL_STATUS p, 2, 0⟩
def PNL_PC_REPEAT_LEFT (p : Nat) : RF := ⟨R.PNL_PC p, 27, 16⟩
def PNL_PC_PC (p : Nat) : RF := ⟨R.PNL_PC p, 11, 0⟩
def PNL_EVENTS_LOAD_WAIT (p : Nat) : RF := ⟨R.PNL_EVENTS p, 4, 4⟩
def PNL_EVENTS_HALTED (p : Nat) : RF := ⟨R.PNL_EVENTS p, 3, 3⟩
def PNL_EVENTS_FAULT (p : Nat) : RF := ⟨R.PNL_EVENTS p, 2, 2⟩
def PNL_EVENTS_UNBOUND (p : Nat) : RF := ⟨R.PNL_EVENTS p, 1, 1⟩
def PNL_EVENTS_SLOT_CONFLICT (p : Nat) : RF := ⟨R.PNL_EVENTS p, 0, 0⟩
def PNL_IRQ_EN_EN (p : Nat) : RF := ⟨R.PNL_IRQ_EN p, 4, 0⟩
def PNL_SLOT_WAIT_LIMIT (p : Nat) : RF := ⟨R.PNL_SLOT_WAIT p, 23, 0⟩
def PNL_FRAME_FRAME (p : Nat) : RF := ⟨R.PNL_FRAME p, 47, 0⟩
def PNL_SLOT_BOUND_BOUND (p : Nat) : RF := ⟨R.PNL_SLOT_BOUND p, 31, 0⟩
def PNL_SLOT_CLOSING_CLOSING (p : Nat) : RF := ⟨R.PNL_SLOT_CLOSING p, 31, 0⟩
def PNL_CONFLICT_INFO_OP (p : Nat) : RF := ⟨R.PNL_CONFLICT_INFO p, 31, 26⟩
def PNL_CONFLICT_INFO_SLOT (p : Nat) : RF := ⟨R.PNL_CONFLICT_INFO p, 25, 21⟩
def PNL_CONFLICT_INFO_TAG (p : Nat) : RF := ⟨R.PNL_CONFLICT_INFO p, 11, 0⟩
def PNL_CONFLICT_CNT_COUNT (p : Nat) : RF := ⟨R.PNL_CONFLICT_CNT p, 31, 0⟩
def PNL_UNBOUND_CNT_COUNT (p : Nat) : RF := ⟨R.PNL_UNBOUND_CNT p, 31, 0⟩
def PNL_HOLDOFF_MAX_CYCLES (p : Nat) : RF := ⟨R.PNL_HOLDOFF_MAX p, 23, 0⟩
def PNL_ARRAY_CYCLES_COUNT (p : Nat) : RF := ⟨R.PNL_ARRAY_CYCLES p, 63, 0⟩
def PNL_HELD_CYCLES_COUNT (p : Nat) : RF := ⟨R.PNL_HELD_CYCLES p, 63, 0⟩
def PNL_A_VALUE (p a : Nat) : RF := ⟨R.PNL_A p a, 31, 0⟩
def PNL_UCODE_CONTROL (p w : Nat) : RF := ⟨R.PNL_UCODE p w, 63, 32⟩
def PNL_UCODE_ARRAY (p w : Nat) : RF := ⟨R.PNL_UCODE p w, 31, 0⟩
def PNL_INT_CFG_RUNS (p : Nat) : RF := ⟨R.PNL_INT_CFG p, 23, 8⟩
def PNL_INT_CFG_RUN_FRAMES (p : Nat) : RF := ⟨R.PNL_INT_CFG p, 4, 0⟩
def PNL_INT_START_PARITY (p : Nat) : RF := ⟨R.PNL_INT_START p, 48, 48⟩
def PNL_INT_START_START (p : Nat) : RF := ⟨R.PNL_INT_START p, 47, 0⟩
def PNL_SAT_CNT_COUNT (p : Nat) : RF := ⟨R.PNL_SAT_CNT p, 31, 0⟩
def PNL_ACC_EVENTS_PHASE_MISS (p : Nat) : RF := ⟨R.PNL_ACC_EVENTS p, 3, 3⟩
def PNL_ACC_EVENTS_DRAIN_CLEAR (p : Nat) : RF := ⟨R.PNL_ACC_EVENTS p, 2, 2⟩
def PNL_ACC_EVENTS_PROMO_CONFLICT (p : Nat) : RF := ⟨R.PNL_ACC_EVENTS p, 1, 1⟩
def PNL_ACC_EVENTS_PROMO_LIMIT (p : Nat) : RF := ⟨R.PNL_ACC_EVENTS p, 0, 0⟩
def ISL_PHASE_CFG_PW (n : Nat) : RF := ⟨R.ISL_PHASE_CFG n, 19, 16⟩
def ISL_PHASE_CFG_NBINS (n : Nat) : RF := ⟨R.ISL_PHASE_CFG n, 10, 0⟩
def ISL_PHASE_BASE_BASE (n : Nat) : RF := ⟨R.ISL_PHASE_BASE n, 39, 5⟩
def ISL_PHASE_MISS_CNT_COUNT (n : Nat) : RF := ⟨R.ISL_PHASE_MISS_CNT n, 31, 0⟩
def ISL_RED_CFG_TRIG_EN (n : Nat) : RF := ⟨R.ISL_RED_CFG n, 31, 31⟩
def ISL_RED_CFG_MIN_N (n : Nat) : RF := ⟨R.ISL_RED_CFG n, 28, 16⟩
def ISL_RED_CFG_WIN (n : Nat) : RF := ⟨R.ISL_RED_CFG n, 15, 8⟩
def ISL_RED_CFG_SRC (n : Nat) : RF := ⟨R.ISL_RED_CFG n, 1, 0⟩
def ISL_RED_THRESH_THRESH (n : Nat) : RF := ⟨R.ISL_RED_THRESH n, 47, 0⟩
def ISL_RED_STATUS_SEQ (n : Nat) : RF := ⟨R.ISL_RED_STATUS n, 31, 16⟩
def ISL_RED_STATUS_TRIGGERED (n : Nat) : RF := ⟨R.ISL_RED_STATUS n, 4, 4⟩
def ISL_RED_STATUS_COUNT (n : Nat) : RF := ⟨R.ISL_RED_STATUS n, 3, 0⟩
def ISL_RED_WINDOW_START (n : Nat) : RF := ⟨R.ISL_RED_WINDOW n, 47, 0⟩
def ISL_RED_LATE_COUNT (n : Nat) : RF := ⟨R.ISL_RED_LATE n, 31, 0⟩
def ISL_RED_TOP_VAL_VALID (n k : Nat) : RF := ⟨R.ISL_RED_TOP_VAL n k, 63, 63⟩
def ISL_RED_TOP_VAL_VALUE (n k : Nat) : RF := ⟨R.ISL_RED_TOP_VAL n k, 47, 0⟩
def ISL_RED_TOP_POS_INDEX (n k : Nat) : RF := ⟨R.ISL_RED_TOP_POS n k, 32, 20⟩
def ISL_RED_TOP_POS_CHANNEL (n k : Nat) : RF := ⟨R.ISL_RED_TOP_POS n k, 19, 8⟩
def ISL_RED_TOP_POS_FRAME_OFF (n k : Nat) : RF := ⟨R.ISL_RED_TOP_POS n k, 7, 0⟩
def MEM_SPILL_BASE_BASE : RF := ⟨R.MEM_SPILL_BASE, 39, 16⟩
def MEM_SPILL_LIMIT_LIMIT : RF := ⟨R.MEM_SPILL_LIMIT, 39, 16⟩
def MEM_SPILL_STATUS_HOLD : RF := ⟨R.MEM_SPILL_STATUS, 2, 2⟩
def MEM_SPILL_STATUS_RANGE : RF := ⟨R.MEM_SPILL_STATUS, 1, 1⟩
def MEM_SPILL_STATUS_SAT : RF := ⟨R.MEM_SPILL_STATUS, 0, 0⟩
def MEM_SPILL_ADDS_COUNT : RF := ⟨R.MEM_SPILL_ADDS, 63, 0⟩
def MEM_DUMP_BUSY_BUSY : RF := ⟨R.MEM_DUMP_BUSY, 63, 0⟩
def MEM_SPILL_LIST_COUNT (p : Nat) : RF := ⟨R.MEM_SPILL_LIST p, 63, 48⟩
def MEM_SPILL_LIST_BASE (p : Nat) : RF := ⟨R.MEM_SPILL_LIST p, 39, 4⟩
def DEV_DRAIN_AT_ISL_MASK : RF := ⟨R.DEV_DRAIN_AT, 55, 48⟩
def DEV_DRAIN_AT_AT_FRAME : RF := ⟨R.DEV_DRAIN_AT, 47, 0⟩
def DEV_DRAIN_STATUS_DISCARDED : RF := ⟨R.DEV_DRAIN_STATUS, 11, 11⟩
def DEV_DRAIN_STATUS_FULL : RF := ⟨R.DEV_DRAIN_STATUS, 10, 10⟩
def DEV_DRAIN_STATUS_LATE : RF := ⟨R.DEV_DRAIN_STATUS, 9, 9⟩
def DEV_DRAIN_STATUS_DONE : RF := ⟨R.DEV_DRAIN_STATUS, 8, 8⟩
def DEV_DRAIN_STATUS_PENDING : RF := ⟨R.DEV_DRAIN_STATUS, 2, 0⟩
def DEV_DRAIN_DONE_AT_FRAME : RF := ⟨R.DEV_DRAIN_DONE_AT, 47, 0⟩
def ISL_VERDICT_POST_VERDICT (n : Nat) : RF := ⟨R.ISL_VERDICT_POST n, 63, 0⟩
def ISL_VERDICT_CFG_RETRACT_EN (n : Nat) : RF := ⟨R.ISL_VERDICT_CFG n, 8, 8⟩
def ISL_VERDICT_CFG_HORIZON (n : Nat) : RF := ⟨R.ISL_VERDICT_CFG n, 7, 4⟩
def ISL_VERDICT_CFG_RET (n : Nat) : RF := ⟨R.ISL_VERDICT_CFG n, 1, 0⟩
def ISL_VERDICT_STATUS_QUEUED (n : Nat) : RF := ⟨R.ISL_VERDICT_STATUS n, 8, 0⟩
def ISL_VERDICT_EVENTS_TABLE_OVF (n : Nat) : RF := ⟨R.ISL_VERDICT_EVENTS n, 3, 3⟩
def ISL_VERDICT_EVENTS_OVERFLOW (n : Nat) : RF := ⟨R.ISL_VERDICT_EVENTS n, 2, 2⟩
def ISL_VERDICT_EVENTS_STALE (n : Nat) : RF := ⟨R.ISL_VERDICT_EVENTS n, 1, 1⟩
def ISL_VERDICT_EVENTS_REJECTED (n : Nat) : RF := ⟨R.ISL_VERDICT_EVENTS n, 0, 0⟩
def ISL_VERDICT_CNT_COUNT (n i : Nat) : RF := ⟨R.ISL_VERDICT_CNT n i, 31, 0⟩
def ISL_OCC_BASE_BASE (n : Nat) : RF := ⟨R.ISL_OCC_BASE n, 39, 6⟩
def ISL_OCC_CFG_MAX_ENTRIES (n : Nat) : RF := ⟨R.ISL_OCC_CFG n, 55, 32⟩
def ISL_OCC_CFG_SIZE (n : Nat) : RF := ⟨R.ISL_OCC_CFG n, 31, 0⟩
def ISL_OCC_ROUTE_ROUTE (n : Nat) : RF := ⟨R.ISL_OCC_ROUTE n, 31, 0⟩
def ISL_RETR_MAP_MASK3 (n j : Nat) : RF := ⟨R.ISL_RETR_MAP n j, 31, 24⟩
def ISL_RETR_MAP_MASK2 (n j : Nat) : RF := ⟨R.ISL_RETR_MAP n j, 23, 16⟩
def ISL_RETR_MAP_MASK1 (n j : Nat) : RF := ⟨R.ISL_RETR_MAP n j, 15, 8⟩
def ISL_RETR_MAP_MASK0 (n j : Nat) : RF := ⟨R.ISL_RETR_MAP n j, 7, 0⟩
def PNL_RETR_CFG_CLOSE_TAKE (p : Nat) : RF := ⟨R.PNL_RETR_CFG p, 0, 0⟩
def PNL_RETR_CNT_UNSERVED (p : Nat) : RF := ⟨R.PNL_RETR_CNT p, 31, 16⟩
def PNL_RETR_CNT_SERVED (p : Nat) : RF := ⟨R.PNL_RETR_CNT p, 15, 0⟩
def ISL_BEAM_TAB_EN (n BB : Nat) : RF := ⟨R.ISL_BEAM_TAB n BB, 63, 63⟩
def ISL_BEAM_TAB_AG (n BB : Nat) : RF := ⟨R.ISL_BEAM_TAB n BB, 61, 56⟩
def ISL_BEAM_TAB_PARTS_M1 (n BB : Nat) : RF := ⟨R.ISL_BEAM_TAB n BB, 51, 48⟩
def ISL_BEAM_TAB_DSHIFT (n BB : Nat) : RF := ⟨R.ISL_BEAM_TAB n BB, 44, 40⟩
def ISL_BEAM_TAB_VSHIFT (n BB : Nat) : RF := ⟨R.ISL_BEAM_TAB n BB, 36, 32⟩
def ISL_BEAM_TAB_QUEUE (n BB : Nat) : RF := ⟨R.ISL_BEAM_TAB n BB, 11, 0⟩
def ISL_BEAM_CFG_LEN_BLK (n : Nat) : RF := ⟨R.ISL_BEAM_CFG n, 4, 0⟩
def ISL_WEIGHT_CFG_BANK_STRIDE (n : Nat) : RF := ⟨R.ISL_WEIGHT_CFG n, 63, 32⟩
def ISL_WEIGHT_CFG_RES_M1 (n : Nat) : RF := ⟨R.ISL_WEIGHT_CFG n, 20, 16⟩
def ISL_WEIGHT_CFG_NSB (n : Nat) : RF := ⟨R.ISL_WEIGHT_CFG n, 15, 8⟩
def ISL_WEIGHT_CFG_NBB (n : Nat) : RF := ⟨R.ISL_WEIGHT_CFG n, 5, 0⟩
def ISL_WEIGHT_COMMIT_BANK (n : Nat) : RF := ⟨R.ISL_WEIGHT_COMMIT n, 48, 48⟩
def ISL_WEIGHT_COMMIT_AT_FRAME (n : Nat) : RF := ⟨R.ISL_WEIGHT_COMMIT n, 47, 0⟩
def ISL_WEIGHT_STATUS_OTHER_FREE (n : Nat) : RF := ⟨R.ISL_WEIGHT_STATUS n, 6, 6⟩
def ISL_WEIGHT_STATUS_APPLIED (n : Nat) : RF := ⟨R.ISL_WEIGHT_STATUS n, 5, 5⟩
def ISL_WEIGHT_STATUS_REPLACED (n : Nat) : RF := ⟨R.ISL_WEIGHT_STATUS n, 4, 4⟩
def ISL_WEIGHT_STATUS_LATE (n : Nat) : RF := ⟨R.ISL_WEIGHT_STATUS n, 3, 3⟩
def ISL_WEIGHT_STATUS_BANK_NOW (n : Nat) : RF := ⟨R.ISL_WEIGHT_STATUS n, 1, 1⟩
def ISL_WEIGHT_STATUS_PENDING (n : Nat) : RF := ⟨R.ISL_WEIGHT_STATUS n, 0, 0⟩
def ISL_MARK_HEAD_FRAME (n : Nat) : RF := ⟨R.ISL_MARK_HEAD n, 47, 0⟩
def ISL_BEAM_EVENTS_EARLY_LOAD (n : Nat) : RF := ⟨R.ISL_BEAM_EVENTS n, 3, 3⟩
def ISL_BEAM_EVENTS_CLIP (n : Nat) : RF := ⟨R.ISL_BEAM_EVENTS n, 2, 2⟩
def ISL_BEAM_EVENTS_WEIGHT_BAD (n : Nat) : RF := ⟨R.ISL_BEAM_EVENTS n, 1, 1⟩
def ISL_BEAM_EVENTS_EVICT (n : Nat) : RF := ⟨R.ISL_BEAM_EVENTS n, 0, 0⟩
def ISL_BEAM_CNT_COUNT (n i : Nat) : RF := ⟨R.ISL_BEAM_CNT n i, 31, 0⟩
def ISL_WEIGHT_BASE_BASE (n : Nat) : RF := ⟨R.ISL_WEIGHT_BASE n, 39, 6⟩
def ISL_BEAM_LAST_EPOCH_WEPOCH (n : Nat) : RF := ⟨R.ISL_BEAM_LAST_EPOCH n, 15, 0⟩
def PRT_ENTRY_EN (e : Nat) : RF := ⟨R.PRT_ENTRY e, 63, 63⟩
def PRT_ENTRY_KIND (e : Nat) : RF := ⟨R.PRT_ENTRY e, 62, 61⟩
def PRT_ENTRY_FMT (e : Nat) : RF := ⟨R.PRT_ENTRY e, 60, 59⟩
def PRT_ENTRY_ORDER (e : Nat) : RF := ⟨R.PRT_ENTRY e, 58, 57⟩
def PRT_ENTRY_SHIFT (e : Nat) : RF := ⟨R.PRT_ENTRY e, 56, 52⟩
def PRT_ENTRY_WIN (e : Nat) : RF := ⟨R.PRT_ENTRY e, 51, 48⟩
def PRT_ENTRY_WIN_EN (e : Nat) : RF := ⟨R.PRT_ENTRY e, 47, 47⟩
def PRT_ENTRY_LAYOUT (e : Nat) : RF := ⟨R.PRT_ENTRY e, 46, 45⟩
def PRT_ENTRY_QUEUE (e : Nat) : RF := ⟨R.PRT_ENTRY e, 44, 33⟩
def PRT_ENTRY_PANEL (e : Nat) : RF := ⟨R.PRT_ENTRY e, 32, 27⟩
def PRT_ENTRY_CH_FIRST (e : Nat) : RF := ⟨R.PRT_ENTRY e, 23, 12⟩
def PRT_ENTRY_CH_COUNT_M1 (e : Nat) : RF := ⟨R.PRT_ENTRY e, 11, 0⟩
def EGR_DUMP_SEQ_NEXT : RF := ⟨R.EGR_DUMP_SEQ, 31, 0⟩
def EGR_DUMP_LAST_F_FRAME : RF := ⟨R.EGR_DUMP_LAST_F, 47, 0⟩
def EGR_EVENTS_RING_WAIT : RF := ⟨R.EGR_EVENTS, 4, 4⟩
def EGR_EVENTS_RING_ERR : RF := ⟨R.EGR_EVENTS, 3, 3⟩
def EGR_EVENTS_Q_DROP : RF := ⟨R.EGR_EVENTS, 2, 2⟩
def EGR_EVENTS_CLIP : RF := ⟨R.EGR_EVENTS, 1, 1⟩
def EGR_EVENTS_ROUTE_ERR : RF := ⟨R.EGR_EVENTS, 0, 0⟩
def EGR_IRQ_EN_EN : RF := ⟨R.EGR_IRQ_EN, 4, 0⟩
def EGR_ROUTE_ERR_CNT_COUNT : RF := ⟨R.EGR_ROUTE_ERR_CNT, 31, 0⟩
def EGR_CLIP_CNT_COUNT : RF := ⟨R.EGR_CLIP_CNT, 31, 0⟩
def EGR_GROUP_LOST_COUNT (g : Nat) : RF := ⟨R.EGR_GROUP_LOST g, 31, 0⟩
def EGR_GROUP_CFG_REPLAY (g : Nat) : RF := ⟨R.EGR_GROUP_CFG g, 31, 31⟩
def EGR_GROUP_CFG_RX_EN (g : Nat) : RF := ⟨R.EGR_GROUP_CFG g, 30, 30⟩
def EGR_GROUP_CFG_RX_QUEUE (g : Nat) : RF := ⟨R.EGR_GROUP_CFG g, 27, 16⟩
def EGR_GROUP_CFG_ACK_WAIT (g : Nat) : RF := ⟨R.EGR_GROUP_CFG g, 10, 0⟩
def EGR_RELAY_DROP_COUNT (g : Nat) : RF := ⟨R.EGR_RELAY_DROP g, 31, 0⟩
def EGR_QUEUE_BUF_KIB (q : Nat) : RF := ⟨R.EGR_QUEUE q, 34, 20⟩
def EGR_QUEUE_WEIGHT_M1 (q : Nat) : RF := ⟨R.EGR_QUEUE q, 19, 16⟩
def EGR_QUEUE_GROUP (q : Nat) : RF := ⟨R.EGR_QUEUE q, 12, 8⟩
def EGR_QUEUE_POLICY (q : Nat) : RF := ⟨R.EGR_QUEUE q, 2, 2⟩
def EGR_QUEUE_DEST (q : Nat) : RF := ⟨R.EGR_QUEUE q, 1, 0⟩
def EGR_Q_DROP_COUNT (q : Nat) : RF := ⟨R.EGR_Q_DROP q, 31, 0⟩
def EGR_RING_CFG_BASE (q : Nat) : RF := ⟨R.EGR_RING_CFG q, 39, 6⟩
def EGR_RING_CFG_LOG_N (q : Nat) : RF := ⟨R.EGR_RING_CFG q, 4, 0⟩
def EGR_RING_PTR_KICK (q : Nat) : RF := ⟨R.EGR_RING_PTR q, 31, 31⟩
def EGR_RING_PTR_WAITING (q : Nat) : RF := ⟨R.EGR_RING_PTR q, 30, 30⟩
def EGR_RING_PTR_INDEX (q : Nat) : RF := ⟨R.EGR_RING_PTR q, 15, 0⟩
def EGR_WIN_HDR_VALID (w : Nat) : RF := ⟨R.EGR_WIN_HDR w, 63, 63⟩
def EGR_WIN_HDR_FRAME (w : Nat) : RF := ⟨R.EGR_WIN_HDR w, 47, 0⟩
def EGR_WIN_SEQ_DUMP_SEQ (w : Nat) : RF := ⟨R.EGR_WIN_SEQ w, 31, 0⟩
def EGR_WIN_CTRL_SKIPPED (w : Nat) : RF := ⟨R.EGR_WIN_CTRL w, 31, 16⟩
def EGR_WIN_CTRL_WAITING (w : Nat) : RF := ⟨R.EGR_WIN_CTRL w, 1, 1⟩
def EGR_WIN_CTRL_RELEASE (w : Nat) : RF := ⟨R.EGR_WIN_CTRL w, 0, 0⟩
def EGR_WIN_DATA_VALID (w i : Nat) : RF := ⟨R.EGR_WIN_DATA w i, 63, 63⟩
def EGR_WIN_DATA_MARKED (w i : Nat) : RF := ⟨R.EGR_WIN_DATA w i, 62, 62⟩
def EGR_WIN_DATA_VALUE (w i : Nat) : RF := ⟨R.EGR_WIN_DATA w i, 31, 0⟩
def PAT_CTRL_IRQ_EN : RF := ⟨R.PAT_CTRL, 23, 16⟩
def PAT_CTRL_REQ_SIG : RF := ⟨R.PAT_CTRL, 3, 3⟩
def PAT_CTRL_KEY_LOCK : RF := ⟨R.PAT_CTRL, 2, 2⟩
def PAT_CTRL_CANCEL : RF := ⟨R.PAT_CTRL, 1, 1⟩
def PAT_CTRL_LOAD : RF := ⟨R.PAT_CTRL, 0, 0⟩
def PAT_STATUS_STOP_PEND : RF := ⟨R.PAT_STATUS, 12, 12⟩
def PAT_STATUS_ERR_CODE : RF := ⟨R.PAT_STATUS, 11, 8⟩
def PAT_STATUS_ACTIVE : RF := ⟨R.PAT_STATUS, 4, 4⟩
def PAT_STATUS_STATE : RF := ⟨R.PAT_STATUS, 2, 0⟩
def PAT_EVENTS_REPLACED : RF := ⟨R.PAT_EVENTS, 7, 7⟩
def PAT_EVENTS_STOPPED : RF := ⟨R.PAT_EVENTS, 6, 6⟩
def PAT_EVENTS_REFUSED : RF := ⟨R.PAT_EVENTS, 5, 5⟩
def PAT_EVENTS_CANCELLED : RF := ⟨R.PAT_EVENTS, 4, 4⟩
def PAT_EVENTS_LATE : RF := ⟨R.PAT_EVENTS, 3, 3⟩
def PAT_EVENTS_SWAPPED : RF := ⟨R.PAT_EVENTS, 2, 2⟩
def PAT_EVENTS_LOAD_ERR : RF := ⟨R.PAT_EVENTS, 1, 1⟩
def PAT_EVENTS_LOADED : RF := ⟨R.PAT_EVENTS, 0, 0⟩
def PAT_ERR_OFFSET_OFFSET : RF := ⟨R.PAT_ERR_OFFSET, 31, 0⟩
def PAT_LOAD_ADDR_ADDR : RF := ⟨R.PAT_LOAD_ADDR, 39, 3⟩
def PAT_LOAD_LEN_LEN : RF := ⟨R.PAT_LOAD_LEN, 31, 0⟩
def PAT_ACTIVATE_AT_AT_FRAME : RF := ⟨R.PAT_ACTIVATE_AT, 47, 0⟩
def PAT_STOP_AT_AT_FRAME : RF := ⟨R.PAT_STOP_AT, 47, 0⟩
def PAT_ACTIVE_ID_IMAGE_ID : RF := ⟨R.PAT_ACTIVE_ID, 63, 0⟩
def PAT_SHADOW_ID_IMAGE_ID : RF := ⟨R.PAT_SHADOW_ID, 63, 0⟩
def PAT_ACTIVE_AT_FRAME : RF := ⟨R.PAT_ACTIVE_AT, 47, 0⟩
def PAT_PUBKEY_KEY (i : Nat) : RF := ⟨R.PAT_PUBKEY i, 63, 0⟩
def DEV_MODE_CHIP : RF := ⟨R.DEV_MODE, 15, 8⟩
def DEV_MODE_MODE : RF := ⟨R.DEV_MODE, 2, 0⟩
def DEV_TEST_CFG_GEN : RF := ⟨R.DEV_TEST_CFG, 17, 16⟩
def DEV_TEST_CFG_RE : RF := ⟨R.DEV_TEST_CFG, 15, 8⟩
def DEV_TEST_CFG_IM : RF := ⟨R.DEV_TEST_CFG, 7, 0⟩
def ISL_CLK_CHANGING (n : Nat) : RF := ⟨R.ISL_CLK n, 8, 8⟩
def ISL_CLK_N (n : Nat) : RF := ⟨R.ISL_CLK n, 4, 0⟩
def AWL_CTRL_IRQ_EN (n : Nat) : RF := ⟨R.AWL_CTRL n, 19, 16⟩
def AWL_CTRL_STEP (n : Nat) : RF := ⟨R.AWL_CTRL n, 3, 3⟩
def AWL_CTRL_RESET (n : Nat) : RF := ⟨R.AWL_CTRL n, 2, 2⟩
def AWL_CTRL_HALT (n : Nat) : RF := ⟨R.AWL_CTRL n, 1, 1⟩
def AWL_CTRL_RUN (n : Nat) : RF := ⟨R.AWL_CTRL n, 0, 0⟩
def AWL_STATUS_PC (n : Nat) : RF := ⟨R.AWL_STATUS n, 28, 16⟩
def AWL_STATUS_H (n : Nat) : RF := ⟨R.AWL_STATUS n, 5, 5⟩
def AWL_STATUS_LV (n : Nat) : RF := ⟨R.AWL_STATUS n, 4, 3⟩
def AWL_STATUS_STATE (n : Nat) : RF := ⟨R.AWL_STATUS n, 2, 0⟩
def AWL_EVENTS_SIGNAL (n : Nat) : RF := ⟨R.AWL_EVENTS n, 3, 3⟩
def AWL_EVENTS_EXCEPTION (n : Nat) : RF := ⟨R.AWL_EVENTS n, 2, 2⟩
def AWL_EVENTS_DOUBLE (n : Nat) : RF := ⟨R.AWL_EVENTS n, 1, 1⟩
def AWL_EVENTS_HALTED (n : Nat) : RF := ⟨R.AWL_EVENTS n, 0, 0⟩
def AWL_ECAUSE_DEFERRED (n : Nat) : RF := ⟨R.AWL_ECAUSE n, 4, 4⟩
def AWL_ECAUSE_CAUSE (n : Nat) : RF := ⟨R.AWL_ECAUSE n, 3, 0⟩
def AWL_EPC_EPC (n : Nat) : RF := ⟨R.AWL_EPC n, 12, 0⟩
def AWL_EADDR_EADDR (n : Nat) : RF := ⟨R.AWL_EADDR n, 23, 0⟩
def AWL_HOST_SIG_VALUE (n : Nat) : RF := ⟨R.AWL_HOST_SIG n, 31, 0⟩
def AWL_DOORBELL_RING (n : Nat) : RF := ⟨R.AWL_DOORBELL n, 0, 0⟩
def AWL_CYCLES_COUNT (n : Nat) : RF := ⟨R.AWL_CYCLES n, 63, 0⟩
def AWL_STALLS_COUNT (n : Nat) : RF := ⟨R.AWL_STALLS n, 63, 0⟩
def AWL_SPEC_VALUE (n i : Nat) : RF := ⟨R.AWL_SPEC n i, 23, 0⟩
def AWL_XREG_VALUE (n i : Nat) : RF := ⟨R.AWL_XREG n i, 23, 0⟩
def AWL_ACC_SIGN (n a : Nat) : RF := ⟨R.AWL_ACC n a, 63, 56⟩
def AWL_ACC_VALUE (n a : Nat) : RF := ⟨R.AWL_ACC n a, 55, 0⟩
def CAP_CFG_AG : RF := ⟨R.CAP_CFG, 15, 10⟩
def CAP_CFG_BITS : RF := ⟨R.CAP_CFG, 2, 2⟩
def CAP_CFG_KIND : RF := ⟨R.CAP_CFG, 1, 1⟩
def CAP_CFG_EN : RF := ⟨R.CAP_CFG, 0, 0⟩
def CAP_RING_BASE_BASE (L : Nat) : RF := ⟨R.CAP_RING_BASE L, 39, 6⟩
def CAP_RING_GEOM_SEGS (L : Nat) : RF := ⟨R.CAP_RING_GEOM L, 63, 32⟩
def CAP_RING_GEOM_SEG_UNITS (L : Nat) : RF := ⟨R.CAP_RING_GEOM L, 20, 1⟩
def CAP_RING_GEOM_VALID (L : Nat) : RF := ⟨R.CAP_RING_GEOM L, 0, 0⟩
def CAP_TRIG_CFG_POST : RF := ⟨R.CAP_TRIG_CFG, 63, 40⟩
def CAP_TRIG_CFG_PRE : RF := ⟨R.CAP_TRIG_CFG, 39, 16⟩
def CAP_TRIG_CFG_RED_EN : RF := ⟨R.CAP_TRIG_CFG, 15, 8⟩
def CAP_TRIG_CFG_FWD : RF := ⟨R.CAP_TRIG_CFG, 6, 4⟩
def CAP_TRIG_CFG_C2C_EN : RF := ⟨R.CAP_TRIG_CFG, 2, 2⟩
def CAP_TRIG_CFG_SW_EN : RF := ⟨R.CAP_TRIG_CFG, 1, 1⟩
def CAP_TRIG_CFG_PIN_EN : RF := ⟨R.CAP_TRIG_CFG, 0, 0⟩
def CAP_TRIG_SW_NOW : RF := ⟨R.CAP_TRIG_SW, 63, 63⟩
def CAP_TRIG_SW_SEQ : RF := ⟨R.CAP_TRIG_SW, 51, 0⟩
def CAP_NEXT_SEQ_SEQ : RF := ⟨R.CAP_NEXT_SEQ, 51, 0⟩
def CAP_HEAD_SEQ_SEQ : RF := ⟨R.CAP_HEAD_SEQ, 51, 0⟩
def CAP_EVENTS_IRQ_EN : RF := ⟨R.CAP_EVENTS, 19, 16⟩
def CAP_EVENTS_REFUSED : RF := ⟨R.CAP_EVENTS, 3, 3⟩
def CAP_EVENTS_FROZEN : RF := ⟨R.CAP_EVENTS, 2, 2⟩
def CAP_EVENTS_TRIGGER : RF := ⟨R.CAP_EVENTS, 1, 1⟩
def CAP_EVENTS_DROP : RF := ⟨R.CAP_EVENTS, 0, 0⟩
def CAP_CNT_COUNT (i : Nat) : RF := ⟨R.CAP_CNT i, 31, 0⟩
def CAP_RGN_START_SEQ (r : Nat) : RF := ⟨R.CAP_RGN_START r, 51, 0⟩
def CAP_RGN_END_SEQ (r : Nat) : RF := ⟨R.CAP_RGN_END r, 51, 0⟩
def CAP_RGN_CTRL_TRIGGERS (r : Nat) : RF := ⟨R.CAP_RGN_CTRL r, 31, 16⟩
def CAP_RGN_CTRL_RELEASE (r : Nat) : RF := ⟨R.CAP_RGN_CTRL r, 8, 8⟩
def CAP_RGN_CTRL_LOST (r : Nat) : RF := ⟨R.CAP_RGN_CTRL r, 7, 7⟩
def CAP_RGN_CTRL_OLD (r : Nat) : RF := ⟨R.CAP_RGN_CTRL r, 6, 6⟩
def CAP_RGN_CTRL_SHORT (r : Nat) : RF := ⟨R.CAP_RGN_CTRL r, 5, 5⟩
def CAP_RGN_CTRL_HOLE (r : Nat) : RF := ⟨R.CAP_RGN_CTRL r, 4, 4⟩
def CAP_RGN_CTRL_CLIPPED (r : Nat) : RF := ⟨R.CAP_RGN_CTRL r, 3, 3⟩
def CAP_RGN_CTRL_CAUSE_LAST (r : Nat) : RF := ⟨R.CAP_RGN_CTRL r, 2, 2⟩
def CAP_RGN_CTRL_STATE (r : Nat) : RF := ⟨R.CAP_RGN_CTRL r, 1, 0⟩
def CAP_TAP_EN (i : Nat) : RF := ⟨R.CAP_TAP i, 31, 31⟩
def CAP_TAP_SHIFT (i : Nat) : RF := ⟨R.CAP_TAP i, 30, 28⟩
def CAP_TAP_INDEX (i : Nat) : RF := ⟨R.CAP_TAP i, 24, 12⟩
def CAP_TAP_CHANNEL (i : Nat) : RF := ⟨R.CAP_TAP i, 11, 0⟩
def PCIE_CFG_SPEED_MAX (n : Nat) : RF := ⟨R.PCIE_CFG n, 7, 5⟩
def PCIE_CFG_BIFURCATE (n : Nat) : RF := ⟨R.PCIE_CFG n, 4, 4⟩
def PCIE_CFG_RETRAIN (n : Nat) : RF := ⟨R.PCIE_CFG n, 1, 1⟩
def PCIE_CFG_ENABLE (n : Nat) : RF := ⟨R.PCIE_CFG n, 0, 0⟩
def PCIE_STATUS_CNT_UR (n : Nat) : RF := ⟨R.PCIE_STATUS n, 31, 16⟩
def PCIE_STATUS_AER (n : Nat) : RF := ⟨R.PCIE_STATUS n, 9, 9⟩
def PCIE_STATUS_LINK_DOWN (n : Nat) : RF := ⟨R.PCIE_STATUS n, 8, 8⟩
def PCIE_STATUS_SPEED (n : Nat) : RF := ⟨R.PCIE_STATUS n, 7, 5⟩
def PCIE_STATUS_WIDTH (n : Nat) : RF := ⟨R.PCIE_STATUS n, 4, 2⟩
def PCIE_STATUS_L0 (n : Nat) : RF := ⟨R.PCIE_STATUS n, 0, 0⟩
def PCIE_OB_XLATE_BUS (n : Nat) : RF := ⟨R.PCIE_OB_XLATE n, 63, 12⟩
def PCIE_IB_BASE_BUS (n : Nat) : RF := ⟨R.PCIE_IB_BASE n, 63, 12⟩
def PCIE_IB_BASE_IB_LOG (n : Nat) : RF := ⟨R.PCIE_IB_BASE n, 5, 0⟩
def PCIE_IB_XLATE_ADDR (n : Nat) : RF := ⟨R.PCIE_IB_XLATE n, 39, 12⟩
def PCIE_MSI_ADDR_BUS (n : Nat) : RF := ⟨R.PCIE_MSI_ADDR n, 63, 2⟩
def MEM_CFG_PRESENT : RF := ⟨R.MEM_CFG, 23, 12⟩
def MEM_CFG_DENSITY : RF := ⟨R.MEM_CFG, 9, 8⟩
def MEM_CFG_CLAMSHELL : RF := ⟨R.MEM_CFG, 7, 7⟩
def MEM_CFG_RATE : RF := ⟨R.MEM_CFG, 2, 0⟩
def MEM_ILV_TOP_GIB : RF := ⟨R.MEM_ILV, 43, 32⟩
def MEM_ILV_COUNT : RF := ⟨R.MEM_ILV, 15, 12⟩
def MEM_ILV_MASK : RF := ⟨R.MEM_ILV, 11, 0⟩
def MEM_SCHED_POSTPONE_MAX : RF := ⟨R.MEM_SCHED, 27, 24⟩
def MEM_SCHED_HIT_RUN : RF := ⟨R.MEM_SCHED, 15, 8⟩
def MEM_SCHED_IDLE : RF := ⟨R.MEM_SCHED, 7, 0⟩
def MEM_SCRUB_EN : RF := ⟨R.MEM_SCRUB, 31, 31⟩
def MEM_SCRUB_INTERVAL : RF := ⟨R.MEM_SCRUB, 23, 0⟩
def MEM_STATUS_LOST : RF := ⟨R.MEM_STATUS, 27, 16⟩
def MEM_STATUS_DEGRADED : RF := ⟨R.MEM_STATUS, 12, 12⟩
def MEM_STATUS_ONLINE : RF := ⟨R.MEM_STATUS, 11, 0⟩
def MEM_PORT_TARGET_TARGET (p : Nat) : RF := ⟨R.MEM_PORT_TARGET p, 15, 0⟩
def MEM_CH_CTRL_TRAIN (i : Nat) : RF := ⟨R.MEM_CH_CTRL i, 0, 0⟩
def MEM_CH_STATUS_OWED (i : Nat) : RF := ⟨R.MEM_CH_STATUS i, 19, 16⟩
def MEM_CH_STATUS_RESULT (i : Nat) : RF := ⟨R.MEM_CH_STATUS i, 11, 8⟩
def MEM_CH_STATUS_STATE (i : Nat) : RF := ⟨R.MEM_CH_STATUS i, 2, 0⟩
def MEM_CH_ERR_ADDR_VALID (i : Nat) : RF := ⟨R.MEM_CH_ERR_ADDR i, 63, 63⟩
def MEM_CH_ERR_ADDR_ADDR (i : Nat) : RF := ⟨R.MEM_CH_ERR_ADDR i, 39, 0⟩
def MEM_CH_CNT_COUNT (i k : Nat) : RF := ⟨R.MEM_CH_CNT i k, 31, 0⟩
def ECC_SPILL_CHK_BASE : RF := ⟨R.ECC_SPILL_CHK, 39, 13⟩
def ECC_EVENTS_IRQ_EN : RF := ⟨R.ECC_EVENTS, 19, 16⟩
def ECC_EVENTS_SCRUB_UE : RF := ⟨R.ECC_EVENTS, 3, 3⟩
def ECC_EVENTS_CE_THRESH : RF := ⟨R.ECC_EVENTS, 2, 2⟩
def ECC_EVENTS_UE_ONCHIP : RF := ⟨R.ECC_EVENTS, 1, 1⟩
def ECC_EVENTS_UE_SDRAM : RF := ⟨R.ECC_EVENTS, 0, 0⟩
def ECC_CE_THRESH_THRESH : RF := ⟨R.ECC_CE_THRESH, 31, 0⟩
def ECC_CNT_COUNT (i : Nat) : RF := ⟨R.ECC_CNT i, 31, 0⟩
def ECC_LAST_UE_MEM_ID : RF := ⟨R.ECC_LAST_UE, 63, 56⟩
def ECC_LAST_UE_ADDR : RF := ⟨R.ECC_LAST_UE, 39, 0⟩
def ECC_DIAG_CTRL_EN : RF := ⟨R.ECC_DIAG_CTRL, 31, 31⟩
def ECC_DIAG_CTRL_CHK5 : RF := ⟨R.ECC_DIAG_CTRL, 20, 16⟩
def ECC_DIAG_CTRL_CHK8 : RF := ⟨R.ECC_DIAG_CTRL, 15, 8⟩
def ECC_DIAG_CTRL_TARGET : RF := ⟨R.ECC_DIAG_CTRL, 7, 0⟩
def ECC_DIAG_RAW_CHK : RF := ⟨R.ECC_DIAG_RAW, 7, 0⟩
def ECC_ONCHIP_SCRUB_EN : RF := ⟨R.ECC_ONCHIP_SCRUB, 31, 31⟩
def ECC_ONCHIP_SCRUB_INTERVAL : RF := ⟨R.ECC_ONCHIP_SCRUB, 23, 0⟩
def FUSE_REPAIR_VALID (e : Nat) : RF := ⟨R.FUSE_REPAIR e, 31, 31⟩
def FUSE_REPAIR_BAD (e : Nat) : RF := ⟨R.FUSE_REPAIR e, 30, 30⟩
def FUSE_REPAIR_MEM_ID (e : Nat) : RF := ⟨R.FUSE_REPAIR e, 29, 22⟩
def FUSE_REPAIR_KIND (e : Nat) : RF := ⟨R.FUSE_REPAIR e, 21, 21⟩
def FUSE_REPAIR_INDEX (e : Nat) : RF := ⟨R.FUSE_REPAIR e, 20, 8⟩
def FUSE_REPAIR_SPARE (e : Nat) : RF := ⟨R.FUSE_REPAIR e, 7, 4⟩
def FUSE_REPAIR_PROG_ENTRY : RF := ⟨R.FUSE_REPAIR_PROG, 37, 32⟩
def FUSE_REPAIR_PROG_MEM_ID : RF := ⟨R.FUSE_REPAIR_PROG, 29, 22⟩
def FUSE_REPAIR_PROG_KIND : RF := ⟨R.FUSE_REPAIR_PROG, 21, 21⟩
def FUSE_REPAIR_PROG_INDEX : RF := ⟨R.FUSE_REPAIR_PROG, 20, 8⟩
def FUSE_REPAIR_PROG_SPARE : RF := ⟨R.FUSE_REPAIR_PROG, 7, 4⟩
def FUSE_REPAIR_PROG_GO : RF := ⟨R.FUSE_REPAIR_PROG, 0, 0⟩
def FUSE_REPAIR_STATUS_BUSY : RF := ⟨R.FUSE_REPAIR_STATUS, 8, 8⟩
def FUSE_REPAIR_STATUS_REFUSED : RF := ⟨R.FUSE_REPAIR_STATUS, 1, 1⟩
def FUSE_REPAIR_STATUS_DONE : RF := ⟨R.FUSE_REPAIR_STATUS, 0, 0⟩
def WELT_PARK_MASTER : RF := ⟨R.WELT_PARK, 27, 0⟩
def WELT_TIMEOUT_CYCLES : RF := ⟨R.WELT_TIMEOUT, 31, 0⟩
def WELT_EVENTS_IRQ_EN : RF := ⟨R.WELT_EVENTS, 20, 16⟩
def WELT_EVENTS_IND_DROP : RF := ⟨R.WELT_EVENTS, 4, 4⟩
def WELT_EVENTS_IND_OVER : RF := ⟨R.WELT_EVENTS, 3, 3⟩
def WELT_EVENTS_ERR : RF := ⟨R.WELT_EVENTS, 2, 2⟩
def WELT_EVENTS_TIMEOUT : RF := ⟨R.WELT_EVENTS, 1, 1⟩
def WELT_EVENTS_DECODE : RF := ⟨R.WELT_EVENTS, 0, 0⟩
def WELT_ERR_INFO_RESP : RF := ⟨R.WELT_ERR_INFO, 31, 30⟩
def WELT_ERR_INFO_MASTER : RF := ⟨R.WELT_ERR_INFO, 29, 26⟩
def WELT_ERR_INFO_TARGET : RF := ⟨R.WELT_ERR_INFO, 25, 23⟩
def WELT_ERR_INFO_WRITE : RF := ⟨R.WELT_ERR_INFO, 22, 22⟩
def WELT_ERR_INFO_TAG : RF := ⟨R.WELT_ERR_INFO, 21, 16⟩
def WELT_ERR_INFO_BEATS_M1 : RF := ⟨R.WELT_ERR_INFO, 3, 0⟩
def WELT_ERR_ADDR_ADDR : RF := ⟨R.WELT_ERR_ADDR, 39, 0⟩
def WELT_CNT_COUNT (i : Nat) : RF := ⟨R.WELT_CNT i, 31, 0⟩
def WELT_IND_MAX_NS : RF := ⟨R.WELT_IND_MAX, 23, 0⟩
def WELT_IND_OVER_CNT_COUNT : RF := ⟨R.WELT_IND_OVER_CNT, 31, 0⟩
def WELT_IND_DROP_CNT_COUNT : RF := ⟨R.WELT_IND_DROP_CNT, 31, 0⟩
def WELT_M_STATUS_DRAINING (m : Nat) : RF := ⟨R.WELT_M_STATUS m, 16, 16⟩
def WELT_M_STATUS_WRITES (m : Nat) : RF := ⟨R.WELT_M_STATUS m, 15, 8⟩
def WELT_M_STATUS_READS (m : Nat) : RF := ⟨R.WELT_M_STATUS m, 7, 0⟩
def DMA_EVENTS_HALTED : RF := ⟨R.DMA_EVENTS, 63, 0⟩
def DMA_DONE_DONE : RF := ⟨R.DMA_DONE, 63, 0⟩
def DMA_IRQ_EN_EN : RF := ⟨R.DMA_IRQ_EN, 63, 0⟩
def DMA_CH_CFG_HIPRI (c : Nat) : RF := ⟨R.DMA_CH_CFG c, 31, 31⟩
def DMA_CH_CFG_CLASS (c : Nat) : RF := ⟨R.DMA_CH_CFG c, 30, 30⟩
def DMA_CH_CFG_LOG_N (c : Nat) : RF := ⟨R.DMA_CH_CFG c, 4, 0⟩
def DMA_CH_RING_BASE (c : Nat) : RF := ⟨R.DMA_CH_RING c, 39, 5⟩
def DMA_CH_CTRL_KICK (c : Nat) : RF := ⟨R.DMA_CH_CTRL c, 2, 2⟩
def DMA_CH_CTRL_ABORT (c : Nat) : RF := ⟨R.DMA_CH_CTRL c, 1, 1⟩
def DMA_CH_CTRL_RUN (c : Nat) : RF := ⟨R.DMA_CH_CTRL c, 0, 0⟩
def DMA_CH_STATUS_INDEX (c : Nat) : RF := ⟨R.DMA_CH_STATUS c, 31, 16⟩
def DMA_CH_STATUS_CODE (c : Nat) : RF := ⟨R.DMA_CH_STATUS c, 11, 8⟩
def DMA_CH_STATUS_OVERLAP_SEEN (c : Nat) : RF := ⟨R.DMA_CH_STATUS c, 4, 4⟩
def DMA_CH_STATUS_STATE (c : Nat) : RF := ⟨R.DMA_CH_STATUS c, 2, 0⟩
def DMA_CH_REMAIN_BYTES (c : Nat) : RF := ⟨R.DMA_CH_REMAIN c, 23, 0⟩
def DMA_CH_ELEM_INDEX (c : Nat) : RF := ⟨R.DMA_CH_ELEM c, 15, 0⟩
def DMA_CH_BYTES_BYTES (c : Nat) : RF := ⟨R.DMA_CH_BYTES c, 47, 0⟩
def TIM_CTRL_FORCE : RF := ⟨R.TIM_CTRL, 15, 12⟩
def TIM_CTRL_FORCE_EN : RF := ⟨R.TIM_CTRL, 8, 8⟩
def TIM_CTRL_SERVO_BW : RF := ⟨R.TIM_CTRL, 7, 6⟩
def TIM_CTRL_SERVO : RF := ⟨R.TIM_CTRL, 5, 5⟩
def TIM_CTRL_REVERTIVE : RF := ⟨R.TIM_CTRL, 4, 4⟩
def TIM_CTRL_SNAP : RF := ⟨R.TIM_CTRL, 3, 3⟩
def TIM_CTRL_LOAD_AT : RF := ⟨R.TIM_CTRL, 2, 1⟩
def TIM_CTRL_LOAD : RF := ⟨R.TIM_CTRL, 0, 0⟩
def TIM_STATUS_XO_20M : RF := ⟨R.TIM_STATUS, 19, 19⟩
def TIM_STATUS_SLEWING : RF := ⟨R.TIM_STATUS, 18, 18⟩
def TIM_STATUS_HW_OWNS : RF := ⟨R.TIM_STATUS, 17, 17⟩
def TIM_STATUS_EST_VALID : RF := ⟨R.TIM_STATUS, 16, 16⟩
def TIM_STATUS_QL_TX : RF := ⟨R.TIM_STATUS, 15, 12⟩
def TIM_STATUS_TARGET : RF := ⟨R.TIM_STATUS, 11, 8⟩
def TIM_STATUS_ACTIVE : RF := ⟨R.TIM_STATUS, 7, 4⟩
def TIM_STATUS_STATE : RF := ⟨R.TIM_STATUS, 2, 0⟩
def TIM_HISTORY_IRQ_EN : RF := ⟨R.TIM_HISTORY, 25, 16⟩
def TIM_HISTORY_LOAD_REFUSED : RF := ⟨R.TIM_HISTORY, 9, 9⟩
def TIM_HISTORY_LOAD_DONE : RF := ⟨R.TIM_HISTORY, 8, 8⟩
def TIM_HISTORY_INC_CLAMP : RF := ⟨R.TIM_HISTORY, 7, 7⟩
def TIM_HISTORY_REVERT : RF := ⟨R.TIM_HISTORY, 6, 6⟩
def TIM_HISTORY_REF_DISAGREE : RF := ⟨R.TIM_HISTORY, 5, 5⟩
def TIM_HISTORY_ENTERED : RF := ⟨R.TIM_HISTORY, 4, 0⟩
def TIM_SEL_CFG_QUAL : RF := ⟨R.TIM_SEL_CFG, 23, 16⟩
def TIM_SEL_CFG_BO : RF := ⟨R.TIM_SEL_CFG, 15, 12⟩
def TIM_SEL_CFG_WTR : RF := ⟨R.TIM_SEL_CFG, 11, 0⟩
def TIM_ARB_CFG_FREQ_TOL : RF := ⟨R.TIM_ARB_CFG, 31, 16⟩
def TIM_ARB_CFG_GUARD : RF := ⟨R.TIM_ARB_CFG, 15, 12⟩
def TIM_ARB_CFG_HOLD_AVG : RF := ⟨R.TIM_ARB_CFG, 11, 0⟩
def TIM_QTX_ALL : RF := ⟨R.TIM_QTX, 8, 8⟩
def TIM_QTX_QL_FREE : RF := ⟨R.TIM_QTX, 7, 4⟩
def TIM_QTX_QL_HOLD : RF := ⟨R.TIM_QTX, 3, 0⟩
def TIM_LREF_LANE : RF := ⟨R.TIM_LREF, 31, 0⟩
def TIM_PTP_REF_WDOG : RF := ⟨R.TIM_PTP_REF, 15, 8⟩
def TIM_PTP_REF_SW_LOCK : RF := ⟨R.TIM_PTP_REF, 4, 4⟩
def TIM_PTP_REF_QL : RF := ⟨R.TIM_PTP_REF, 3, 0⟩
def TIM_TIME_LOAD_SEC_SEC : RF := ⟨R.TIM_TIME_LOAD_SEC, 47, 0⟩
def TIM_TIME_LOAD_NS_NS : RF := ⟨R.TIM_TIME_LOAD_NS, 31, 0⟩
def TIM_PPS_OUT_CLK10_EN : RF := ⟨R.TIM_PPS_OUT, 31, 31⟩
def TIM_PPS_OUT_PPS_EN : RF := ⟨R.TIM_PPS_OUT, 30, 30⟩
def TIM_PPS_OUT_WIDTH : RF := ⟨R.TIM_PPS_OUT, 19, 0⟩
def TIM_SNAP_SEC_SEC : RF := ⟨R.TIM_SNAP_SEC, 47, 0⟩
def TIM_SNAP_NSF_NS : RF := ⟨R.TIM_SNAP_NSF, 63, 32⟩
def TIM_SNAP_NSF_FRAC : RF := ⟨R.TIM_SNAP_NSF, 31, 0⟩
def TIM_INCREMENT_INC : RF := ⟨R.TIM_INCREMENT, 63, 0⟩
def TIM_HOLD_EST_EST : RF := ⟨R.TIM_HOLD_EST, 63, 0⟩
def TIM_PHASE_STEP_STEP : RF := ⟨R.TIM_PHASE_STEP, 31, 0⟩
def TIM_PHASE_PEND_SIGN : RF := ⟨R.TIM_PHASE_PEND, 63, 40⟩
def TIM_PHASE_PEND_PEND : RF := ⟨R.TIM_PHASE_PEND, 39, 0⟩
def TIM_REF_CFG_DELAY (i : Nat) : RF := ⟨R.TIM_REF_CFG i, 63, 32⟩
def TIM_REF_CFG_ALIGN (i : Nat) : RF := ⟨R.TIM_REF_CFG i, 9, 9⟩
def TIM_REF_CFG_FREQ (i : Nat) : RF := ⟨R.TIM_REF_CFG i, 8, 8⟩
def TIM_REF_CFG_FIXED_QL (i : Nat) : RF := ⟨R.TIM_REF_CFG i, 7, 4⟩
def TIM_REF_CFG_PRIORITY (i : Nat) : RF := ⟨R.TIM_REF_CFG i, 3, 0⟩
def TIM_REF_STATUS_WTR_RUN (i : Nat) : RF := ⟨R.TIM_REF_STATUS i, 8, 8⟩
def TIM_REF_STATUS_QL (i : Nat) : RF := ⟨R.TIM_REF_STATUS i, 7, 4⟩
def TIM_REF_STATUS_REASON (i : Nat) : RF := ⟨R.TIM_REF_STATUS i, 3, 1⟩
def TIM_REF_STATUS_QUALIFIED (i : Nat) : RF := ⟨R.TIM_REF_STATUS i, 0, 0⟩
def TIM_REF_FREQ_OFFSET (i : Nat) : RF := ⟨R.TIM_REF_FREQ i, 31, 0⟩
def TIM_FO_CFG_WIDTH (k : Nat) : RF := ⟨R.TIM_FO_CFG k, 31, 8⟩
def TIM_FO_CFG_ARM (k : Nat) : RF := ⟨R.TIM_FO_CFG k, 3, 3⟩
def TIM_FO_CFG_ALIGN (k : Nat) : RF := ⟨R.TIM_FO_CFG k, 2, 1⟩
def TIM_FO_CFG_EN (k : Nat) : RF := ⟨R.TIM_FO_CFG k, 0, 0⟩
def TIM_FO_OFFSET_NS (k : Nat) : RF := ⟨R.TIM_FO_OFFSET k, 31, 0⟩
def TIM_FO_PERIOD_PERIOD (k : Nat) : RF := ⟨R.TIM_FO_PERIOD k, 47, 0⟩
def PTP_STATUS_IRQ_EN : RF := ⟨R.PTP_STATUS, 24, 24⟩
def PTP_STATUS_TX_REFUSED : RF := ⟨R.PTP_STATUS, 17, 17⟩
def PTP_STATUS_OVERFLOW : RF := ⟨R.PTP_STATUS, 16, 16⟩
def PTP_STATUS_LEVEL : RF := ⟨R.PTP_STATUS, 8, 0⟩
def PTP_TS_POP_VALID : RF := ⟨R.PTP_TS_POP, 63, 63⟩
def PTP_TS_POP_TX : RF := ⟨R.PTP_TS_POP, 62, 62⟩
def PTP_TS_POP_LOST : RF := ⟨R.PTP_TS_POP, 61, 61⟩
def PTP_TS_POP_PORT : RF := ⟨R.PTP_TS_POP, 60, 54⟩
def PTP_TS_POP_TYPE : RF := ⟨R.PTP_TS_POP, 53, 50⟩
def PTP_TS_POP_DOMAIN : RF := ⟨R.PTP_TS_POP, 47, 40⟩
def PTP_TS_POP_SEQ_ID : RF := ⟨R.PTP_TS_POP, 31, 16⟩
def PTP_TS_SEC_SEC : RF := ⟨R.PTP_TS_SEC, 47, 0⟩
def PTP_TS_NSF_NS : RF := ⟨R.PTP_TS_NSF, 63, 32⟩
def PTP_TS_NSF_FRAC : RF := ⟨R.PTP_TS_NSF, 31, 0⟩
def PTP_TS_CSEC_SEC : RF := ⟨R.PTP_TS_CSEC, 47, 0⟩
def PTP_TS_CNSF_NS : RF := ⟨R.PTP_TS_CNSF, 63, 32⟩
def PTP_TS_CNSF_FRAC : RF := ⟨R.PTP_TS_CNSF, 31, 0⟩
def PTP_LANE_TX_DOMAIN : RF := ⟨R.PTP_LANE_TX, 39, 32⟩
def PTP_LANE_TX_SEQ_ID : RF := ⟨R.PTP_LANE_TX, 31, 16⟩
def PTP_LANE_TX_MSG : RF := ⟨R.PTP_LANE_TX, 9, 8⟩
def PTP_LANE_TX_LANE : RF := ⟨R.PTP_LANE_TX, 6, 0⟩
def PTP_PORT_CFG_ASYM (p : Nat) : RF := ⟨R.PTP_PORT_CFG p, 63, 32⟩
def PTP_PORT_CFG_AUTO_RESP (p : Nat) : RF := ⟨R.PTP_PORT_CFG p, 1, 1⟩
def PTP_PORT_CFG_EN (p : Nat) : RF := ⟨R.PTP_PORT_CFG p, 0, 0⟩
def PTP_PORT_LAT_TX (p : Nat) : RF := ⟨R.PTP_PORT_LAT p, 63, 32⟩
def PTP_PORT_LAT_RX (p : Nat) : RF := ⟨R.PTP_PORT_LAT p, 31, 0⟩
def INTC_PRIO_PRIO (s : Nat) : RF := ⟨R.INTC_PRIO s, 2, 0⟩
def INTC_PENDING_PEND (w : Nat) : RF := ⟨R.INTC_PENDING w, 31, 0⟩
def INTC_ENABLE_EN (c w : Nat) : RF := ⟨R.INTC_ENABLE c w, 31, 0⟩
def INTC_THRESHOLD_THRESH (c : Nat) : RF := ⟨R.INTC_THRESHOLD c, 2, 0⟩
def INTC_CLAIM_ID (c : Nat) : RF := ⟨R.INTC_CLAIM c, 9, 0⟩
def INTC_COMPLETE_ID (c : Nat) : RF := ⟨R.INTC_COMPLETE c, 9, 0⟩
def HTIM_TIME_COUNT : RF := ⟨R.HTIM_TIME, 63, 0⟩
def HTIM_CMP_CMP (h : Nat) : RF := ⟨R.HTIM_CMP h, 63, 0⟩
def HTIM_SWI_SET (h : Nat) : RF := ⟨R.HTIM_SWI h, 0, 0⟩
def DEV_CORE_CTRL_HOLD : RF := ⟨R.DEV_CORE_CTRL, 7, 0⟩
def DEV_CORE_RVEC_ADDR : RF := ⟨R.DEV_CORE_RVEC, 39, 2⟩
def DEV_BOOT_RESULT_B : RF := ⟨R.DEV_BOOT, 15, 12⟩
def DEV_BOOT_RESULT_A : RF := ⟨R.DEV_BOOT, 11, 8⟩
def DEV_BOOT_SLOT : RF := ⟨R.DEV_BOOT, 4, 4⟩
def DEV_BOOT_STAGE : RF := ⟨R.DEV_BOOT, 1, 0⟩
def DEV_L2_CTRL_BUSY : RF := ⟨R.DEV_L2_CTRL, 1, 1⟩
def DEV_L2_CTRL_SCRATCH : RF := ⟨R.DEV_L2_CTRL, 0, 0⟩
def DEV_QSPI_CTRL_GO : RF := ⟨R.DEV_QSPI_CTRL, 63, 63⟩
def DEV_QSPI_CTRL_QUAD : RF := ⟨R.DEV_QSPI_CTRL, 57, 57⟩
def DEV_QSPI_CTRL_ADDR_EN : RF := ⟨R.DEV_QSPI_CTRL, 56, 56⟩
def DEV_QSPI_CTRL_OPCODE : RF := ⟨R.DEV_QSPI_CTRL, 55, 48⟩
def DEV_QSPI_CTRL_ADDR : RF := ⟨R.DEV_QSPI_CTRL, 39, 16⟩
def DEV_QSPI_CTRL_DUMMY : RF := ⟨R.DEV_QSPI_CTRL, 15, 12⟩
def DEV_QSPI_CTRL_LEN : RF := ⟨R.DEV_QSPI_CTRL, 11, 8⟩
def DEV_QSPI_CTRL_WRITE : RF := ⟨R.DEV_QSPI_CTRL, 7, 7⟩
def DEV_QSPI_DATA_DATA : RF := ⟨R.DEV_QSPI_DATA, 63, 0⟩
def FUSE_BOOT_KEY_HASH (k i : Nat) : RF := ⟨R.FUSE_BOOT_KEY k i, 63, 0⟩
def FUSE_BOOT_CFG_MIN_VERSION : RF := ⟨R.FUSE_BOOT_CFG, 13, 8⟩
def FUSE_BOOT_CFG_REVOKE : RF := ⟨R.FUSE_BOOT_CFG, 3, 0⟩
def MGMT_CFG_EN : RF := ⟨R.MGMT_CFG, 31, 31⟩
def MGMT_CFG_SPEED : RF := ⟨R.MGMT_CFG, 7, 6⟩
def MGMT_CFG_PAUSE_RX : RF := ⟨R.MGMT_CFG, 5, 5⟩
def MGMT_CFG_ALLMULTI : RF := ⟨R.MGMT_CFG, 4, 4⟩
def MGMT_CFG_PROMISC : RF := ⟨R.MGMT_CFG, 3, 3⟩
def MGMT_CFG_RXID : RF := ⟨R.MGMT_CFG, 2, 2⟩
def MGMT_CFG_TXID : RF := ⟨R.MGMT_CFG, 1, 1⟩
def MGMT_CFG_IF : RF := ⟨R.MGMT_CFG, 0, 0⟩
def MGMT_STATUS_IRQ_EN : RF := ⟨R.MGMT_STATUS, 20, 16⟩
def MGMT_STATUS_TX_ERR : RF := ⟨R.MGMT_STATUS, 8, 8⟩
def MGMT_STATUS_RX_DROP : RF := ⟨R.MGMT_STATUS, 7, 7⟩
def MGMT_STATUS_TX_DONE : RF := ⟨R.MGMT_STATUS, 6, 6⟩
def MGMT_STATUS_RX_DONE : RF := ⟨R.MGMT_STATUS, 5, 5⟩
def MGMT_STATUS_LINK_CHG : RF := ⟨R.MGMT_STATUS, 4, 4⟩
def MGMT_STATUS_HALF : RF := ⟨R.MGMT_STATUS, 3, 3⟩
def MGMT_STATUS_SPEED : RF := ⟨R.MGMT_STATUS, 2, 1⟩
def MGMT_STATUS_LINK : RF := ⟨R.MGMT_STATUS, 0, 0⟩
def MGMT_MAC_ADDR_ADDR : RF := ⟨R.MGMT_MAC_ADDR, 47, 0⟩
def MGMT_RING_LOG_N (r : Nat) : RF := ⟨R.MGMT_RING r, 44, 40⟩
def MGMT_RING_BASE (r : Nat) : RF := ⟨R.MGMT_RING r, 39, 4⟩
def MGMT_PTR_KICK (r : Nat) : RF := ⟨R.MGMT_PTR r, 31, 31⟩
def MGMT_PTR_WAITING (r : Nat) : RF := ⟨R.MGMT_PTR r, 30, 30⟩
def MGMT_PTR_INDEX (r : Nat) : RF := ⟨R.MGMT_PTR r, 15, 0⟩
def MGMT_MDIO_GO : RF := ⟨R.MGMT_MDIO, 31, 31⟩
def MGMT_MDIO_C45 : RF := ⟨R.MGMT_MDIO, 30, 30⟩
def MGMT_MDIO_OP : RF := ⟨R.MGMT_MDIO, 29, 28⟩
def MGMT_MDIO_PHYAD : RF := ⟨R.MGMT_MDIO, 25, 21⟩
def MGMT_MDIO_REG : RF := ⟨R.MGMT_MDIO, 20, 16⟩
def MGMT_MDIO_DATA : RF := ⟨R.MGMT_MDIO, 15, 0⟩
def MGMT_CNT_COUNT (i : Nat) : RF := ⟨R.MGMT_CNT i, 31, 0⟩
def SMU_STATUS_SEAL_GEN : RF := ⟨R.SMU_STATUS, 31, 28⟩
def SMU_STATUS_SEAL : RF := ⟨R.SMU_STATUS, 27, 26⟩
def SMU_STATUS_VX4M : RF := ⟨R.SMU_STATUS, 25, 25⟩
def SMU_STATUS_TIME_BAD : RF := ⟨R.SMU_STATUS, 3, 3⟩
def SMU_STATUS_STATE : RF := ⟨R.SMU_STATUS, 2, 0⟩
def SMU_EVENTS_CMD_REFUSED : RF := ⟨R.SMU_EVENTS, 7, 7⟩
def SMU_EVENTS_EVR_LOST : RF := ⟨R.SMU_EVENTS, 6, 6⟩
def SMU_EVENTS_SEAL_CHANGE : RF := ⟨R.SMU_EVENTS, 5, 5⟩
def SMU_EVENTS_STORE_WRAP : RF := ⟨R.SMU_EVENTS, 4, 4⟩
def SMU_EVENTS_LATE : RF := ⟨R.SMU_EVENTS, 3, 3⟩
def SMU_EVENTS_TIME_BAD : RF := ⟨R.SMU_EVENTS, 2, 2⟩
def SMU_EVENTS_TAP_DROP : RF := ⟨R.SMU_EVENTS, 1, 1⟩
def SMU_EVENTS_FW_BAD : RF := ⟨R.SMU_EVENTS, 0, 0⟩
def SMU_CMD_OP : RF := ⟨R.SMU_CMD, 63, 56⟩
def SMU_CMD_ARG : RF := ⟨R.SMU_CMD, 43, 32⟩
def SMU_CMD_CHECK : RF := ⟨R.SMU_CMD, 31, 0⟩
def SMU_CFG_EN : RF := ⟨R.SMU_CFG, 63, 63⟩
def SMU_CFG_POWER_DIV_M1 : RF := ⟨R.SMU_CFG, 55, 48⟩
def SMU_CFG_CLOSE_MS : RF := ⟨R.SMU_CFG, 47, 32⟩
def SMU_CFG_REF_STREAM : RF := ⟨R.SMU_CFG, 28, 16⟩
def SMU_CFG_FRAME_OFFSET : RF := ⟨R.SMU_CFG, 11, 0⟩
def SMU_TIME_CFG_SC_RATE16 : RF := ⟨R.SMU_TIME_CFG, 63, 32⟩
def SMU_TIME_CFG_SC_TOL : RF := ⟨R.SMU_TIME_CFG, 31, 16⟩
def SMU_TIME_CFG_PPS_TOL : RF := ⟨R.SMU_TIME_CFG, 15, 0⟩
def SMU_REC_HEAD_SEQ : RF := ⟨R.SMU_REC_HEAD, 63, 32⟩
def SMU_REC_HEAD_OFF : RF := ⟨R.SMU_REC_HEAD, 18, 0⟩
def SMU_REC_TAIL_SEQ : RF := ⟨R.SMU_REC_TAIL, 63, 32⟩
def SMU_REC_TAIL_OFF : RF := ⟨R.SMU_REC_TAIL, 18, 0⟩
def SMU_KEY_ID_KEY_ID : RF := ⟨R.SMU_KEY_ID, 63, 0⟩
def SMU_BOOT_COUNT : RF := ⟨R.SMU_BOOT, 31, 0⟩
def SMU_FW_ID_FW_ID : RF := ⟨R.SMU_FW_ID, 31, 0⟩
def SMU_CFG_HASH_HASH (i : Nat) : RF := ⟨R.SMU_CFG_HASH i, 63, 0⟩
def SMU_CNT_COUNT (i : Nat) : RF := ⟨R.SMU_CNT i, 31, 0⟩
def SMU_OCC_EN (k : Nat) : RF := ⟨R.SMU_OCC k, 63, 63⟩
def SMU_OCC_STREAM (k : Nat) : RF := ⟨R.SMU_OCC k, 44, 32⟩
def SMU_OCC_CH_COUNT_M1 (k : Nat) : RF := ⟨R.SMU_OCC k, 27, 16⟩
def SMU_OCC_CH_FIRST (k : Nat) : RF := ⟨R.SMU_OCC k, 11, 0⟩
def SMU_SEL_SELECT (w : Nat) : RF := ⟨R.SMU_SEL w, 31, 0⟩
def SMU_THR_THR_ODD (w : Nat) : RF := ⟨R.SMU_THR w, 31, 16⟩
def SMU_THR_THR_EVEN (w : Nat) : RF := ⟨R.SMU_THR w, 15, 0⟩
def SMU_NOTE_IRQ_EN : RF := ⟨R.SMU_NOTE, 18, 16⟩
def SMU_NOTE_ALERT : RF := ⟨R.SMU_NOTE, 2, 2⟩
def SMU_NOTE_SEAL : RF := ⟨R.SMU_NOTE, 1, 1⟩
def SMU_NOTE_RECORD : RF := ⟨R.SMU_NOTE, 0, 0⟩
def MON_CFG_EN (n : Nat) : RF := ⟨R.MON_CFG n, 31, 31⟩
def MON_CFG_TARGET (n : Nat) : RF := ⟨R.MON_CFG n, 30, 25⟩
def MON_CFG_IN_MIX (n : Nat) : RF := ⟨R.MON_CFG n, 24, 24⟩
def MON_CFG_GAIN (n : Nat) : RF := ⟨R.MON_CFG n, 23, 20⟩
def MON_CFG_STAGES (n : Nat) : RF := ⟨R.MON_CFG n, 19, 16⟩
def MON_CFG_MINPHASE (n : Nat) : RF := ⟨R.MON_CFG n, 15, 15⟩
def MON_CFG_MONO (n : Nat) : RF := ⟨R.MON_CFG n, 14, 14⟩
def MON_CFG_RATE (n : Nat) : RF := ⟨R.MON_CFG n, 13, 13⟩
def MON_SRC_KIND (n : Nat) : RF := ⟨R.MON_SRC n, 31, 31⟩
def MON_SRC_INDEX (n : Nat) : RF := ⟨R.MON_SRC n, 24, 12⟩
def MON_SRC_CHANNEL (n : Nat) : RF := ⟨R.MON_SRC n, 11, 0⟩
def MON_NCO_FREQ (n : Nat) : RF := ⟨R.MON_NCO n, 31, 0⟩
def MON_RATIO_INC (n : Nat) : RF := ⟨R.MON_RATIO n, 33, 0⟩
def MON_CTRL_STOP (n : Nat) : RF := ⟨R.MON_CTRL n, 1, 1⟩
def MON_CTRL_START (n : Nat) : RF := ⟨R.MON_CTRL n, 0, 0⟩
def MON_STATUS_FILL (n : Nat) : RF := ⟨R.MON_STATUS n, 30, 16⟩
def MON_STATUS_STATE (n : Nat) : RF := ⟨R.MON_STATUS n, 2, 0⟩
def MON_EVENTS_IRQ_EN (n : Nat) : RF := ⟨R.MON_EVENTS n, 21, 16⟩
def MON_EVENTS_BAD_CFG (n : Nat) : RF := ⟨R.MON_EVENTS n, 5, 5⟩
def MON_EVENTS_GAP (n : Nat) : RF := ⟨R.MON_EVENTS n, 4, 4⟩
def MON_EVENTS_ZC_TIMEOUT (n : Nat) : RF := ⟨R.MON_EVENTS n, 3, 3⟩
def MON_EVENTS_CLIP (n : Nat) : RF := ⟨R.MON_EVENTS n, 2, 2⟩
def MON_EVENTS_OVERRUN (n : Nat) : RF := ⟨R.MON_EVENTS n, 1, 1⟩
def MON_EVENTS_UNDERRUN (n : Nat) : RF := ⟨R.MON_EVENTS n, 0, 0⟩
def MON_CNT_COUNT (n i : Nat) : RF := ⟨R.MON_CNT n i, 31, 0⟩
def MON_CS_BYTES (n w : Nat) : RF := ⟨R.MON_CS n w, 31, 0⟩
def MON_IN_STATUS_CS_BYTE0 : RF := ⟨R.MON_IN_STATUS, 31, 24⟩
def MON_IN_STATUS_IRQ_EN : RF := ⟨R.MON_IN_STATUS, 22, 20⟩
def MON_IN_STATUS_SLIP : RF := ⟨R.MON_IN_STATUS, 6, 6⟩
def MON_IN_STATUS_CRC_BAD : RF := ⟨R.MON_IN_STATUS, 5, 5⟩
def MON_IN_STATUS_NONAUDIO_SEEN : RF := ⟨R.MON_IN_STATUS, 4, 4⟩
def MON_IN_STATUS_MUTED : RF := ⟨R.MON_IN_STATUS, 2, 2⟩
def MON_IN_STATUS_PRO : RF := ⟨R.MON_IN_STATUS, 1, 1⟩
def MON_IN_STATUS_LOCK : RF := ⟨R.MON_IN_STATUS, 0, 0⟩
def HK_CFG_EN : RF := ⟨R.HK_CFG, 31, 31⟩
def HK_CFG_NOTCH : RF := ⟨R.HK_CFG, 5, 4⟩
def HK_CFG_DECIM : RF := ⟨R.HK_CFG, 3, 2⟩
def HK_CFG_ORDER : RF := ⟨R.HK_CFG, 1, 0⟩
def HK_SEQ_EN_EN : RF := ⟨R.HK_SEQ_EN, 23, 0⟩
def HK_STATUS_IRQ_EN : RF := ⟨R.HK_STATUS, 18, 16⟩
def HK_STATUS_CURRENT : RF := ⟨R.HK_STATUS, 12, 8⟩
def HK_STATUS_URGENT_BUSY : RF := ⟨R.HK_STATUS, 3, 3⟩
def HK_STATUS_SCAN_DONE : RF := ⟨R.HK_STATUS, 2, 2⟩
def HK_STATUS_REFUSED : RF := ⟨R.HK_STATUS, 1, 1⟩
def HK_STATUS_URGENT_DONE : RF := ⟨R.HK_STATUS, 0, 0⟩
def HK_URGENT_GO : RF := ⟨R.HK_URGENT, 31, 31⟩
def HK_URGENT_INPUT : RF := ⟨R.HK_URGENT, 4, 0⟩
def HK_URGENT_RESULT_VALID : RF := ⟨R.HK_URGENT_RESULT, 31, 31⟩
def HK_URGENT_RESULT_INPUT : RF := ⟨R.HK_URGENT_RESULT, 28, 24⟩
def HK_URGENT_RESULT_CODE : RF := ⟨R.HK_URGENT_RESULT, 15, 0⟩
def HK_RESULT_VALID (i : Nat) : RF := ⟨R.HK_RESULT i, 31, 31⟩
def HK_RESULT_COUNT (i : Nat) : RF := ⟨R.HK_RESULT i, 23, 16⟩
def HK_RESULT_CODE (i : Nat) : RF := ⟨R.HK_RESULT i, 15, 0⟩
def EVR_EVENTS_IRQ_EN : RF := ⟨R.EVR_EVENTS, 19, 16⟩
def EVR_EVENTS_ONCE_FULL : RF := ⟨R.EVR_EVENTS, 4, 4⟩
def EVR_EVENTS_REFUSED : RF := ⟨R.EVR_EVENTS, 3, 3⟩
def EVR_EVENTS_LOST : RF := ⟨R.EVR_EVENTS, 2, 2⟩
def EVR_EVENTS_SMU : RF := ⟨R.EVR_EVENTS, 1, 1⟩
def EVR_EVENTS_APPENDED : RF := ⟨R.EVR_EVENTS, 0, 0⟩
def EVR_POWER_CYCLES_COUNT : RF := ⟨R.EVR_POWER_CYCLES, 31, 0⟩
def EVR_OP_TIME_HOURS : RF := ⟨R.EVR_OP_TIME, 35, 12⟩
def EVR_OP_TIME_SEC : RF := ⟨R.EVR_OP_TIME, 11, 0⟩
def EVR_HEAD_OFFSET : RF := ⟨R.EVR_HEAD, 19, 0⟩
def EVR_OLDEST_OFFSET : RF := ⟨R.EVR_OLDEST, 19, 0⟩
def EVR_ONCE_NEXT_OFFSET : RF := ⟨R.EVR_ONCE_NEXT, 18, 0⟩
def EVR_LOST_CNT_COUNT : RF := ⟨R.EVR_LOST_CNT, 31, 0⟩
def EVR_APPEND_TYPE : RF := ⟨R.EVR_APPEND, 15, 8⟩
def EVR_APPEND_FULL : RF := ⟨R.EVR_APPEND, 7, 7⟩
def EVR_APPEND_LEN_U : RF := ⟨R.EVR_APPEND, 6, 0⟩
def EVR_WIN_SEL_HALF : RF := ⟨R.EVR_WIN_SEL, 0, 0⟩
def EVR_SW_BUF_BYTES (i : Nat) : RF := ⟨R.EVR_SW_BUF i, 63, 0⟩
def EVR_STORE_DATA (w : Nat) : RF := ⟨R.EVR_STORE w, 63, 0⟩
def EGR_LINK_FAIL_GROUP : RF := ⟨R.EGR_LINK_FAIL, 31, 0⟩
def FO_CFG_EN : RF := ⟨R.FO_CFG, 63, 63⟩
def FO_CFG_PAIR_ID : RF := ⟨R.FO_CFG, 55, 48⟩
def FO_CFG_C2C : RF := ⟨R.FO_CFG, 44, 40⟩
def FO_CFG_WAIT : RF := ⟨R.FO_CFG, 39, 32⟩
def FO_CFG_GROUPS : RF := ⟨R.FO_CFG, 31, 0⟩
def FO_STATUS_HO_COUNT : RF := ⟨R.FO_STATUS, 31, 16⟩
def FO_STATUS_WINDOWS : RF := ⟨R.FO_STATUS, 5, 4⟩
def FO_STATUS_REQ : RF := ⟨R.FO_STATUS, 3, 3⟩
def FO_STATUS_ROLE : RF := ⟨R.FO_STATUS, 2, 0⟩
def FO_EVENTS_IRQ_EN : RF := ⟨R.FO_EVENTS, 19, 16⟩
def FO_EVENTS_WINDOW_LOST : RF := ⟨R.FO_EVENTS, 3, 3⟩
def FO_EVENTS_SEQ_MISMATCH : RF := ⟨R.FO_EVENTS, 2, 2⟩
def FO_EVENTS_ALONE : RF := ⟨R.FO_EVENTS, 1, 1⟩
def FO_EVENTS_SWITCHED : RF := ⟨R.FO_EVENTS, 0, 0⟩
def FO_LAST_GAP : RF := ⟨R.FO_LAST, 63, 48⟩
def FO_LAST_F_HO : RF := ⟨R.FO_LAST, 47, 0⟩
def FO_LAST_NEXT_NEXT_DUMP : RF := ⟨R.FO_LAST_NEXT, 31, 0⟩
def FO_SUPP_CNT_COUNT : RF := ⟨R.FO_SUPP_CNT, 31, 0⟩
def FO_WIN_LO_VALID (w : Nat) : RF := ⟨R.FO_WIN_LO w, 63, 63⟩
def FO_WIN_LO_L (w : Nat) : RF := ⟨R.FO_WIN_LO w, 47, 0⟩
def FO_WIN_HI_H (w : Nat) : RF := ⟨R.FO_WIN_HI w, 47, 0⟩
def DEV_STATUS_IRQ_EN : RF := ⟨R.DEV_STATUS, 21, 16⟩
def DEV_STATUS_SMU_RUN : RF := ⟨R.DEV_STATUS, 5, 5⟩
def DEV_STATUS_TIME_LOCKED : RF := ⟨R.DEV_STATUS, 4, 4⟩
def DEV_STATUS_LINK_FAIL : RF := ⟨R.DEV_STATUS, 3, 3⟩
def DEV_STATUS_PATTERN_ACTIVE : RF := ⟨R.DEV_STATUS, 2, 2⟩
def DEV_STATUS_DEGRADED : RF := ⟨R.DEV_STATUS, 1, 1⟩
def DEV_STATUS_DRAM_CHANNEL_LOST : RF := ⟨R.DEV_STATUS, 0, 0⟩
def FUSE_PART_CODE_ORDER : RF := ⟨R.FUSE_PART_CODE, 1, 0⟩
end F
end Sys2Proof.Machine
end

