-- ==== Sys2Proof/Machine/RegTable.lean ====
section
/-! DEFINITION. The register tables as data: for each register its base, its instance dimensions (count, step),
its width, whether it requires whole-width writes (R500), and its fields with their access types (R15). The bus
resolves an address through these rows (Machine/Registers.lean). -/
namespace Sys2Proof.Machine

/-- Registers of block DEV, part 0. -/
def rowsDEV0 : List RegDef := [
  ⟨.DEV_ID, 0xf000000000, [], 32, false, [⟨31, 16, .ro⟩, ⟨15, 8, .ro⟩, ⟨7, 4, .ro⟩, ⟨3, 0, .ro⟩]⟩,
  ⟨.DEV_STATUS, 0xf000000004, [], 32, false, [⟨21, 16, .rw⟩, ⟨5, 5, .ro⟩, ⟨4, 4, .ro⟩, ⟨3, 3, .ro⟩, ⟨2, 2, .ro⟩, ⟨1, 1, .ro⟩, ⟨0, 0, .w1c⟩]⟩,
  ⟨.DEV_MODE, 0xf000000008, [], 32, false, [⟨15, 8, .ro⟩, ⟨2, 0, .ro⟩]⟩,
  ⟨.DEV_TEST_CFG, 0xf000000010, [], 32, false, [⟨17, 16, .ro⟩, ⟨15, 8, .ro⟩, ⟨7, 0, .ro⟩]⟩,
  ⟨.DEV_DRAIN_AT, 0xf000000100, [], 64, true, [⟨55, 48, .rw⟩, ⟨47, 0, .rw⟩]⟩,
  ⟨.DEV_DRAIN_STATUS, 0xf000000108, [], 32, false, [⟨11, 11, .w1c⟩, ⟨10, 10, .w1c⟩, ⟨9, 9, .w1c⟩, ⟨8, 8, .w1c⟩, ⟨2, 0, .ro⟩]⟩,
  ⟨.DEV_DRAIN_DONE_AT, 0xf000000110, [], 64, false, [⟨47, 0, .ro⟩]⟩,
  ⟨.DEV_CORE_CTRL, 0xf000000200, [], 32, false, [⟨7, 0, .rw⟩]⟩,
  ⟨.DEV_CORE_RVEC, 0xf000000208, [], 64, true, [⟨39, 2, .rw⟩]⟩,
  ⟨.DEV_BOOT, 0xf000000210, [], 32, false, [⟨15, 12, .ro⟩, ⟨11, 8, .ro⟩, ⟨4, 4, .ro⟩, ⟨1, 0, .ro⟩]⟩,
  ⟨.DEV_L2_CTRL, 0xf000000218, [], 32, false, [⟨1, 1, .ro⟩, ⟨0, 0, .w1c⟩]⟩,
  ⟨.DEV_QSPI_CTRL, 0xf000000220, [], 64, true, [⟨63, 63, .w1s⟩, ⟨57, 57, .rw⟩, ⟨56, 56, .rw⟩, ⟨55, 48, .rw⟩, ⟨39, 16, .rw⟩, ⟨15, 12, .rw⟩, ⟨11, 8, .rw⟩, ⟨7, 7, .rw⟩]⟩]
/-- Registers of block DEV, part 1. -/
def rowsDEV1 : List RegDef := [
  ⟨.DEV_QSPI_DATA, 0xf000000228, [], 64, false, [⟨63, 0, .rw⟩]⟩,
  ⟨.DEV_ISL_RESET, 0xf000000300, [], 32, false, [⟨9, 9, .rw⟩, ⟨8, 8, .rw⟩, ⟨7, 0, .rw⟩]⟩]
/-- Registers of block FUSE, part 0. -/
def rowsFUSE0 : List RegDef := [
  ⟨.FUSE_PART_CODE, 0xf000100000, [], 32, false, [⟨1, 0, .ro⟩]⟩,
  ⟨.FUSE_BOOT_KEY, 0xf000100400, [(4, 0x40), (6, 0x8)], 64, false, [⟨63, 0, .ro⟩]⟩,
  ⟨.FUSE_BOOT_CFG, 0xf000100500, [], 32, false, [⟨13, 8, .ro⟩, ⟨3, 0, .ro⟩]⟩,
  ⟨.FUSE_REPAIR, 0xf000101000, [(64, 0x4)], 32, false, [⟨31, 31, .ro⟩, ⟨30, 30, .ro⟩, ⟨29, 22, .ro⟩, ⟨21, 21, .ro⟩, ⟨20, 8, .ro⟩, ⟨7, 4, .ro⟩]⟩,
  ⟨.FUSE_REPAIR_PROG, 0xf000101100, [], 64, true, [⟨37, 32, .rw⟩, ⟨29, 22, .rw⟩, ⟨21, 21, .rw⟩, ⟨20, 8, .rw⟩, ⟨7, 4, .rw⟩, ⟨0, 0, .w1s⟩]⟩,
  ⟨.FUSE_REPAIR_STATUS, 0xf000101108, [], 32, false, [⟨8, 8, .ro⟩, ⟨1, 1, .w1c⟩, ⟨0, 0, .w1c⟩]⟩]
/-- Registers of block EVR, part 0. -/
def rowsEVR0 : List RegDef := [
  ⟨.EVR_EVENTS, 0xf000200000, [], 32, false, [⟨19, 16, .rw⟩, ⟨4, 4, .ro⟩, ⟨3, 3, .w1c⟩, ⟨2, 2, .w1c⟩, ⟨1, 1, .w1c⟩, ⟨0, 0, .w1c⟩]⟩,
  ⟨.EVR_POWER_CYCLES, 0xf000200008, [], 32, false, [⟨31, 0, .ro⟩]⟩,
  ⟨.EVR_OP_TIME, 0xf000200010, [], 64, false, [⟨35, 12, .ro⟩, ⟨11, 0, .ro⟩]⟩,
  ⟨.EVR_HEAD, 0xf000200018, [], 32, false, [⟨19, 0, .ro⟩]⟩,
  ⟨.EVR_OLDEST, 0xf00020001c, [], 32, false, [⟨19, 0, .ro⟩]⟩,
  ⟨.EVR_ONCE_NEXT, 0xf000200020, [], 32, false, [⟨18, 0, .ro⟩]⟩,
  ⟨.EVR_LOST_CNT, 0xf000200024, [], 32, false, [⟨31, 0, .ro⟩]⟩,
  ⟨.EVR_APPEND, 0xf000200028, [], 64, true, [⟨15, 8, .wo⟩, ⟨7, 7, .wo⟩, ⟨6, 0, .wo⟩]⟩,
  ⟨.EVR_WIN_SEL, 0xf000200030, [], 32, false, [⟨0, 0, .rw⟩]⟩,
  ⟨.EVR_SW_BUF, 0xf000201000, [(128, 0x8)], 64, false, [⟨63, 0, .rw⟩]⟩,
  ⟨.EVR_STORE, 0xf000280000, [(65536, 0x8)], 64, false, [⟨63, 0, .ro⟩]⟩]
/-- Registers of block HK, part 0. -/
def rowsHK0 : List RegDef := [
  ⟨.HK_CFG, 0xf000300000, [], 32, false, [⟨31, 31, .rw⟩, ⟨5, 4, .rw⟩, ⟨3, 2, .rw⟩, ⟨1, 0, .rw⟩]⟩,
  ⟨.HK_SEQ_EN, 0xf000300004, [], 32, false, [⟨23, 0, .rw⟩]⟩,
  ⟨.HK_STATUS, 0xf000300008, [], 32, false, [⟨18, 16, .rw⟩, ⟨12, 8, .ro⟩, ⟨3, 3, .ro⟩, ⟨2, 2, .w1c⟩, ⟨1, 1, .w1c⟩, ⟨0, 0, .w1c⟩]⟩,
  ⟨.HK_URGENT, 0xf00030000c, [], 32, false, [⟨31, 31, .w1s⟩, ⟨4, 0, .rw⟩]⟩,
  ⟨.HK_URGENT_RESULT, 0xf000300010, [], 32, false, [⟨31, 31, .ro⟩, ⟨28, 24, .ro⟩, ⟨15, 0, .ro⟩]⟩,
  ⟨.HK_RESULT, 0xf000300100, [(24, 0x4)], 32, false, [⟨31, 31, .ro⟩, ⟨23, 16, .ro⟩, ⟨15, 0, .ro⟩]⟩]
/-- Registers of block TIM, part 0. -/
def rowsTIM0 : List RegDef := [
  ⟨.TIM_CTRL, 0xf000400000, [], 32, false, [⟨15, 12, .rw⟩, ⟨8, 8, .rw⟩, ⟨7, 6, .rw⟩, ⟨5, 5, .rw⟩, ⟨4, 4, .rw⟩, ⟨3, 3, .w1s⟩, ⟨2, 1, .rw⟩, ⟨0, 0, .w1s⟩]⟩,
  ⟨.TIM_STATUS, 0xf000400004, [], 32, false, [⟨19, 19, .ro⟩, ⟨18, 18, .ro⟩, ⟨17, 17, .ro⟩, ⟨16, 16, .ro⟩, ⟨15, 12, .ro⟩, ⟨11, 8, .ro⟩, ⟨7, 4, .ro⟩, ⟨2, 0, .ro⟩]⟩,
  ⟨.TIM_HISTORY, 0xf000400008, [], 32, false, [⟨25, 16, .rw⟩, ⟨9, 9, .w1c⟩, ⟨8, 8, .w1c⟩, ⟨7, 7, .w1c⟩, ⟨6, 6, .w1c⟩, ⟨5, 5, .w1c⟩, ⟨4, 0, .w1c⟩]⟩,
  ⟨.TIM_SEL_CFG, 0xf00040000c, [], 32, false, [⟨23, 16, .rw⟩, ⟨15, 12, .rw⟩, ⟨11, 0, .rw⟩]⟩,
  ⟨.TIM_ARB_CFG, 0xf000400010, [], 32, false, [⟨31, 16, .rw⟩, ⟨15, 12, .rw⟩, ⟨11, 0, .rw⟩]⟩,
  ⟨.TIM_QTX, 0xf000400014, [], 32, false, [⟨8, 8, .rw⟩, ⟨7, 4, .rw⟩, ⟨3, 0, .rw⟩]⟩,
  ⟨.TIM_LREF, 0xf000400018, [], 32, false, [⟨31, 0, .rw⟩]⟩,
  ⟨.TIM_PTP_REF, 0xf00040001c, [], 32, false, [⟨15, 8, .rw⟩, ⟨4, 4, .rw⟩, ⟨3, 0, .rw⟩]⟩,
  ⟨.TIM_TIME_LOAD_SEC, 0xf000400020, [], 64, true, [⟨47, 0, .rw⟩]⟩,
  ⟨.TIM_TIME_LOAD_NS, 0xf000400028, [], 32, false, [⟨31, 0, .rw⟩]⟩,
  ⟨.TIM_PPS_OUT, 0xf00040002c, [], 32, false, [⟨31, 31, .rw⟩, ⟨30, 30, .rw⟩, ⟨19, 0, .rw⟩]⟩,
  ⟨.TIM_SNAP_SEC, 0xf000400030, [], 64, false, [⟨47, 0, .ro⟩]⟩]
/-- Registers of block TIM, part 1. -/
def rowsTIM1 : List RegDef := [
  ⟨.TIM_SNAP_NSF, 0xf000400038, [], 64, false, [⟨63, 32, .ro⟩, ⟨31, 0, .ro⟩]⟩,
  ⟨.TIM_INCREMENT, 0xf000400040, [], 64, true, [⟨63, 0, .rw⟩]⟩,
  ⟨.TIM_HOLD_EST, 0xf000400048, [], 64, false, [⟨63, 0, .ro⟩]⟩,
  ⟨.TIM_PHASE_STEP, 0xf000400050, [], 32, false, [⟨31, 0, .wo⟩]⟩,
  ⟨.TIM_PHASE_PEND, 0xf000400058, [], 64, false, [⟨63, 40, .ro⟩, ⟨39, 0, .ro⟩]⟩,
  ⟨.TIM_REF_CFG, 0xf000400100, [(11, 0x10)], 64, false, [⟨63, 32, .rw⟩, ⟨9, 9, .rw⟩, ⟨8, 8, .rw⟩, ⟨7, 4, .rw⟩, ⟨3, 0, .rw⟩]⟩,
  ⟨.TIM_REF_STATUS, 0xf000400108, [(11, 0x10)], 32, false, [⟨8, 8, .ro⟩, ⟨7, 4, .ro⟩, ⟨3, 1, .ro⟩, ⟨0, 0, .ro⟩]⟩,
  ⟨.TIM_REF_FREQ, 0xf00040010c, [(11, 0x10)], 32, false, [⟨31, 0, .ro⟩]⟩,
  ⟨.TIM_FO_CFG, 0xf000400200, [(4, 0x10)], 32, false, [⟨31, 8, .rw⟩, ⟨3, 3, .w1s⟩, ⟨2, 1, .rw⟩, ⟨0, 0, .rw⟩]⟩,
  ⟨.TIM_FO_OFFSET, 0xf000400204, [(4, 0x10)], 32, false, [⟨31, 0, .rw⟩]⟩,
  ⟨.TIM_FO_PERIOD, 0xf000400208, [(4, 0x10)], 64, false, [⟨47, 0, .rw⟩]⟩]
/-- Registers of block PTP, part 0. -/
def rowsPTP0 : List RegDef := [
  ⟨.PTP_STATUS, 0xf000500000, [], 32, false, [⟨24, 24, .rw⟩, ⟨17, 17, .w1c⟩, ⟨16, 16, .w1c⟩, ⟨8, 0, .ro⟩]⟩,
  ⟨.PTP_TS_POP, 0xf000500008, [], 64, false, [⟨63, 63, .pop⟩, ⟨62, 62, .pop⟩, ⟨61, 61, .pop⟩, ⟨60, 54, .pop⟩, ⟨53, 50, .pop⟩, ⟨47, 40, .pop⟩, ⟨31, 16, .pop⟩]⟩,
  ⟨.PTP_TS_SEC, 0xf000500010, [], 64, false, [⟨47, 0, .ro⟩]⟩,
  ⟨.PTP_TS_NSF, 0xf000500018, [], 64, false, [⟨63, 32, .ro⟩, ⟨31, 0, .ro⟩]⟩,
  ⟨.PTP_TS_CSEC, 0xf000500020, [], 64, false, [⟨47, 0, .ro⟩]⟩,
  ⟨.PTP_TS_CNSF, 0xf000500028, [], 64, false, [⟨63, 32, .ro⟩, ⟨31, 0, .ro⟩]⟩,
  ⟨.PTP_LANE_TX, 0xf000500030, [], 64, true, [⟨39, 32, .wo⟩, ⟨31, 16, .wo⟩, ⟨9, 8, .wo⟩, ⟨6, 0, .wo⟩]⟩,
  ⟨.PTP_PORT_CFG, 0xf000501000, [(97, 0x10)], 64, false, [⟨63, 32, .rw⟩, ⟨1, 1, .rw⟩, ⟨0, 0, .rw⟩]⟩,
  ⟨.PTP_PORT_LAT, 0xf000501008, [(97, 0x10)], 64, false, [⟨63, 32, .rw⟩, ⟨31, 0, .rw⟩]⟩]
/-- Registers of block MGMT, part 0. -/
def rowsMGMT0 : List RegDef := [
  ⟨.MGMT_CFG, 0xf000600000, [], 32, false, [⟨31, 31, .rw⟩, ⟨7, 6, .rw⟩, ⟨5, 5, .rw⟩, ⟨4, 4, .rw⟩, ⟨3, 3, .rw⟩, ⟨2, 2, .rw⟩, ⟨1, 1, .rw⟩, ⟨0, 0, .rw⟩]⟩,
  ⟨.MGMT_STATUS, 0xf000600004, [], 32, false, [⟨20, 16, .rw⟩, ⟨8, 8, .w1c⟩, ⟨7, 7, .w1c⟩, ⟨6, 6, .w1c⟩, ⟨5, 5, .w1c⟩, ⟨4, 4, .w1c⟩, ⟨3, 3, .ro⟩, ⟨2, 1, .ro⟩, ⟨0, 0, .ro⟩]⟩,
  ⟨.MGMT_MAC_ADDR, 0xf000600008, [], 64, false, [⟨47, 0, .rw⟩]⟩,
  ⟨.MGMT_RING, 0xf000600010, [(2, 0x8)], 64, false, [⟨44, 40, .rw⟩, ⟨39, 4, .rw⟩]⟩,
  ⟨.MGMT_PTR, 0xf000600020, [(2, 0x4)], 32, false, [⟨31, 31, .w1s⟩, ⟨30, 30, .ro⟩, ⟨15, 0, .ro⟩]⟩,
  ⟨.MGMT_MDIO, 0xf000600028, [], 32, false, [⟨31, 31, .w1s⟩, ⟨30, 30, .rw⟩, ⟨29, 28, .rw⟩, ⟨25, 21, .rw⟩, ⟨20, 16, .rw⟩, ⟨15, 0, .rw⟩]⟩,
  ⟨.MGMT_CNT, 0xf000600040, [(8, 0x4)], 32, false, [⟨31, 0, .ro⟩]⟩]
/-- Registers of block HTIM, part 0. -/
def rowsHTIM0 : List RegDef := [
  ⟨.HTIM_TIME, 0xf000700000, [], 64, false, [⟨63, 0, .rw⟩]⟩,
  ⟨.HTIM_CMP, 0xf000700100, [(8, 0x10)], 64, false, [⟨63, 0, .rw⟩]⟩,
  ⟨.HTIM_SWI, 0xf000700108, [(8, 0x10)], 32, false, [⟨0, 0, .rw⟩]⟩]
/-- Registers of block LANE, part 0. -/
def rowsLANE0 : List RegDef := [
  ⟨.LANE_CFG, 0xf000800000, [(96, 0x1000)], 32, false, [⟨12, 8, .rwl⟩, ⟨5, 5, .rwl⟩, ⟨4, 4, .rwl⟩, ⟨3, 2, .rwl⟩, ⟨1, 0, .rwl⟩]⟩,
  ⟨.LANE_CTRL, 0xf000800004, [(96, 0x1000)], 32, false, [⟨23, 16, .rw⟩, ⟨3, 3, .rw⟩, ⟨2, 2, .rw⟩, ⟨1, 1, .w1s⟩, ⟨0, 0, .w1s⟩]⟩,
  ⟨.LANE_STATE, 0xf000800008, [(96, 0x1000)], 32, false, [⟨8, 8, .ro⟩, ⟨7, 7, .ro⟩, ⟨6, 6, .ro⟩, ⟨5, 5, .ro⟩, ⟨4, 4, .ro⟩, ⟨2, 0, .ro⟩]⟩,
  ⟨.LANE_EVENTS, 0xf00080000c, [(96, 0x1000)], 32, false, [⟨7, 7, .w1c⟩, ⟨6, 6, .w1c⟩, ⟨5, 5, .w1c⟩, ⟨4, 4, .w1c⟩, ⟨3, 3, .w1c⟩, ⟨2, 2, .w1c⟩, ⟨1, 1, .w1c⟩, ⟨0, 0, .w1c⟩]⟩,
  ⟨.LANE_TX_EQ, 0xf000800010, [(96, 0x1000)], 32, false, [⟨29, 24, .ro⟩, ⟨21, 16, .ro⟩, ⟨13, 8, .ro⟩, ⟨2, 0, .rw⟩]⟩,
  ⟨.LANE_RX_EQ, 0xf000800014, [(96, 0x1000)], 32, false, [⟨27, 24, .ro⟩, ⟨23, 18, .ro⟩, ⟨17, 12, .ro⟩, ⟨11, 6, .ro⟩, ⟨5, 0, .ro⟩]⟩,
  ⟨.LANE_TRN, 0xf000800018, [(96, 0x1000)], 32, false, [⟨31, 28, .ro⟩, ⟨27, 16, .ro⟩, ⟨15, 0, .rw⟩]⟩,
  ⟨.LANE_HDR_ERR_CNT, 0xf00080001c, [(96, 0x1000)], 32, false, [⟨31, 0, .ro⟩]⟩,
  ⟨.LANE_LINK_CNT, 0xf000800020, [(96, 0x1000)], 32, false, [⟨31, 16, .ro⟩, ⟨15, 0, .ro⟩]⟩,
  ⟨.LANE_PRBS_CTRL, 0xf000800024, [(96, 0x1000)], 32, false, [⟨8, 8, .ro⟩, ⟨7, 7, .w1s⟩, ⟨6, 6, .w1s⟩, ⟨5, 5, .w1s⟩, ⟨4, 4, .rw⟩, ⟨3, 2, .rw⟩, ⟨1, 1, .rw⟩, ⟨0, 0, .rw⟩]⟩,
  ⟨.LANE_PRBS_ERR, 0xf000800028, [(96, 0x1000)], 32, false, [⟨31, 0, .ro⟩]⟩,
  ⟨.LANE_PRBS_BITS, 0xf000800030, [(96, 0x1000)], 64, false, [⟨47, 0, .ro⟩]⟩]
/-- Registers of block FRM, part 0. -/
def rowsFRM0 : List RegDef := [
  ⟨.FRM_CNT, 0xf000900000, [(96, 0x100), (16, 0x4)], 32, false, [⟨31, 0, .ro⟩]⟩]
/-- Registers of block ING, part 0. -/
def rowsING0 : List RegDef := [
  ⟨.ING_CT_CFG, 0xf000a00000, [], 64, false, [⟨45, 32, .ro⟩, ⟨28, 16, .ro⟩, ⟨15, 15, .ro⟩, ⟨4, 0, .ro⟩]⟩,
  ⟨.ING_CT_BASE, 0xf000a00008, [], 64, false, [⟨39, 12, .ro⟩]⟩,
  ⟨.ING_CH_BLOCK, 0xf000a00010, [(8, 0x4)], 32, false, [⟨28, 16, .ro⟩, ⟨11, 0, .ro⟩]⟩,
  ⟨.ING_SLOT_COMMIT, 0xf000a00100, [], 64, true, [⟨47, 0, .rw⟩]⟩,
  ⟨.ING_SLOT_STATUS, 0xf000a00108, [], 32, false, [⟨3, 3, .w1c⟩, ⟨2, 2, .w1c⟩, ⟨1, 1, .w1c⟩, ⟨0, 0, .ro⟩]⟩,
  ⟨.ING_CT_SKIP, 0xf000a00200, [(8, 0x4)], 32, false, [⟨31, 0, .ro⟩]⟩,
  ⟨.ING_SLOT_MASK_SH, 0xf000a01000, [(128, 0x8)], 64, false, [⟨63, 0, .rw⟩]⟩,
  ⟨.ING_SLOT_MASK, 0xf000a01800, [(128, 0x8)], 64, false, [⟨63, 0, .ro⟩]⟩,
  ⟨.ING_STREAM_ST, 0xf000a10000, [(8192, 0x4)], 32, false, [⟨11, 11, .w1c⟩, ⟨10, 10, .w1c⟩, ⟨9, 9, .w1c⟩, ⟨8, 8, .w1c⟩, ⟨3, 3, .ro⟩, ⟨2, 2, .ro⟩, ⟨1, 1, .ro⟩, ⟨0, 0, .ro⟩]⟩,
  ⟨.ING_SIG_ENTRY, 0xf000a20000, [(8192, 0x8)], 64, false, [⟨63, 63, .ro⟩, ⟨38, 32, .ro⟩, ⟨31, 26, .ro⟩, ⟨25, 20, .ro⟩, ⟨19, 13, .ro⟩, ⟨12, 0, .ro⟩]⟩,
  ⟨.ING_FRAME_HEAD, 0xf000a3f000, [], 64, false, [⟨47, 0, .ro⟩]⟩,
  ⟨.ING_FRAME_TAIL, 0xf000a3f008, [], 64, false, [⟨47, 0, .ro⟩]⟩]
/-- Registers of block ING, part 1. -/
def rowsING1 : List RegDef := [
  ⟨.ING_AG_EPOCH_SC, 0xf000a40000, [(64, 0x100)], 64, true, [⟨63, 0, .rwl⟩]⟩,
  ⟨.ING_AG_CFG, 0xf000a40008, [(64, 0x100)], 32, false, [⟨30, 17, .ro⟩, ⟨16, 0, .ro⟩]⟩,
  ⟨.ING_AG_MAP_SC, 0xf000a40010, [(64, 0x100)], 64, true, [⟨63, 0, .rw⟩]⟩,
  ⟨.ING_AG_MAP_SEC, 0xf000a40018, [(64, 0x100)], 64, false, [⟨47, 0, .rw⟩]⟩,
  ⟨.ING_AG_MAP_NS, 0xf000a40020, [(64, 0x100)], 64, false, [⟨63, 32, .rw⟩, ⟨31, 0, .rw⟩]⟩,
  ⟨.ING_AG_PERIOD, 0xf000a40028, [(64, 0x100)], 64, true, [⟨63, 0, .rw⟩]⟩,
  ⟨.ING_AG_COMMIT, 0xf000a40030, [(64, 0x100)], 32, false, [⟨0, 0, .w1s⟩]⟩,
  ⟨.ING_AG_STATUS, 0xf000a40034, [(64, 0x100)], 32, false, [⟨29, 16, .ro⟩, ⟨1, 1, .w1c⟩, ⟨0, 0, .w1c⟩]⟩,
  ⟨.ING_AG_UNDERRUN_CNT, 0xf000a40038, [(64, 0x100)], 32, false, [⟨31, 0, .ro⟩]⟩,
  ⟨.ING_AG_DISCARD_CNT, 0xf000a4003c, [(64, 0x100)], 32, false, [⟨31, 0, .ro⟩]⟩]
/-- Registers of block PAT, part 0. -/
def rowsPAT0 : List RegDef := [
  ⟨.PAT_CTRL, 0xf000b00000, [], 32, false, [⟨23, 16, .rw⟩, ⟨3, 3, .w1s⟩, ⟨2, 2, .w1s⟩, ⟨1, 1, .w1s⟩, ⟨0, 0, .w1s⟩]⟩,
  ⟨.PAT_STATUS, 0xf000b00004, [], 32, false, [⟨12, 12, .ro⟩, ⟨11, 8, .ro⟩, ⟨4, 4, .ro⟩, ⟨2, 0, .ro⟩]⟩,
  ⟨.PAT_EVENTS, 0xf000b00008, [], 32, false, [⟨7, 7, .w1c⟩, ⟨6, 6, .w1c⟩, ⟨5, 5, .w1c⟩, ⟨4, 4, .w1c⟩, ⟨3, 3, .w1c⟩, ⟨2, 2, .w1c⟩, ⟨1, 1, .w1c⟩, ⟨0, 0, .w1c⟩]⟩,
  ⟨.PAT_ERR_OFFSET, 0xf000b0000c, [], 32, false, [⟨31, 0, .ro⟩]⟩,
  ⟨.PAT_LOAD_ADDR, 0xf000b00010, [], 64, false, [⟨39, 3, .rw⟩]⟩,
  ⟨.PAT_LOAD_LEN, 0xf000b00018, [], 32, false, [⟨31, 0, .rw⟩]⟩,
  ⟨.PAT_ACTIVATE_AT, 0xf000b00020, [], 64, true, [⟨47, 0, .rw⟩]⟩,
  ⟨.PAT_STOP_AT, 0xf000b00028, [], 64, true, [⟨47, 0, .rw⟩]⟩,
  ⟨.PAT_ACTIVE_ID, 0xf000b00030, [], 64, false, [⟨63, 0, .ro⟩]⟩,
  ⟨.PAT_SHADOW_ID, 0xf000b00038, [], 64, false, [⟨63, 0, .ro⟩]⟩,
  ⟨.PAT_ACTIVE_AT, 0xf000b00040, [], 64, false, [⟨47, 0, .ro⟩]⟩,
  ⟨.PAT_PUBKEY, 0xf000b00100, [(12, 0x8)], 64, false, [⟨63, 0, .rw⟩]⟩]
/-- Registers of block PRT, part 0. -/
def rowsPRT0 : List RegDef := [
  ⟨.PRT_ENTRY, 0xf000c00000, [(32768, 0x8)], 64, false, [⟨63, 63, .ro⟩, ⟨62, 61, .ro⟩, ⟨60, 59, .ro⟩, ⟨58, 57, .ro⟩, ⟨56, 52, .ro⟩, ⟨51, 48, .ro⟩, ⟨47, 47, .ro⟩, ⟨46, 45, .ro⟩, ⟨44, 33, .ro⟩, ⟨32, 27, .ro⟩, ⟨23, 12, .ro⟩, ⟨11, 0, .ro⟩]⟩]
/-- Registers of block EGR, part 0. -/
def rowsEGR0 : List RegDef := [
  ⟨.EGR_DUMP_SEQ, 0xf000d00000, [], 32, false, [⟨31, 0, .rwl⟩]⟩,
  ⟨.EGR_DUMP_LAST_F, 0xf000d00008, [], 64, false, [⟨47, 0, .ro⟩]⟩,
  ⟨.EGR_EVENTS, 0xf000d00010, [], 32, false, [⟨4, 4, .w1c⟩, ⟨3, 3, .w1c⟩, ⟨2, 2, .w1c⟩, ⟨1, 1, .w1c⟩, ⟨0, 0, .w1c⟩]⟩,
  ⟨.EGR_IRQ_EN, 0xf000d00014, [], 32, false, [⟨4, 0, .rw⟩]⟩,
  ⟨.EGR_ROUTE_ERR_CNT, 0xf000d00018, [], 32, false, [⟨31, 0, .ro⟩]⟩,
  ⟨.EGR_CLIP_CNT, 0xf000d0001c, [], 32, false, [⟨31, 0, .ro⟩]⟩,
  ⟨.EGR_LINK_FAIL, 0xf000d00020, [], 32, false, [⟨31, 0, .w1c⟩]⟩,
  ⟨.EGR_GROUP_LOST, 0xf000d00100, [(32, 0x4)], 32, false, [⟨31, 0, .ro⟩]⟩,
  ⟨.EGR_GROUP_CFG, 0xf000d00200, [(32, 0x4)], 32, false, [⟨31, 31, .ro⟩, ⟨30, 30, .ro⟩, ⟨27, 16, .ro⟩, ⟨10, 0, .ro⟩]⟩,
  ⟨.EGR_RELAY_DROP, 0xf000d00280, [(32, 0x4)], 32, false, [⟨31, 0, .ro⟩]⟩,
  ⟨.EGR_QUEUE, 0xf000d10000, [(4096, 0x8)], 64, false, [⟨34, 20, .ro⟩, ⟨19, 16, .ro⟩, ⟨12, 8, .ro⟩, ⟨2, 2, .ro⟩, ⟨1, 0, .ro⟩]⟩,
  ⟨.EGR_Q_DROP, 0xf000d18000, [(4096, 0x4)], 32, false, [⟨31, 0, .ro⟩]⟩]
/-- Registers of block EGR, part 1. -/
def rowsEGR1 : List RegDef := [
  ⟨.EGR_RING_CFG, 0xf000d20000, [(4096, 0x10)], 64, false, [⟨39, 6, .ro⟩, ⟨4, 0, .ro⟩]⟩,
  ⟨.EGR_RING_PTR, 0xf000d20008, [(4096, 0x10)], 32, false, [⟨31, 31, .w1s⟩, ⟨30, 30, .ro⟩, ⟨15, 0, .ro⟩]⟩,
  ⟨.EGR_WIN_HDR, 0xf000d40000, [(16, 0x20)], 64, false, [⟨63, 63, .ro⟩, ⟨47, 0, .ro⟩]⟩,
  ⟨.EGR_WIN_SEQ, 0xf000d40008, [(16, 0x20)], 32, false, [⟨31, 0, .ro⟩]⟩,
  ⟨.EGR_WIN_CTRL, 0xf000d4000c, [(16, 0x20)], 32, false, [⟨31, 16, .ro⟩, ⟨1, 1, .ro⟩, ⟨0, 0, .w1s⟩]⟩,
  ⟨.EGR_WIN_DATA, 0xf000d80000, [(16, 0x8000), (4096, 0x8)], 64, false, [⟨63, 63, .ro⟩, ⟨62, 62, .ro⟩, ⟨31, 0, .ro⟩]⟩]
/-- Registers of block DMA, part 0. -/
def rowsDMA0 : List RegDef := [
  ⟨.DMA_EVENTS, 0xf000e00000, [], 64, false, [⟨63, 0, .w1c⟩]⟩,
  ⟨.DMA_DONE, 0xf000e00008, [], 64, false, [⟨63, 0, .w1c⟩]⟩,
  ⟨.DMA_IRQ_EN, 0xf000e00010, [], 64, false, [⟨63, 0, .rw⟩]⟩,
  ⟨.DMA_CH_CFG, 0xf000e10000, [(64, 0x40)], 32, false, [⟨31, 31, .rw⟩, ⟨30, 30, .rw⟩, ⟨4, 0, .rw⟩]⟩,
  ⟨.DMA_CH_RING, 0xf000e10008, [(64, 0x40)], 64, true, [⟨39, 5, .rw⟩]⟩,
  ⟨.DMA_CH_CTRL, 0xf000e10010, [(64, 0x40)], 32, false, [⟨2, 2, .w1s⟩, ⟨1, 1, .w1s⟩, ⟨0, 0, .w1s⟩]⟩,
  ⟨.DMA_CH_STATUS, 0xf000e10014, [(64, 0x40)], 32, false, [⟨31, 16, .ro⟩, ⟨11, 8, .ro⟩, ⟨4, 4, .w1c⟩, ⟨2, 0, .ro⟩]⟩,
  ⟨.DMA_CH_REMAIN, 0xf000e10018, [(64, 0x40)], 32, false, [⟨23, 0, .ro⟩]⟩,
  ⟨.DMA_CH_ELEM, 0xf000e1001c, [(64, 0x40)], 32, false, [⟨15, 0, .ro⟩]⟩,
  ⟨.DMA_CH_BYTES, 0xf000e10020, [(64, 0x40)], 64, false, [⟨47, 0, .ro⟩]⟩]
/-- Registers of block WELT, part 0. -/
def rowsWELT0 : List RegDef := [
  ⟨.WELT_PARK, 0xf000f00000, [], 32, false, [⟨27, 0, .rw⟩]⟩,
  ⟨.WELT_TIMEOUT, 0xf000f00004, [], 32, false, [⟨31, 0, .rw⟩]⟩,
  ⟨.WELT_EVENTS, 0xf000f00008, [], 32, false, [⟨20, 16, .rw⟩, ⟨4, 4, .w1c⟩, ⟨3, 3, .w1c⟩, ⟨2, 2, .w1c⟩, ⟨1, 1, .w1c⟩, ⟨0, 0, .w1c⟩]⟩,
  ⟨.WELT_ERR_INFO, 0xf000f00010, [], 32, false, [⟨31, 30, .ro⟩, ⟨29, 26, .ro⟩, ⟨25, 23, .ro⟩, ⟨22, 22, .ro⟩, ⟨21, 16, .ro⟩, ⟨3, 0, .ro⟩]⟩,
  ⟨.WELT_ERR_ADDR, 0xf000f00018, [], 64, false, [⟨39, 0, .ro⟩]⟩,
  ⟨.WELT_CNT, 0xf000f00020, [(4, 0x4)], 32, false, [⟨31, 0, .ro⟩]⟩,
  ⟨.WELT_IND_MAX, 0xf000f00040, [], 32, false, [⟨23, 0, .rw⟩]⟩,
  ⟨.WELT_IND_OVER_CNT, 0xf000f00044, [], 32, false, [⟨31, 0, .ro⟩]⟩,
  ⟨.WELT_IND_DROP_CNT, 0xf000f00048, [], 32, false, [⟨31, 0, .ro⟩]⟩,
  ⟨.WELT_M_STATUS, 0xf000f00080, [(16, 0x4)], 32, false, [⟨16, 16, .ro⟩, ⟨15, 8, .ro⟩, ⟨7, 0, .ro⟩]⟩]
/-- Registers of block MEM, part 0. -/
def rowsMEM0 : List RegDef := [
  ⟨.MEM_CFG, 0xf001000000, [], 32, false, [⟨23, 12, .rwl⟩, ⟨9, 8, .rwl⟩, ⟨7, 7, .rwl⟩, ⟨2, 0, .rwl⟩]⟩,
  ⟨.MEM_ILV, 0xf001000008, [], 64, false, [⟨43, 32, .ro⟩, ⟨15, 12, .ro⟩, ⟨11, 0, .rwl⟩]⟩,
  ⟨.MEM_SCHED, 0xf001000010, [], 32, false, [⟨27, 24, .rw⟩, ⟨15, 8, .rw⟩, ⟨7, 0, .rw⟩]⟩,
  ⟨.MEM_SCRUB, 0xf001000018, [], 32, false, [⟨31, 31, .rw⟩, ⟨23, 0, .rw⟩]⟩,
  ⟨.MEM_STATUS, 0xf001000020, [], 32, false, [⟨27, 16, .w1c⟩, ⟨12, 12, .ro⟩, ⟨11, 0, .ro⟩]⟩,
  ⟨.MEM_PORT_TARGET, 0xf001000100, [(13, 0x4)], 32, false, [⟨15, 0, .rw⟩]⟩,
  ⟨.MEM_CH_CTRL, 0xf001010000, [(12, 0x100)], 32, false, [⟨0, 0, .w1s⟩]⟩,
  ⟨.MEM_CH_STATUS, 0xf001010004, [(12, 0x100)], 32, false, [⟨19, 16, .ro⟩, ⟨11, 8, .ro⟩, ⟨2, 0, .ro⟩]⟩,
  ⟨.MEM_CH_ERR_ADDR, 0xf001010008, [(12, 0x100)], 64, false, [⟨63, 63, .ro⟩, ⟨39, 0, .ro⟩]⟩,
  ⟨.MEM_CH_CNT, 0xf001010010, [(12, 0x100), (8, 0x4)], 32, false, [⟨31, 0, .ro⟩]⟩,
  ⟨.MEM_SPILL_BASE, 0xf001040000, [], 64, false, [⟨39, 16, .ro⟩]⟩,
  ⟨.MEM_SPILL_LIMIT, 0xf001040008, [], 64, false, [⟨39, 16, .ro⟩]⟩]
/-- Registers of block MEM, part 1. -/
def rowsMEM1 : List RegDef := [
  ⟨.MEM_SPILL_STATUS, 0xf001040010, [], 32, false, [⟨2, 2, .w1c⟩, ⟨1, 1, .w1c⟩, ⟨0, 0, .w1c⟩]⟩,
  ⟨.MEM_SPILL_ADDS, 0xf001040018, [], 64, false, [⟨63, 0, .ro⟩]⟩,
  ⟨.MEM_DUMP_BUSY, 0xf001040020, [], 64, false, [⟨63, 0, .ro⟩]⟩,
  ⟨.MEM_SPILL_LIST, 0xf001040100, [(64, 0x8)], 64, false, [⟨63, 48, .ro⟩, ⟨39, 4, .ro⟩]⟩]
/-- Registers of block ECC, part 0. -/
def rowsECC0 : List RegDef := [
  ⟨.ECC_SPILL_CHK, 0xf001100000, [], 64, false, [⟨39, 13, .ro⟩]⟩,
  ⟨.ECC_EVENTS, 0xf001100008, [], 32, false, [⟨19, 16, .rw⟩, ⟨3, 3, .w1c⟩, ⟨2, 2, .w1c⟩, ⟨1, 1, .w1c⟩, ⟨0, 0, .w1c⟩]⟩,
  ⟨.ECC_CE_THRESH, 0xf00110000c, [], 32, false, [⟨31, 0, .rw⟩]⟩,
  ⟨.ECC_CNT, 0xf001100010, [(6, 0x4)], 32, false, [⟨31, 0, .ro⟩]⟩,
  ⟨.ECC_LAST_UE, 0xf001100040, [], 64, false, [⟨63, 56, .ro⟩, ⟨39, 0, .ro⟩]⟩,
  ⟨.ECC_DIAG_CTRL, 0xf001100048, [], 32, false, [⟨31, 31, .rwl⟩, ⟨20, 16, .rwl⟩, ⟨15, 8, .rwl⟩, ⟨7, 0, .rwl⟩]⟩,
  ⟨.ECC_DIAG_RAW, 0xf001100050, [], 32, false, [⟨7, 0, .ro⟩]⟩,
  ⟨.ECC_ONCHIP_SCRUB, 0xf001100058, [], 32, false, [⟨31, 31, .rw⟩, ⟨23, 0, .rw⟩]⟩]
/-- Registers of block CAP, part 0. -/
def rowsCAP0 : List RegDef := [
  ⟨.CAP_CFG, 0xf001200000, [], 32, false, [⟨15, 10, .ro⟩, ⟨2, 2, .ro⟩, ⟨1, 1, .ro⟩, ⟨0, 0, .ro⟩]⟩,
  ⟨.CAP_RING_BASE, 0xf001200010, [(2, 0x10)], 64, false, [⟨39, 6, .ro⟩]⟩,
  ⟨.CAP_RING_GEOM, 0xf001200018, [(2, 0x10)], 64, false, [⟨63, 32, .ro⟩, ⟨20, 1, .ro⟩, ⟨0, 0, .ro⟩]⟩,
  ⟨.CAP_TRIG_CFG, 0xf001200040, [], 64, false, [⟨63, 40, .rw⟩, ⟨39, 16, .rw⟩, ⟨15, 8, .rw⟩, ⟨6, 4, .rw⟩, ⟨2, 2, .rw⟩, ⟨1, 1, .rw⟩, ⟨0, 0, .rw⟩]⟩,
  ⟨.CAP_TRIG_SW, 0xf001200048, [], 64, true, [⟨63, 63, .wo⟩, ⟨51, 0, .wo⟩]⟩,
  ⟨.CAP_NEXT_SEQ, 0xf001200050, [], 64, false, [⟨51, 0, .ro⟩]⟩,
  ⟨.CAP_HEAD_SEQ, 0xf001200058, [], 64, false, [⟨51, 0, .ro⟩]⟩,
  ⟨.CAP_EVENTS, 0xf001200060, [], 32, false, [⟨19, 16, .rw⟩, ⟨3, 3, .w1c⟩, ⟨2, 2, .w1c⟩, ⟨1, 1, .w1c⟩, ⟨0, 0, .w1c⟩]⟩,
  ⟨.CAP_CNT, 0xf001200080, [(6, 0x4)], 32, false, [⟨31, 0, .ro⟩]⟩,
  ⟨.CAP_RGN_START, 0xf001200100, [(8, 0x20)], 64, false, [⟨51, 0, .ro⟩]⟩,
  ⟨.CAP_RGN_END, 0xf001200108, [(8, 0x20)], 64, false, [⟨51, 0, .ro⟩]⟩,
  ⟨.CAP_RGN_CTRL, 0xf001200110, [(8, 0x20)], 32, false, [⟨31, 16, .ro⟩, ⟨8, 8, .w1s⟩, ⟨7, 7, .ro⟩, ⟨6, 6, .ro⟩, ⟨5, 5, .ro⟩, ⟨4, 4, .ro⟩, ⟨3, 3, .ro⟩, ⟨2, 2, .ro⟩, ⟨1, 0, .ro⟩]⟩]
/-- Registers of block CAP, part 1. -/
def rowsCAP1 : List RegDef := [
  ⟨.CAP_TAP, 0xf001210000, [(4096, 0x4)], 32, false, [⟨31, 31, .ro⟩, ⟨30, 28, .ro⟩, ⟨24, 12, .ro⟩, ⟨11, 0, .ro⟩]⟩]
/-- Registers of block PCIE, part 0. -/
def rowsPCIE0 : List RegDef := [
  ⟨.PCIE_CFG, 0xf001300000, [(4, 0x1000)], 32, false, [⟨7, 5, .rw⟩, ⟨4, 4, .rw⟩, ⟨1, 1, .w1s⟩, ⟨0, 0, .rw⟩]⟩,
  ⟨.PCIE_STATUS, 0xf001300004, [(4, 0x1000)], 32, false, [⟨31, 16, .ro⟩, ⟨9, 9, .w1c⟩, ⟨8, 8, .w1c⟩, ⟨7, 5, .ro⟩, ⟨4, 2, .ro⟩, ⟨0, 0, .ro⟩]⟩,
  ⟨.PCIE_OB_XLATE, 0xf001300008, [(4, 0x1000)], 64, false, [⟨63, 12, .rw⟩]⟩,
  ⟨.PCIE_IB_BASE, 0xf001300010, [(4, 0x1000)], 64, false, [⟨63, 12, .rw⟩, ⟨5, 0, .rw⟩]⟩,
  ⟨.PCIE_IB_XLATE, 0xf001300018, [(4, 0x1000)], 64, false, [⟨39, 12, .rw⟩]⟩,
  ⟨.PCIE_MSI_ADDR, 0xf001300020, [(4, 0x1000)], 64, false, [⟨63, 2, .rw⟩]⟩]
/-- Registers of block MON, part 0. -/
def rowsMON0 : List RegDef := [
  ⟨.MON_CFG, 0xf001400000, [(2, 0x100)], 32, false, [⟨31, 31, .rw⟩, ⟨30, 25, .rw⟩, ⟨24, 24, .rw⟩, ⟨23, 20, .rw⟩, ⟨19, 16, .rw⟩, ⟨15, 15, .rw⟩, ⟨14, 14, .rw⟩, ⟨13, 13, .rw⟩]⟩,
  ⟨.MON_SRC, 0xf001400004, [(2, 0x100)], 32, false, [⟨31, 31, .rw⟩, ⟨24, 12, .rw⟩, ⟨11, 0, .rw⟩]⟩,
  ⟨.MON_NCO, 0xf001400008, [(2, 0x100)], 32, false, [⟨31, 0, .rw⟩]⟩,
  ⟨.MON_RATIO, 0xf001400010, [(2, 0x100)], 64, true, [⟨33, 0, .rw⟩]⟩,
  ⟨.MON_CTRL, 0xf001400018, [(2, 0x100)], 32, false, [⟨1, 1, .w1s⟩, ⟨0, 0, .w1s⟩]⟩,
  ⟨.MON_STATUS, 0xf00140001c, [(2, 0x100)], 32, false, [⟨30, 16, .ro⟩, ⟨2, 0, .ro⟩]⟩,
  ⟨.MON_EVENTS, 0xf001400020, [(2, 0x100)], 32, false, [⟨21, 16, .rw⟩, ⟨5, 5, .w1c⟩, ⟨4, 4, .w1c⟩, ⟨3, 3, .w1c⟩, ⟨2, 2, .w1c⟩, ⟨1, 1, .w1c⟩, ⟨0, 0, .w1c⟩]⟩,
  ⟨.MON_CNT, 0xf001400024, [(2, 0x100), (4, 0x4)], 32, false, [⟨31, 0, .ro⟩]⟩,
  ⟨.MON_CS, 0xf001400040, [(2, 0x100), (6, 0x4)], 32, false, [⟨31, 0, .rw⟩]⟩,
  ⟨.MON_IN_STATUS, 0xf001400800, [], 32, false, [⟨31, 24, .ro⟩, ⟨22, 20, .rw⟩, ⟨6, 6, .w1c⟩, ⟨5, 5, .w1c⟩, ⟨4, 4, .w1c⟩, ⟨2, 2, .ro⟩, ⟨1, 1, .ro⟩, ⟨0, 0, .ro⟩]⟩]
/-- Registers of block SMU, part 0. -/
def rowsSMU0 : List RegDef := [
  ⟨.SMU_STATUS, 0xf001500000, [], 32, false, [⟨31, 28, .ro⟩, ⟨27, 26, .ro⟩, ⟨25, 25, .ro⟩, ⟨3, 3, .ro⟩, ⟨2, 0, .ro⟩]⟩,
  ⟨.SMU_EVENTS, 0xf001500004, [], 32, false, [⟨7, 7, .w1c⟩, ⟨6, 6, .w1c⟩, ⟨5, 5, .w1c⟩, ⟨4, 4, .w1c⟩, ⟨3, 3, .w1c⟩, ⟨2, 2, .w1c⟩, ⟨1, 1, .w1c⟩, ⟨0, 0, .w1c⟩]⟩,
  ⟨.SMU_CMD, 0xf001500008, [], 64, false, [⟨63, 56, .wo⟩, ⟨43, 32, .wo⟩, ⟨31, 0, .wo⟩]⟩,
  ⟨.SMU_CFG, 0xf001500010, [], 64, false, [⟨63, 63, .rw⟩, ⟨55, 48, .rw⟩, ⟨47, 32, .rw⟩, ⟨28, 16, .rw⟩, ⟨11, 0, .rw⟩]⟩,
  ⟨.SMU_TIME_CFG, 0xf001500018, [], 64, false, [⟨63, 32, .rw⟩, ⟨31, 16, .rw⟩, ⟨15, 0, .rw⟩]⟩,
  ⟨.SMU_REC_HEAD, 0xf001500020, [], 64, false, [⟨63, 32, .ro⟩, ⟨18, 0, .ro⟩]⟩,
  ⟨.SMU_REC_TAIL, 0xf001500028, [], 64, false, [⟨63, 32, .ro⟩, ⟨18, 0, .ro⟩]⟩,
  ⟨.SMU_KEY_ID, 0xf001500030, [], 64, false, [⟨63, 0, .ro⟩]⟩,
  ⟨.SMU_BOOT, 0xf001500038, [], 32, false, [⟨31, 0, .ro⟩]⟩,
  ⟨.SMU_FW_ID, 0xf00150003c, [], 32, false, [⟨31, 0, .ro⟩]⟩,
  ⟨.SMU_CFG_HASH, 0xf001500040, [(4, 0x8)], 64, false, [⟨63, 0, .ro⟩]⟩,
  ⟨.SMU_CNT, 0xf001500080, [(7, 0x4)], 32, false, [⟨31, 0, .ro⟩]⟩]
/-- Registers of block SMU, part 1. -/
def rowsSMU1 : List RegDef := [
  ⟨.SMU_OCC, 0xf001500100, [(4, 0x8)], 64, false, [⟨63, 63, .rw⟩, ⟨44, 32, .rw⟩, ⟨27, 16, .rw⟩, ⟨11, 0, .rw⟩]⟩,
  ⟨.SMU_SEL, 0xf001501000, [(256, 0x4)], 32, false, [⟨31, 0, .rw⟩]⟩,
  ⟨.SMU_THR, 0xf001502000, [(2048, 0x4)], 32, false, [⟨31, 16, .rw⟩, ⟨15, 0, .rw⟩]⟩,
  ⟨.SMU_NOTE, 0xf00150f000, [], 32, false, [⟨18, 16, .rw⟩, ⟨2, 2, .w1c⟩, ⟨1, 1, .w1c⟩, ⟨0, 0, .w1c⟩]⟩]
/-- Registers of block FO, part 0. -/
def rowsFO0 : List RegDef := [
  ⟨.FO_CFG, 0xf001600000, [], 64, false, [⟨63, 63, .ro⟩, ⟨55, 48, .ro⟩, ⟨44, 40, .ro⟩, ⟨39, 32, .ro⟩, ⟨31, 0, .ro⟩]⟩,
  ⟨.FO_STATUS, 0xf001600008, [], 32, false, [⟨31, 16, .ro⟩, ⟨5, 4, .ro⟩, ⟨3, 3, .ro⟩, ⟨2, 0, .ro⟩]⟩,
  ⟨.FO_EVENTS, 0xf00160000c, [], 32, false, [⟨19, 16, .rw⟩, ⟨3, 3, .w1c⟩, ⟨2, 2, .w1c⟩, ⟨1, 1, .w1c⟩, ⟨0, 0, .w1c⟩]⟩,
  ⟨.FO_LAST, 0xf001600010, [], 64, false, [⟨63, 48, .ro⟩, ⟨47, 0, .ro⟩]⟩,
  ⟨.FO_LAST_NEXT, 0xf001600018, [], 32, false, [⟨31, 0, .ro⟩]⟩,
  ⟨.FO_SUPP_CNT, 0xf001600020, [], 32, false, [⟨31, 0, .ro⟩]⟩,
  ⟨.FO_WIN_LO, 0xf001600030, [(2, 0x10)], 64, false, [⟨63, 63, .ro⟩, ⟨47, 0, .ro⟩]⟩,
  ⟨.FO_WIN_HI, 0xf001600038, [(2, 0x10)], 64, false, [⟨47, 0, .ro⟩]⟩]
/-- Registers of block ISL, part 0. -/
def rowsISL0 : List RegDef := [
  ⟨.ISL_FRAME_NO, 0xf002000010, [(8, 0x100000)], 64, false, [⟨47, 0, .ro⟩]⟩,
  ⟨.ISL_CLK, 0xf002000020, [(8, 0x100000)], 32, false, [⟨8, 8, .ro⟩, ⟨4, 0, .ro⟩]⟩,
  ⟨.ISL_STAT_RING, 0xf002000100, [(8, 0x100000), (2, 0x20)], 32, false, [⟨31, 16, .ro⟩, ⟨13, 0, .ro⟩]⟩,
  ⟨.ISL_STAT_WR, 0xf002000104, [(8, 0x100000), (2, 0x20)], 32, false, [⟨31, 0, .ro⟩]⟩,
  ⟨.ISL_STAT_RD, 0xf002000108, [(8, 0x100000), (2, 0x20)], 32, false, [⟨31, 0, .rw⟩]⟩,
  ⟨.ISL_STAT_DROP, 0xf00200010c, [(8, 0x100000), (2, 0x20)], 32, false, [⟨31, 0, .ro⟩]⟩,
  ⟨.ISL_FILL_CFG, 0xf002000140, [(8, 0x100000)], 32, false, [⟨18, 4, .ro⟩, ⟨2, 0, .ro⟩]⟩,
  ⟨.ISL_FILL_DISCARD, 0xf002000144, [(8, 0x100000)], 32, false, [⟨31, 0, .ro⟩]⟩,
  ⟨.ISL_PHASE_CFG, 0xf002000300, [(8, 0x100000)], 32, false, [⟨19, 16, .ro⟩, ⟨10, 0, .ro⟩]⟩,
  ⟨.ISL_PHASE_BASE, 0xf002000308, [(8, 0x100000)], 64, false, [⟨39, 5, .ro⟩]⟩,
  ⟨.ISL_PHASE_MISS_CNT, 0xf002000310, [(8, 0x100000)], 32, false, [⟨31, 0, .ro⟩]⟩,
  ⟨.ISL_RED_CFG, 0xf002000400, [(8, 0x100000)], 32, false, [⟨31, 31, .rwl⟩, ⟨28, 16, .rwl⟩, ⟨15, 8, .rwl⟩, ⟨1, 0, .rwl⟩]⟩]
/-- Registers of block ISL, part 1. -/
def rowsISL1 : List RegDef := [
  ⟨.ISL_RED_THRESH, 0xf002000408, [(8, 0x100000)], 64, false, [⟨47, 0, .rw⟩]⟩,
  ⟨.ISL_RED_STATUS, 0xf002000410, [(8, 0x100000)], 32, false, [⟨31, 16, .ro⟩, ⟨4, 4, .w1c⟩, ⟨3, 0, .ro⟩]⟩,
  ⟨.ISL_RED_WINDOW, 0xf002000418, [(8, 0x100000)], 64, false, [⟨47, 0, .ro⟩]⟩,
  ⟨.ISL_RED_LATE, 0xf002000420, [(8, 0x100000)], 32, false, [⟨31, 0, .ro⟩]⟩,
  ⟨.ISL_RED_TOP_VAL, 0xf002000440, [(8, 0x100000), (8, 0x10)], 64, false, [⟨63, 63, .ro⟩, ⟨47, 0, .ro⟩]⟩,
  ⟨.ISL_RED_TOP_POS, 0xf002000448, [(8, 0x100000), (8, 0x10)], 64, false, [⟨32, 20, .ro⟩, ⟨19, 8, .ro⟩, ⟨7, 0, .ro⟩]⟩,
  ⟨.ISL_VERDICT_POST, 0xf002000500, [(8, 0x100000)], 64, true, [⟨63, 0, .wo⟩]⟩,
  ⟨.ISL_VERDICT_CFG, 0xf002000508, [(8, 0x100000)], 32, false, [⟨8, 8, .ro⟩, ⟨7, 4, .ro⟩, ⟨1, 0, .ro⟩]⟩,
  ⟨.ISL_VERDICT_STATUS, 0xf00200050c, [(8, 0x100000)], 32, false, [⟨8, 0, .ro⟩]⟩,
  ⟨.ISL_VERDICT_EVENTS, 0xf002000510, [(8, 0x100000)], 32, false, [⟨3, 3, .w1c⟩, ⟨2, 2, .w1c⟩, ⟨1, 1, .w1c⟩, ⟨0, 0, .w1c⟩]⟩,
  ⟨.ISL_VERDICT_CNT, 0xf002000520, [(8, 0x100000), (6, 0x4)], 32, false, [⟨31, 0, .ro⟩]⟩,
  ⟨.ISL_OCC_BASE, 0xf002000540, [(8, 0x100000)], 64, false, [⟨39, 6, .ro⟩]⟩]
/-- Registers of block ISL, part 2. -/
def rowsISL2 : List RegDef := [
  ⟨.ISL_OCC_CFG, 0xf002000548, [(8, 0x100000)], 64, false, [⟨55, 32, .ro⟩, ⟨31, 0, .ro⟩]⟩,
  ⟨.ISL_OCC_ROUTE, 0xf002000550, [(8, 0x100000)], 32, false, [⟨31, 0, .ro⟩]⟩,
  ⟨.ISL_BEAM_TAB, 0xf002000600, [(8, 0x100000), (32, 0x8)], 64, false, [⟨63, 63, .ro⟩, ⟨61, 56, .ro⟩, ⟨51, 48, .ro⟩, ⟨44, 40, .ro⟩, ⟨36, 32, .ro⟩, ⟨11, 0, .ro⟩]⟩,
  ⟨.ISL_BEAM_CFG, 0xf002000700, [(8, 0x100000)], 32, false, [⟨4, 0, .ro⟩]⟩,
  ⟨.ISL_WEIGHT_CFG, 0xf002000708, [(8, 0x100000)], 64, false, [⟨63, 32, .ro⟩, ⟨20, 16, .ro⟩, ⟨15, 8, .ro⟩, ⟨5, 0, .ro⟩]⟩,
  ⟨.ISL_WEIGHT_COMMIT, 0xf002000710, [(8, 0x100000)], 64, true, [⟨48, 48, .rw⟩, ⟨47, 0, .rw⟩]⟩,
  ⟨.ISL_WEIGHT_STATUS, 0xf002000718, [(8, 0x100000)], 32, false, [⟨6, 6, .ro⟩, ⟨5, 5, .w1c⟩, ⟨4, 4, .w1c⟩, ⟨3, 3, .w1c⟩, ⟨1, 1, .ro⟩, ⟨0, 0, .ro⟩]⟩,
  ⟨.ISL_MARK_HEAD, 0xf002000720, [(8, 0x100000)], 64, false, [⟨47, 0, .ro⟩]⟩,
  ⟨.ISL_BEAM_EVENTS, 0xf002000728, [(8, 0x100000)], 32, false, [⟨3, 3, .w1c⟩, ⟨2, 2, .w1c⟩, ⟨1, 1, .w1c⟩, ⟨0, 0, .w1c⟩]⟩,
  ⟨.ISL_BEAM_CNT, 0xf002000730, [(8, 0x100000), (5, 0x4)], 32, false, [⟨31, 0, .ro⟩]⟩,
  ⟨.ISL_WEIGHT_BASE, 0xf002000748, [(8, 0x100000)], 64, false, [⟨39, 6, .ro⟩]⟩,
  ⟨.ISL_BEAM_LAST_EPOCH, 0xf002000750, [(8, 0x100000)], 32, false, [⟨15, 0, .ro⟩]⟩]
/-- Registers of block ISL, part 3. -/
def rowsISL3 : List RegDef := [
  ⟨.ISL_RETR_MAP, 0xf002004000, [(8, 0x100000), (1024, 0x4)], 32, false, [⟨31, 24, .ro⟩, ⟨23, 16, .ro⟩, ⟨15, 8, .ro⟩, ⟨7, 0, .ro⟩]⟩]
/-- Registers of block PNL, part 0. -/
def rowsPNL0 : List RegDef := [
  ⟨.PNL_CFG, 0xf002010000, [(8, 0x100000), (8, 0x10000)], 32, false, [⟨10, 5, .ro⟩, ⟨4, 4, .ro⟩, ⟨3, 3, .ro⟩, ⟨2, 2, .ro⟩, ⟨1, 0, .ro⟩]⟩,
  ⟨.PNL_STATUS, 0xf002010004, [(8, 0x100000), (8, 0x10000)], 32, false, [⟨22, 22, .ro⟩, ⟨21, 21, .ro⟩, ⟨20, 16, .ro⟩, ⟨11, 8, .ro⟩, ⟨5, 5, .ro⟩, ⟨4, 4, .ro⟩, ⟨2, 0, .ro⟩]⟩,
  ⟨.PNL_PC, 0xf002010008, [(8, 0x100000), (8, 0x10000)], 32, false, [⟨27, 16, .ro⟩, ⟨11, 0, .ro⟩]⟩,
  ⟨.PNL_EVENTS, 0xf00201000c, [(8, 0x100000), (8, 0x10000)], 32, false, [⟨4, 4, .w1c⟩, ⟨3, 3, .w1c⟩, ⟨2, 2, .w1c⟩, ⟨1, 1, .w1c⟩, ⟨0, 0, .w1c⟩]⟩,
  ⟨.PNL_IRQ_EN, 0xf002010010, [(8, 0x100000), (8, 0x10000)], 32, false, [⟨4, 0, .rw⟩]⟩,
  ⟨.PNL_SLOT_WAIT, 0xf002010014, [(8, 0x100000), (8, 0x10000)], 32, false, [⟨23, 0, .rw⟩]⟩,
  ⟨.PNL_FRAME, 0xf002010018, [(8, 0x100000), (8, 0x10000)], 64, false, [⟨47, 0, .ro⟩]⟩,
  ⟨.PNL_SLOT_BOUND, 0xf002010020, [(8, 0x100000), (8, 0x10000)], 32, false, [⟨31, 0, .ro⟩]⟩,
  ⟨.PNL_SLOT_CLOSING, 0xf002010024, [(8, 0x100000), (8, 0x10000)], 32, false, [⟨31, 0, .ro⟩]⟩,
  ⟨.PNL_CONFLICT_INFO, 0xf002010028, [(8, 0x100000), (8, 0x10000)], 32, false, [⟨31, 26, .ro⟩, ⟨25, 21, .ro⟩, ⟨11, 0, .ro⟩]⟩,
  ⟨.PNL_CONFLICT_CNT, 0xf00201002c, [(8, 0x100000), (8, 0x10000)], 32, false, [⟨31, 0, .ro⟩]⟩,
  ⟨.PNL_UNBOUND_CNT, 0xf002010030, [(8, 0x100000), (8, 0x10000)], 32, false, [⟨31, 0, .ro⟩]⟩]
/-- Registers of block PNL, part 1. -/
def rowsPNL1 : List RegDef := [
  ⟨.PNL_HOLDOFF_MAX, 0xf002010034, [(8, 0x100000), (8, 0x10000)], 32, false, [⟨23, 0, .rw⟩]⟩,
  ⟨.PNL_ARRAY_CYCLES, 0xf002010038, [(8, 0x100000), (8, 0x10000)], 64, false, [⟨63, 0, .ro⟩]⟩,
  ⟨.PNL_HELD_CYCLES, 0xf002010040, [(8, 0x100000), (8, 0x10000)], 64, false, [⟨63, 0, .ro⟩]⟩,
  ⟨.PNL_INT_CFG, 0xf002010050, [(8, 0x100000), (8, 0x10000)], 32, false, [⟨23, 8, .ro⟩, ⟨4, 0, .ro⟩]⟩,
  ⟨.PNL_INT_START, 0xf002010058, [(8, 0x100000), (8, 0x10000)], 64, false, [⟨48, 48, .ro⟩, ⟨47, 0, .ro⟩]⟩,
  ⟨.PNL_SAT_CNT, 0xf002010060, [(8, 0x100000), (8, 0x10000)], 32, false, [⟨31, 0, .ro⟩]⟩,
  ⟨.PNL_ACC_EVENTS, 0xf002010064, [(8, 0x100000), (8, 0x10000)], 32, false, [⟨3, 3, .w1c⟩, ⟨2, 2, .w1c⟩, ⟨1, 1, .w1c⟩, ⟨0, 0, .w1c⟩]⟩,
  ⟨.PNL_RETR_CFG, 0xf002010070, [(8, 0x100000), (8, 0x10000)], 32, false, [⟨0, 0, .ro⟩]⟩,
  ⟨.PNL_RETR_CNT, 0xf002010074, [(8, 0x100000), (8, 0x10000)], 32, false, [⟨31, 16, .ro⟩, ⟨15, 0, .ro⟩]⟩,
  ⟨.PNL_A, 0xf002010100, [(8, 0x100000), (8, 0x10000), (16, 0x4)], 32, false, [⟨31, 0, .ro⟩]⟩,
  ⟨.PNL_UCODE, 0xf002018000, [(8, 0x100000), (8, 0x10000), (4096, 0x8)], 64, false, [⟨63, 32, .ro⟩, ⟨31, 0, .ro⟩]⟩]
/-- Registers of block AWL, part 0. -/
def rowsAWL0 : List RegDef := [
  ⟨.AWL_CTRL, 0xf002800000, [(16, 0x10000)], 32, false, [⟨19, 16, .rw⟩, ⟨3, 3, .w1s⟩, ⟨2, 2, .w1s⟩, ⟨1, 1, .w1s⟩, ⟨0, 0, .w1s⟩]⟩,
  ⟨.AWL_STATUS, 0xf002800004, [(16, 0x10000)], 32, false, [⟨28, 16, .ro⟩, ⟨5, 5, .ro⟩, ⟨4, 3, .ro⟩, ⟨2, 0, .ro⟩]⟩,
  ⟨.AWL_EVENTS, 0xf002800008, [(16, 0x10000)], 32, false, [⟨3, 3, .w1c⟩, ⟨2, 2, .w1c⟩, ⟨1, 1, .w1c⟩, ⟨0, 0, .w1c⟩]⟩,
  ⟨.AWL_ECAUSE, 0xf00280000c, [(16, 0x10000)], 32, false, [⟨4, 4, .ro⟩, ⟨3, 0, .ro⟩]⟩,
  ⟨.AWL_EPC, 0xf002800010, [(16, 0x10000)], 32, false, [⟨12, 0, .ro⟩]⟩,
  ⟨.AWL_EADDR, 0xf002800014, [(16, 0x10000)], 32, false, [⟨23, 0, .ro⟩]⟩,
  ⟨.AWL_HOST_SIG, 0xf002800018, [(16, 0x10000)], 32, false, [⟨31, 0, .ro⟩]⟩,
  ⟨.AWL_DOORBELL, 0xf00280001c, [(16, 0x10000)], 32, false, [⟨0, 0, .w1s⟩]⟩,
  ⟨.AWL_CYCLES, 0xf002800020, [(16, 0x10000)], 64, false, [⟨63, 0, .ro⟩]⟩,
  ⟨.AWL_STALLS, 0xf002800028, [(16, 0x10000)], 64, false, [⟨63, 0, .ro⟩]⟩,
  ⟨.AWL_SPEC, 0xf002800100, [(16, 0x10000), (42, 0x8)], 64, false, [⟨23, 0, .ro⟩]⟩,
  ⟨.AWL_XREG, 0xf002800400, [(16, 0x10000), (32, 0x8)], 64, false, [⟨23, 0, .ro⟩]⟩]
/-- Registers of block AWL, part 1. -/
def rowsAWL1 : List RegDef := [
  ⟨.AWL_ACC, 0xf002800600, [(16, 0x10000), (4, 0x8)], 64, false, [⟨63, 56, .ro⟩, ⟨55, 0, .ro⟩]⟩]
/-- Registers of block INTC, part 0. -/
def rowsINTC0 : List RegDef := [
  ⟨.INTC_PRIO, 0xf004000000, [(1024, 0x4)], 32, false, [⟨2, 0, .rw⟩]⟩,
  ⟨.INTC_PENDING, 0xf004001000, [(32, 0x4)], 32, false, [⟨31, 0, .ro⟩]⟩,
  ⟨.INTC_ENABLE, 0xf004002000, [(16, 0x80), (32, 0x4)], 32, false, [⟨31, 0, .rw⟩]⟩,
  ⟨.INTC_THRESHOLD, 0xf004200000, [(16, 0x1000)], 32, false, [⟨2, 0, .rw⟩]⟩,
  ⟨.INTC_CLAIM, 0xf004200004, [(16, 0x1000)], 32, false, [⟨9, 0, .pop⟩]⟩]
/-- The register tables, block by block: the block index (R498) and its rows. -/
def regBlocks : List (Nat × List RegDef) := [
  (0x0, rowsDEV0 ++ rowsDEV1),
  (0x1, rowsFUSE0),
  (0x2, rowsEVR0),
  (0x3, rowsHK0),
  (0x4, rowsTIM0 ++ rowsTIM1),
  (0x5, rowsPTP0),
  (0x6, rowsMGMT0),
  (0x7, rowsHTIM0),
  (0x8, rowsLANE0),
  (0x9, rowsFRM0),
  (0xa, rowsING0 ++ rowsING1),
  (0xb, rowsPAT0),
  (0xc, rowsPRT0),
  (0xd, rowsEGR0 ++ rowsEGR1),
  (0xe, rowsDMA0),
  (0xf, rowsWELT0),
  (0x10, rowsMEM0 ++ rowsMEM1),
  (0x11, rowsECC0),
  (0x12, rowsCAP0 ++ rowsCAP1),
  (0x13, rowsPCIE0),
  (0x14, rowsMON0),
  (0x15, rowsSMU0 ++ rowsSMU1),
  (0x16, rowsFO0),
  (0x20, rowsISL0 ++ rowsISL1 ++ rowsISL2 ++ rowsISL3),
  (0x20, rowsPNL0 ++ rowsPNL1),
  (0x28, rowsAWL0 ++ rowsAWL1),
  (0x40, rowsINTC0)]

/-- The register that a row's name and instance numbers stand for. For panel registers the first two dimensions
(island, panel in island) make the panel number (R7). -/
def RegId.reg (id : RegId) (ix : List Nat) : Reg :=
  let i0 := ix.getD 0 0
  let i1 := ix.getD 1 0
  let i2 := ix.getD 2 0
  match id with
  | .DEV_ISL_RESET => R.DEV_ISL_RESET
  | .DEV_ID => R.DEV_ID
  | .ISL_FRAME_NO => R.ISL_FRAME_NO i0
  | .ING_FRAME_HEAD => R.ING_FRAME_HEAD
  | .ING_FRAME_TAIL => R.ING_FRAME_TAIL
  | .ING_AG_EPOCH_SC => R.ING_AG_EPOCH_SC i0
  | .ING_AG_CFG => R.ING_AG_CFG i0
  | .ING_AG_MAP_SC => R.ING_AG_MAP_SC i0
  | .ING_AG_MAP_SEC => R.ING_AG_MAP_SEC i0
  | .ING_AG_MAP_NS => R.ING_AG_MAP_NS i0
  | .ING_AG_PERIOD => R.ING_AG_PERIOD i0
  | .ING_AG_COMMIT => R.ING_AG_COMMIT i0
  | .ING_AG_STATUS => R.ING_AG_STATUS i0
  | .ING_AG_UNDERRUN_CNT => R.ING_AG_UNDERRUN_CNT i0
  | .ING_AG_DISCARD_CNT => R.ING_AG_DISCARD_CNT i0
  | .LANE_CFG => R.LANE_CFG i0
  | .LANE_CTRL => R.LANE_CTRL i0
  | .LANE_STATE => R.LANE_STATE i0
  | .LANE_EVENTS => R.LANE_EVENTS i0
  | .LANE_TX_EQ => R.LANE_TX_EQ i0
  | .LANE_RX_EQ => R.LANE_RX_EQ i0
  | .LANE_TRN => R.LANE_TRN i0
  | .LANE_HDR_ERR_CNT => R.LANE_HDR_ERR_CNT i0
  | .LANE_LINK_CNT => R.LANE_LINK_CNT i0
  | .LANE_PRBS_CTRL => R.LANE_PRBS_CTRL i0
  | .LANE_PRBS_ERR => R.LANE_PRBS_ERR i0
  | .LANE_PRBS_BITS => R.LANE_PRBS_BITS i0
  | .FRM_CNT => R.FRM_CNT i0 i1
  | .ING_CT_CFG => R.ING_CT_CFG
  | .ING_CT_BASE => R.ING_CT_BASE
  | .ING_CH_BLOCK => R.ING_CH_BLOCK i0
  | .ING_SLOT_COMMIT => R.ING_SLOT_COMMIT
  | .ING_SLOT_STATUS => R.ING_SLOT_STATUS
  | .ING_CT_SKIP => R.ING_CT_SKIP i0
  | .ING_SLOT_MASK_SH => R.ING_SLOT_MASK_SH i0
  | .ING_SLOT_MASK => R.ING_SLOT_MASK i0
  | .ING_STREAM_ST => R.ING_STREAM_ST i0
  | .ING_SIG_ENTRY => R.ING_SIG_ENTRY i0
  | .ISL_STAT_RING => R.ISL_STAT_RING i0 i1
  | .ISL_STAT_WR => R.ISL_STAT_WR i0 i1
  | .ISL_STAT_RD => R.ISL_STAT_RD i0 i1
  | .ISL_STAT_DROP => R.ISL_STAT_DROP i0 i1
  | .ISL_FILL_CFG => R.ISL_FILL_CFG i0
  | .ISL_FILL_DISCARD => R.ISL_FILL_DISCARD i0
  | .PNL_CFG => R.PNL_CFG (8 * i0 + i1)
  | .PNL_STATUS => R.PNL_STATUS (8 * i0 + i1)
  | .PNL_PC => R.PNL_PC (8 * i0 + i1)
  | .PNL_EVENTS => R.PNL_EVENTS (8 * i0 + i1)
  | .PNL_IRQ_EN => R.PNL_IRQ_EN (8 * i0 + i1)
  | .PNL_SLOT_WAIT => R.PNL_SLOT_WAIT (8 * i0 + i1)
  | .PNL_FRAME => R.PNL_FRAME (8 * i0 + i1)
  | .PNL_SLOT_BOUND => R.PNL_SLOT_BOUND (8 * i0 + i1)
  | .PNL_SLOT_CLOSING => R.PNL_SLOT_CLOSING (8 * i0 + i1)
  | .PNL_CONFLICT_INFO => R.PNL_CONFLICT_INFO (8 * i0 + i1)
  | .PNL_CONFLICT_CNT => R.PNL_CONFLICT_CNT (8 * i0 + i1)
  | .PNL_UNBOUND_CNT => R.PNL_UNBOUND_CNT (8 * i0 + i1)
  | .PNL_HOLDOFF_MAX => R.PNL_HOLDOFF_MAX (8 * i0 + i1)
  | .PNL_ARRAY_CYCLES => R.PNL_ARRAY_CYCLES (8 * i0 + i1)
  | .PNL_HELD_CYCLES => R.PNL_HELD_CYCLES (8 * i0 + i1)
  | .PNL_A => R.PNL_A (8 * i0 + i1) i2
  | .PNL_UCODE => R.PNL_UCODE (8 * i0 + i1) i2
  | .PNL_INT_CFG => R.PNL_INT_CFG (8 * i0 + i1)
  | .PNL_INT_START => R.PNL_INT_START (8 * i0 + i1)
  | .PNL_SAT_CNT => R.PNL_SAT_CNT (8 * i0 + i1)
  | .PNL_ACC_EVENTS => R.PNL_ACC_EVENTS (8 * i0 + i1)
  | .ISL_PHASE_CFG => R.ISL_PHASE_CFG i0
  | .ISL_PHASE_BASE => R.ISL_PHASE_BASE i0
  | .ISL_PHASE_MISS_CNT => R.ISL_PHASE_MISS_CNT i0
  | .ISL_RED_CFG => R.ISL_RED_CFG i0
  | .ISL_RED_THRESH => R.ISL_RED_THRESH i0
  | .ISL_RED_STATUS => R.ISL_RED_STATUS i0
  | .ISL_RED_WINDOW => R.ISL_RED_WINDOW i0
  | .ISL_RED_LATE => R.ISL_RED_LATE i0
  | .ISL_RED_TOP_VAL => R.ISL_RED_TOP_VAL i0 i1
  | .ISL_RED_TOP_POS => R.ISL_RED_TOP_POS i0 i1
  | .MEM_SPILL_BASE => R.MEM_SPILL_BASE
  | .MEM_SPILL_LIMIT => R.MEM_SPILL_LIMIT
  | .MEM_SPILL_STATUS => R.MEM_SPILL_STATUS
  | .MEM_SPILL_ADDS => R.MEM_SPILL_ADDS
  | .MEM_DUMP_BUSY => R.MEM_DUMP_BUSY
  | .MEM_SPILL_LIST => R.MEM_SPILL_LIST i0
  | .DEV_DRAIN_AT => R.DEV_DRAIN_AT
  | .DEV_DRAIN_STATUS => R.DEV_DRAIN_STATUS
  | .DEV_DRAIN_DONE_AT => R.DEV_DRAIN_DONE_AT
  | .ISL_VERDICT_POST => R.ISL_VERDICT_POST i0
  | .ISL_VERDICT_CFG => R.ISL_VERDICT_CFG i0
  | .ISL_VERDICT_STATUS => R.ISL_VERDICT_STATUS i0
  | .ISL_VERDICT_EVENTS => R.ISL_VERDICT_EVENTS i0
  | .ISL_VERDICT_CNT => R.ISL_VERDICT_CNT i0 i1
  | .ISL_OCC_BASE => R.ISL_OCC_BASE i0
  | .ISL_OCC_CFG => R.ISL_OCC_CFG i0
  | .ISL_OCC_ROUTE => R.ISL_OCC_ROUTE i0
  | .ISL_RETR_MAP => R.ISL_RETR_MAP i0 i1
  | .PNL_RETR_CFG => R.PNL_RETR_CFG (8 * i0 + i1)
  | .PNL_RETR_CNT => R.PNL_RETR_CNT (8 * i0 + i1)
  | .ISL_BEAM_TAB => R.ISL_BEAM_TAB i0 i1
  | .ISL_BEAM_CFG => R.ISL_BEAM_CFG i0
  | .ISL_WEIGHT_CFG => R.ISL_WEIGHT_CFG i0
  | .ISL_WEIGHT_COMMIT => R.ISL_WEIGHT_COMMIT i0
  | .ISL_WEIGHT_STATUS => R.ISL_WEIGHT_STATUS i0
  | .ISL_MARK_HEAD => R.ISL_MARK_HEAD i0
  | .ISL_BEAM_EVENTS => R.ISL_BEAM_EVENTS i0
  | .ISL_BEAM_CNT => R.ISL_BEAM_CNT i0 i1
  | .ISL_WEIGHT_BASE => R.ISL_WEIGHT_BASE i0
  | .ISL_BEAM_LAST_EPOCH => R.ISL_BEAM_LAST_EPOCH i0
  | .PRT_ENTRY => R.PRT_ENTRY i0
  | .EGR_DUMP_SEQ => R.EGR_DUMP_SEQ
  | .EGR_DUMP_LAST_F => R.EGR_DUMP_LAST_F
  | .EGR_EVENTS => R.EGR_EVENTS
  | .EGR_IRQ_EN => R.EGR_IRQ_EN
  | .EGR_ROUTE_ERR_CNT => R.EGR_ROUTE_ERR_CNT
  | .EGR_CLIP_CNT => R.EGR_CLIP_CNT
  | .EGR_GROUP_LOST => R.EGR_GROUP_LOST i0
  | .EGR_GROUP_CFG => R.EGR_GROUP_CFG i0
  | .EGR_RELAY_DROP => R.EGR_RELAY_DROP i0
  | .EGR_QUEUE => R.EGR_QUEUE i0
  | .EGR_Q_DROP => R.EGR_Q_DROP i0
  | .EGR_RING_CFG => R.EGR_RING_CFG i0
  | .EGR_RING_PTR => R.EGR_RING_PTR i0
  | .EGR_WIN_HDR => R.EGR_WIN_HDR i0
  | .EGR_WIN_SEQ => R.EGR_WIN_SEQ i0
  | .EGR_WIN_CTRL => R.EGR_WIN_CTRL i0
  | .EGR_WIN_DATA => R.EGR_WIN_DATA i0 i1
  | .PAT_CTRL => R.PAT_CTRL
  | .PAT_STATUS => R.PAT_STATUS
  | .PAT_EVENTS => R.PAT_EVENTS
  | .PAT_ERR_OFFSET => R.PAT_ERR_OFFSET
  | .PAT_LOAD_ADDR => R.PAT_LOAD_ADDR
  | .PAT_LOAD_LEN => R.PAT_LOAD_LEN
  | .PAT_ACTIVATE_AT => R.PAT_ACTIVATE_AT
  | .PAT_STOP_AT => R.PAT_STOP_AT
  | .PAT_ACTIVE_ID => R.PAT_ACTIVE_ID
  | .PAT_SHADOW_ID => R.PAT_SHADOW_ID
  | .PAT_ACTIVE_AT => R.PAT_ACTIVE_AT
  | .PAT_PUBKEY => R.PAT_PUBKEY i0
  | .DEV_MODE => R.DEV_MODE
  | .DEV_TEST_CFG => R.DEV_TEST_CFG
  | .ISL_CLK => R.ISL_CLK i0
  | .AWL_CTRL => R.AWL_CTRL i0
  | .AWL_STATUS => R.AWL_STATUS i0
  | .AWL_EVENTS => R.AWL_EVENTS i0
  | .AWL_ECAUSE => R.AWL_ECAUSE i0
  | .AWL_EPC => R.AWL_EPC i0
  | .AWL_EADDR => R.AWL_EADDR i0
  | .AWL_HOST_SIG => R.AWL_HOST_SIG i0
  | .AWL_DOORBELL => R.AWL_DOORBELL i0
  | .AWL_CYCLES => R.AWL_CYCLES i0
  | .AWL_STALLS => R.AWL_STALLS i0
  | .AWL_SPEC => R.AWL_SPEC i0 i1
  | .AWL_XREG => R.AWL_XREG i0 i1
  | .AWL_ACC => R.AWL_ACC i0 i1
  | .CAP_CFG => R.CAP_CFG
  | .CAP_RING_BASE => R.CAP_RING_BASE i0
  | .CAP_RING_GEOM => R.CAP_RING_GEOM i0
  | .CAP_TRIG_CFG => R.CAP_TRIG_CFG
  | .CAP_TRIG_SW => R.CAP_TRIG_SW
  | .CAP_NEXT_SEQ => R.CAP_NEXT_SEQ
  | .CAP_HEAD_SEQ => R.CAP_HEAD_SEQ
  | .CAP_EVENTS => R.CAP_EVENTS
  | .CAP_CNT => R.CAP_CNT i0
  | .CAP_RGN_START => R.CAP_RGN_START i0
  | .CAP_RGN_END => R.CAP_RGN_END i0
  | .CAP_RGN_CTRL => R.CAP_RGN_CTRL i0
  | .CAP_TAP => R.CAP_TAP i0
  | .PCIE_CFG => R.PCIE_CFG i0
  | .PCIE_STATUS => R.PCIE_STATUS i0
  | .PCIE_OB_XLATE => R.PCIE_OB_XLATE i0
  | .PCIE_IB_BASE => R.PCIE_IB_BASE i0
  | .PCIE_IB_XLATE => R.PCIE_IB_XLATE i0
  | .PCIE_MSI_ADDR => R.PCIE_MSI_ADDR i0
  | .MEM_CFG => R.MEM_CFG
  | .MEM_ILV => R.MEM_ILV
  | .MEM_SCHED => R.MEM_SCHED
  | .MEM_SCRUB => R.MEM_SCRUB
  | .MEM_STATUS => R.MEM_STATUS
  | .MEM_PORT_TARGET => R.MEM_PORT_TARGET i0
  | .MEM_CH_CTRL => R.MEM_CH_CTRL i0
  | .MEM_CH_STATUS => R.MEM_CH_STATUS i0
  | .MEM_CH_ERR_ADDR => R.MEM_CH_ERR_ADDR i0
  | .MEM_CH_CNT => R.MEM_CH_CNT i0 i1
  | .ECC_SPILL_CHK => R.ECC_SPILL_CHK
  | .ECC_EVENTS => R.ECC_EVENTS
  | .ECC_CE_THRESH => R.ECC_CE_THRESH
  | .ECC_CNT => R.ECC_CNT i0
  | .ECC_LAST_UE => R.ECC_LAST_UE
  | .ECC_DIAG_CTRL => R.ECC_DIAG_CTRL
  | .ECC_DIAG_RAW => R.ECC_DIAG_RAW
  | .ECC_ONCHIP_SCRUB => R.ECC_ONCHIP_SCRUB
  | .FUSE_REPAIR => R.FUSE_REPAIR i0
  | .FUSE_REPAIR_PROG => R.FUSE_REPAIR_PROG
  | .FUSE_REPAIR_STATUS => R.FUSE_REPAIR_STATUS
  | .WELT_PARK => R.WELT_PARK
  | .WELT_TIMEOUT => R.WELT_TIMEOUT
  | .WELT_EVENTS => R.WELT_EVENTS
  | .WELT_ERR_INFO => R.WELT_ERR_INFO
  | .WELT_ERR_ADDR => R.WELT_ERR_ADDR
  | .WELT_CNT => R.WELT_CNT i0
  | .WELT_IND_MAX => R.WELT_IND_MAX
  | .WELT_IND_OVER_CNT => R.WELT_IND_OVER_CNT
  | .WELT_IND_DROP_CNT => R.WELT_IND_DROP_CNT
  | .WELT_M_STATUS => R.WELT_M_STATUS i0
  | .DMA_EVENTS => R.DMA_EVENTS
  | .DMA_DONE => R.DMA_DONE
  | .DMA_IRQ_EN => R.DMA_IRQ_EN
  | .DMA_CH_CFG => R.DMA_CH_CFG i0
  | .DMA_CH_RING => R.DMA_CH_RING i0
  | .DMA_CH_CTRL => R.DMA_CH_CTRL i0
  | .DMA_CH_STATUS => R.DMA_CH_STATUS i0
  | .DMA_CH_REMAIN => R.DMA_CH_REMAIN i0
  | .DMA_CH_ELEM => R.DMA_CH_ELEM i0
  | .DMA_CH_BYTES => R.DMA_CH_BYTES i0
  | .TIM_CTRL => R.TIM_CTRL
  | .TIM_STATUS => R.TIM_STATUS
  | .TIM_HISTORY => R.TIM_HISTORY
  | .TIM_SEL_CFG => R.TIM_SEL_CFG
  | .TIM_ARB_CFG => R.TIM_ARB_CFG
  | .TIM_QTX => R.TIM_QTX
  | .TIM_LREF => R.TIM_LREF
  | .TIM_PTP_REF => R.TIM_PTP_REF
  | .TIM_TIME_LOAD_SEC => R.TIM_TIME_LOAD_SEC
  | .TIM_TIME_LOAD_NS => R.TIM_TIME_LOAD_NS
  | .TIM_PPS_OUT => R.TIM_PPS_OUT
  | .TIM_SNAP_SEC => R.TIM_SNAP_SEC
  | .TIM_SNAP_NSF => R.TIM_SNAP_NSF
  | .TIM_INCREMENT => R.TIM_INCREMENT
  | .TIM_HOLD_EST => R.TIM_HOLD_EST
  | .TIM_PHASE_STEP => R.TIM_PHASE_STEP
  | .TIM_PHASE_PEND => R.TIM_PHASE_PEND
  | .TIM_REF_CFG => R.TIM_REF_CFG i0
  | .TIM_REF_STATUS => R.TIM_REF_STATUS i0
  | .TIM_REF_FREQ => R.TIM_REF_FREQ i0
  | .TIM_FO_CFG => R.TIM_FO_CFG i0
  | .TIM_FO_OFFSET => R.TIM_FO_OFFSET i0
  | .TIM_FO_PERIOD => R.TIM_FO_PERIOD i0
  | .PTP_STATUS => R.PTP_STATUS
  | .PTP_TS_POP => R.PTP_TS_POP
  | .PTP_TS_SEC => R.PTP_TS_SEC
  | .PTP_TS_NSF => R.PTP_TS_NSF
  | .PTP_TS_CSEC => R.PTP_TS_CSEC
  | .PTP_TS_CNSF => R.PTP_TS_CNSF
  | .PTP_LANE_TX => R.PTP_LANE_TX
  | .PTP_PORT_CFG => R.PTP_PORT_CFG i0
  | .PTP_PORT_LAT => R.PTP_PORT_LAT i0
  | .INTC_PRIO => R.INTC_PRIO i0
  | .INTC_PENDING => R.INTC_PENDING i0
  | .INTC_ENABLE => R.INTC_ENABLE i0 i1
  | .INTC_THRESHOLD => R.INTC_THRESHOLD i0
  | .INTC_CLAIM => R.INTC_CLAIM i0
  | .HTIM_TIME => R.HTIM_TIME
  | .HTIM_CMP => R.HTIM_CMP i0
  | .HTIM_SWI => R.HTIM_SWI i0
  | .DEV_CORE_CTRL => R.DEV_CORE_CTRL
  | .DEV_CORE_RVEC => R.DEV_CORE_RVEC
  | .DEV_BOOT => R.DEV_BOOT
  | .DEV_L2_CTRL => R.DEV_L2_CTRL
  | .DEV_QSPI_CTRL => R.DEV_QSPI_CTRL
  | .DEV_QSPI_DATA => R.DEV_QSPI_DATA
  | .FUSE_BOOT_KEY => R.FUSE_BOOT_KEY i0 i1
  | .FUSE_BOOT_CFG => R.FUSE_BOOT_CFG
  | .MGMT_CFG => R.MGMT_CFG
  | .MGMT_STATUS => R.MGMT_STATUS
  | .MGMT_MAC_ADDR => R.MGMT_MAC_ADDR
  | .MGMT_RING => R.MGMT_RING i0
  | .MGMT_PTR => R.MGMT_PTR i0
  | .MGMT_MDIO => R.MGMT_MDIO
  | .MGMT_CNT => R.MGMT_CNT i0
  | .SMU_STATUS => R.SMU_STATUS
  | .SMU_EVENTS => R.SMU_EVENTS
  | .SMU_CMD => R.SMU_CMD
  | .SMU_CFG => R.SMU_CFG
  | .SMU_TIME_CFG => R.SMU_TIME_CFG
  | .SMU_REC_HEAD => R.SMU_REC_HEAD
  | .SMU_REC_TAIL => R.SMU_REC_TAIL
  | .SMU_KEY_ID => R.SMU_KEY_ID
  | .SMU_BOOT => R.SMU_BOOT
  | .SMU_FW_ID => R.SMU_FW_ID
  | .SMU_CFG_HASH => R.SMU_CFG_HASH i0
  | .SMU_CNT => R.SMU_CNT i0
  | .SMU_OCC => R.SMU_OCC i0
  | .SMU_SEL => R.SMU_SEL i0
  | .SMU_THR => R.SMU_THR i0
  | .SMU_NOTE => R.SMU_NOTE
  | .MON_CFG => R.MON_CFG i0
  | .MON_SRC => R.MON_SRC i0
  | .MON_NCO => R.MON_NCO i0
  | .MON_RATIO => R.MON_RATIO i0
  | .MON_CTRL => R.MON_CTRL i0
  | .MON_STATUS => R.MON_STATUS i0
  | .MON_EVENTS => R.MON_EVENTS i0
  | .MON_CNT => R.MON_CNT i0 i1
  | .MON_CS => R.MON_CS i0 i1
  | .MON_IN_STATUS => R.MON_IN_STATUS
  | .HK_CFG => R.HK_CFG
  | .HK_SEQ_EN => R.HK_SEQ_EN
  | .HK_STATUS => R.HK_STATUS
  | .HK_URGENT => R.HK_URGENT
  | .HK_URGENT_RESULT => R.HK_URGENT_RESULT
  | .HK_RESULT => R.HK_RESULT i0
  | .EVR_EVENTS => R.EVR_EVENTS
  | .EVR_POWER_CYCLES => R.EVR_POWER_CYCLES
  | .EVR_OP_TIME => R.EVR_OP_TIME
  | .EVR_HEAD => R.EVR_HEAD
  | .EVR_OLDEST => R.EVR_OLDEST
  | .EVR_ONCE_NEXT => R.EVR_ONCE_NEXT
  | .EVR_LOST_CNT => R.EVR_LOST_CNT
  | .EVR_APPEND => R.EVR_APPEND
  | .EVR_WIN_SEL => R.EVR_WIN_SEL
  | .EVR_SW_BUF => R.EVR_SW_BUF i0
  | .EVR_STORE => R.EVR_STORE i0
  | .EGR_LINK_FAIL => R.EGR_LINK_FAIL
  | .FO_CFG => R.FO_CFG
  | .FO_STATUS => R.FO_STATUS
  | .FO_EVENTS => R.FO_EVENTS
  | .FO_LAST => R.FO_LAST
  | .FO_LAST_NEXT => R.FO_LAST_NEXT
  | .FO_SUPP_CNT => R.FO_SUPP_CNT
  | .FO_WIN_LO => R.FO_WIN_LO i0
  | .FO_WIN_HI => R.FO_WIN_HI i0
  | .DEV_STATUS => R.DEV_STATUS
  | .FUSE_PART_CODE => R.FUSE_PART_CODE
end Sys2Proof.Machine
end

