-- ==== Sys2Proof/Machine/State.lean ====
section
/-! DEFINITION. The state of the device as plain data: every register, memory, buffer, queue and mode the spec gives it,
unit by unit, the queue of waiting commands, and the machine right after reset. -/
namespace Sys2Proof.Machine

/-! ### High-speed lanes (chapters 03 and 04) -/

/-- One item of a lane's receive elastic buffer (R65): a block with a valid header, a TIME block with the device time at
which its first line bit came in (R117), a block with an invalid header, a control block already discarded (R94, R95), or the
mark that the receive half left UP. -/
inductive RxItem where
  | block (ctrl : Bool) (p : Payload)
  | timed (p : Payload) (t : Nat)
  | bad
  | skip
  | left
deriving DecidableEq, Repr

/-- The frame a receive half has open (R99, R106); `up` says that its FSTART came in while the lane was UP (R73). -/
structure RxFrame where
  hdr : Payload
  data : List Payload
  blocks : Nat
  malformed : Bool
  up : Bool
deriving DecidableEq, Repr

/-- The receive half of a lane: stuff removal (R91), alignment (R92, R93), descrambler (R88), elastic buffer (R65),
open frame (R106) and replay receiver (R110). `t0` is the device time of the first line bit of the block being collected (R117),
`count` the lane block count (R29), `idleAt` the timing cycle at which the lane entered ELEC_IDLE (R79), `okSeq` one more than the last
sequence number that egress has taken in order, and `ackDue` that it has not been acknowledged (R110, R253). -/
structure LaneRx where
  runV : Bool
  runC : Nat
  viol : Bool
  blkBad : Bool
  bits : List Bool
  desc : BitVec 58
  good : Nat
  win : List Bool
  idleFlag : Bool
  buf : List RxItem
  frame : Option RxFrame
  expSeq : Nat
  nakWait : Bool
  nakReason : Nat
  t0 : Nat
  count : Nat
  idleAt : Nat
  okSeq : Nat
  ackDue : Bool
deriving DecidableEq, Repr

/-- The training protocol of a lane (R69, R70, R71). `tried` lists the linear-equalizer settings taken so far. Requests are (REQ, TAP, PRESET); statuses are of PRE, MAIN and POST. -/
structure LaneTrn where
  phase : Nat
  lockSeen : Bool
  tried : List Nat
  step : Nat
  winBlocks : Nat
  winErrs : Nat
  passed : Bool
  finalLeft : Nat
  req : Nat × Nat × Nat
  reqPend : Bool
  unanswered : Nat
  stat : Nat × Nat × Nat
  change : Option (Nat × Nat × Nat)
  start : Nat
deriving DecidableEq, Repr

/-- A frame on its way out of a transmit half. `unit` numbers the group's transaction it belongs to (R485); `sent` says that its
FEND has been sent since it was last due (R111). -/
structure TxFrame where
  hdr : Payload
  data : List Payload
  unit : Nat
  seq : Nat
  sends : Nat
  first : Nat
  sent : Bool
deriving DecidableEq, Repr

/-- A TIME block waiting to be sent (R409). -/
structure TimeOut where
  msg : Nat
  seqId : Nat
  domain : Nat
  time : Nat
deriving DecidableEq, Repr

/-- The transmit half of a lane: scrambler (R88), stuffing (R90), idle and wake (R77, R78), blocks due (R98), frames
and replay buffer (R108 to R113), pause (R114). `line` is what it last drove. -/
structure LaneTx where
  scr : BitVec 58
  runV : Bool
  runC : Nat
  line : List Bool
  driving : Bool
  wake : Option Nat
  idleTick : Nat
  nak : Option (Nat × Nat)
  ack : Option Nat
  handover : List Payload
  trig : List Payload
  time : List TimeOut
  qual : List Payload
  qualCount : Nat
  queue : List TxFrame
  cur : Option (TxFrame × Nat)
  replay : List TxFrame
  resend : List TxFrame
  seq : Nat
  lastReplay : Option (Nat × Nat)
  pause : Option Nat
deriving DecidableEq, Repr

/-- The PRBS generator and checker of a lane (R81, R83). -/
structure LanePrbs where
  gen : Nat
  inject : Bool
  chk : Nat
  seed : Nat
  matched : Nat
  window : BitVec 1024
  errs : Nat
  bits : Nat
  stopped : Bool
deriving DecidableEq, Repr

/-- One lane beside its registers. `rotDue` names the lane group from whose rotation the lane, which left UP, is due to be removed
(R74). -/
structure LaneSt where
  rx : LaneRx
  trn : LaneTrn
  tx : LaneTx
  prbs : LanePrbs
  rotDue : Option Nat
deriving DecidableEq, Repr

/-- A lane as power-on reset leaves it (R84). -/
def LaneSt.init : LaneSt :=
  { rx := { runV := false, runC := 0, viol := false, blkBad := false, bits := [], desc := 0, good := 0, win := [],
            idleFlag := false, buf := [], frame := none, expSeq := 0, nakWait := false, nakReason := 0, t0 := 0, count := 0, idleAt := 0,
            okSeq := 0, ackDue := false }
    trn := { phase := 0, lockSeen := false, tried := [], step := 0, winBlocks := 0, winErrs := 0, passed := false,
             finalLeft := 0, req := (0, 0, 0), reqPend := false, unanswered := 0, stat := (0, 0, 0), change := none, start := 0 }
    tx := { scr := 0, runV := false, runC := 0, line := [], driving := false, wake := none,
            idleTick := 0, nak := none, ack := none, handover := [], trig := [], time := [], qual := [], qualCount := 0,
            queue := [], cur := none, replay := [], resend := [], seq := 0, lastReplay := none, pause := none }
    prbs := { gen := 0, inject := false, chk := 0, seed := 0, matched := 0, window := 0, errs := 0, bits := 0, stopped := false }
    rotDue := none }

/-! ### Ingest (chapters 02 and 05) -/

/-- A linear map from sample counter to device time (R44): reference counter, reference time and period, both times in
units of 2^-32 ns. -/
structure TimeMap where
  sc : Nat
  ref : Nat
  period : Nat
deriving DecidableEq, Repr

/-- One stream's part of an open or completed frame. A position t, c is listed under t × 4,096 + c: 0 unfilled,
1 filled invalid, 2 + code filled valid, 65,538 filled valid and lost on its way to SDRAM (R122, R123, R383). -/
structure StreamFrame where
  pos : Tab Nat
  out : Bool
deriving DecidableEq, Repr

/-- One frame of an alignment group: its streams, and whether it has completed (R49). -/
structure GroupFrame where
  streams : Tab StreamFrame
  done : Bool
deriving DecidableEq, Repr

/-- One alignment group beside its registers: its time maps with the frame each is in force from, newest first (R45);
the boundary at which an armed map is taken; F_old, the oldest frame whose deadline has not passed (R48); its frames. -/
structure GroupSt where
  maps : List (Nat × TimeMap)
  armAt : Option Nat
  fold : Nat
  frames : Tab GroupFrame
deriving DecidableEq, Repr

/-- One stream beside its status register: the frame of a scheduled rejoin (R53), the first frame for which it is IN
again, and one more than the highest sample counter it has delivered (R52). -/
structure StreamSt where
  rejoin : Option Nat
  inFrom : Nat
  last : Nat
deriving DecidableEq, Repr

/-- A corner-turn write (R131, R383): its number, frame, group and stream, its memory port address, the bytes it carries
and the positions they hold. -/
structure CtWrite where
  id : Nat
  frame : Nat
  group : Nat
  stream : Nat
  addr : Nat
  cells : List (Nat × Byte)
  pos : List Nat
deriving DecidableEq, Repr

/-- A statistics record (R129). -/
structure StatRec where
  n : Nat
  masked : Bool
  out : Bool
  bad : Bool
  s1 : Nat
  s2 : Nat
  stream : Nat
  ct : Nat
  chan : Nat
  frame : Nat
deriving DecidableEq, Repr

/-- An item on the Ingest to ISL_n crossing (R29, R57): a frame's statistics records, a commit, or a frame marker. -/
inductive IslItem where
  | stat (frame : Nat) (recs : List StatRec)
  | mask (frame : Nat) (changed : Bool)
  | drain (frame : Nat)
  | swap (frame : Nat) (stop : Bool)
  | marker (frame : Nat)
deriving DecidableEq, Repr

/-- The ingest island beside its registers and lanes. `masks` holds the live slot masks with the frame each set is in
force from, newest first; a set lists only groups whose mask is not all ones, as the complement. `outgoing` holds the
layout registers of outgoing patterns, newest first, for frames below their boundaries, and `layout` the first frame of the corner-turn layout in
force (R134). -/
structure IngestSt where
  groups : Tab GroupSt
  streams : Tab StreamSt
  masks : List (Nat × Tab Word)
  slotAt : Option Nat
  opened : Option Nat
  first : Nat
  stopAt : Option Nat
  outgoing : List (Nat × Tab Word)
  layout : Nat
  staging : List CtWrite
  sent : List CtWrite
  nextWrite : Nat
  drops : Tab Nat
  statNext : Nat
  toIsl : Tab (List IslItem)
deriving DecidableEq, Repr

def GroupSt.init : GroupSt := { maps := [], armAt := none, fold := 0, frames := [] }
def StreamSt.init : StreamSt := { rejoin := none, inFrom := 0, last := 0 }
def StreamFrame.init : StreamFrame := { pos := [], out := false }
def GroupFrame.init : GroupFrame := { streams := [], done := false }

/-- Ingest as power-on reset leaves it. -/
def IngestSt.init : IngestSt :=
  { groups := [], streams := [], masks := [], slotAt := none, opened := none, first := 0, stopAt := none, outgoing := [], layout := 0, staging := [],
    sent := [], nextWrite := 0, drops := [], statNext := 0, toIsl := [] }

/-! ### Crossings out of ingest -/

/-- A frame on the Ingest to SMU crossing (R127, R435). -/
structure TapFrame where
  lane : Nat
  bad : Bool
  hdr : Payload
  data : List Payload
deriving DecidableEq, Repr

/-- A PRODUCT or BEAM frame received on a C2C lane, on the Ingest to Egress crossing (R253), stamped with its lane's block
count (R29). `cfg` is the frame that ingest had reached, whose configuration the frame is relayed under. -/
structure RelayFrame where
  lane : Nat
  stamp : Nat
  cfg : Nat
  hdr : Payload
  data : List Payload
deriving DecidableEq, Repr

/-- An item on the Ingest to Egress crossing (R28, R29): a received frame to be relayed, a received ACK, NAK, PAUSE, TRIGGER or HANDOVER
block with its lane and the lane's block count, or the dump marker of a boundary (R247). -/
inductive EgrIn where
  | frame (f : RelayFrame)
  | ctl (lane stamp : Nat) (p : Payload)
  | dump (n : Nat)
deriving DecidableEq, Repr

/-! ### IEEE 1588 time stamps (R409 to R411) -/

/-- An entry of the time-stamp FIFO (R411): its key, the corrected stamp and the time a received TIME block carried. -/
structure PtpStamp where
  tx : Bool
  port : Nat
  type : Nat
  domain : Nat
  seqId : Nat
  time : Nat
  carried : Nat
deriving DecidableEq, Repr

/-- DELAY_RESP messages owed on a lane and the FIFO (R409, R411). `lost` says that the next entry popped has LOST set. -/
structure PtpSt where
  fifo : List PtpStamp
  lost : Bool
  owed : List (Nat × TimeOut)
deriving DecidableEq, Repr

def PtpSt.init : PtpSt := { fifo := [], lost := false, owed := [] }

/-! ### Event recorder (chapter 20) -/

/-- The body of an append: an EVENT body, whose FRAME is filled when it reaches the recorder (R480), or bytes. -/
inductive RecBody where
  | event (bit reg : Nat) (args : List Nat)
  | bytes (b : List Nat)
deriving DecidableEq, Repr

/-- An append on its way to the recorder (R475, R478). `full` asks for a full header (R482). -/
structure Rec where
  type : Nat
  source : Nat
  inst : Nat
  body : RecBody
  full : Bool
deriving DecidableEq, Repr

/-- A record in the recorder's queue: its body as bytes, its SEQ and the operating time of its append (R475). -/
structure QRec where
  type : Nat
  source : Nat
  inst : Nat
  body : List Nat
  full : Bool
  seq : Nat
  hours : Nat
  sec : Nat
deriving DecidableEq, Repr

/-- The event recorder beside its registers: appends in transit from the other islands, the queue and its SMU part
(R479), the non-volatile store, whose unlisted bytes are erased and read 0xFF (R473, R474), where the next records go,
whether the block of `head` has been erased and entered (R477), POWER_CYCLE and HOURS of the previous record of the
current block of each region, and the stored counts (R476). -/
structure EvrSt where
  transit : List Rec
  queue : List QRec
  smuQueue : List QRec
  store : Tab Byte
  head : Nat
  oldest : Nat
  entered : Bool
  fresh : Bool
  last : Option (Nat × Nat)
  onceNext : Nat
  onceLast : Option (Nat × Nat)
  powerCycle : Nat
  hours : Nat
  sec : Nat
  saved : Nat
  seq : Nat
  lostSince : Nat
deriving DecidableEq, Repr

/-- The recorder before the first power-on reset of the device's life (R476). -/
def EvrSt.blank : EvrSt :=
  { transit := [], queue := [], smuQueue := [], store := [], head := 0x40000, oldest := 0x40000, entered := false, fresh := true,
    last := none, onceNext := 0, onceLast := none, powerCycle := 0, hours := 0, sec := 0, saved := 0, seq := 0, lostSince := 0 }

/-! ### Pattern port (chapter 11) -/

/-- A fill unit of a plan (R135, R272). -/
structure FillUnit where
  c0 : Nat
  nc : Nat
  t0 : Nat
  nt : Nat
  s0 : Nat
  ns : Nat
  dest : Nat
deriving DecidableEq, Repr

/-- What an image puts in the shadow banks (R266 to R273): its IMAGE_ID, the DEVICE section, the REGS words by physical
address, the program words by panel × 4,096 + word, the fill plans by island with their run-ahead, and the banks (island, 8
for the device-wide bank) in which an uncorrectable error was found (R351). -/
structure PatBank where
  id : Nat
  mode : Nat
  chip : Nat
  gen : Nat
  re : Nat
  im : Nat
  dram : Nat
  clkN : List Nat
  words : Tab Nat
  ucode : Tab Word
  fills : Tab (Nat × List FillUnit)
  broken : List Nat
deriving DecidableEq, Repr

/-- The pattern port beside its registers: the shadow, the boundary of an armed activation, the swap and the stop in progress,
oldest first, with the incoming bank (none: no pattern), whether the first is a cold activation, the pending stop, ingest's copy of every panel's grid as
(A, frames per integration) (R247), and the address and greatest length of the load in progress.
For R284 the model keeps the SDRAM regions of the pattern that ingest has taken up, as (kind, first, end), and the ranges that two
of them share, as (first, end). -/
structure PatSt where
  shadow : Option PatBank
  armed : Option Nat
  next : List (Nat × Option PatBank)
  cold : Bool
  stop : Option Nat
  grids : Tab (Nat × Nat)
  load : Nat × Nat
  regions : List (Nat × Nat × Nat)
  clash : List (Nat × Nat)
deriving DecidableEq, Repr

def PatSt.init : PatSt :=
  { shadow := none, armed := none, next := [], cold := false, stop := none, grids := [], load := (0, 0), regions := [],
    clash := [] }

/-! ### Panels (chapters 06, 07 and 09) -/

/-- One word of a slot or promotion plane: real and imaginary accumulator and their sticky saturation bits (R170). A
weight slot holds its weights here too (R217). -/
structure Cell where
  re : Int
  im : Int
  sre : Bool
  sim : Bool
deriving DecidableEq, Repr

/-- A binding of a slot (R149): its tag, the frame and INT_START at its OPEN (R179), shape and operand offsets, whether LOADW bound it and
whether its weights are LOADING from an address (R231), its BAD mark and beam block, its CONFLICT mark (R165), promotion partner (R174),
the operations since its OPEN or last PROMOTE and whether the limit was recorded (R176), and whether every word is
marked saturated (R175, R176). -/
structure Bind where
  tag : Nat
  frame : Nat
  start : Nat
  shape : Nat
  rowOff : Nat
  colOff : Nat
  weight : Bool
  loading : Option Nat
  bad : Bool
  bb : Nat
  conflict : Bool
  partner : Option Nat
  ops : Nat
  limitHit : Bool
  allSat : Bool
deriving DecidableEq, Repr

/-- A slot of a panel: free, or bound, and its plane. -/
structure SlotSt where
  bind : Option Bind
  plane : Tab Cell
deriving DecidableEq, Repr

/-- A SPILL or DUMP as it issued: slot, tag, A[REG_A], the INIT mark of R179, the integration it belongs to (R238), the frame of its
binding's OPEN (R190), and the input format its plane was accumulated in (R149). -/
structure PortOp where
  dump : Bool
  slot : Nat
  tag : Nat
  addr : Nat
  init : Bool
  start : Nat
  frame : Nat
  gang : Nat
deriving DecidableEq, Repr

/-- What a panel's port holds, in order (R151, R182): an operation still queued, a captured plane, or a close mark stamped F
with the closing integration's parity and first frame, or the close F that the planes of a stopped panel belong to. -/
inductive PortItem where
  | queued (op : PortOp)
  | plane (op : PortOp) (shape gang : Nat) (cells : Tab Cell) (conflict : Bool) (partner : Option Nat)
  | mark (f parity start : Nat)
  | fix (f : Nat)
deriving DecidableEq, Repr

/-- A RETRACT request or a granule (R199, R203): frame, corner-turn index, channel group. -/
structure Granule where
  frame : Nat
  u : Nat
  g : Nat
deriving DecidableEq, Repr

/-- The service routine a panel runs (R161), with the state it saved and, for a RETRACT, its granule and whether a
parity error struck it (R208). `hold` keeps the wait counter of an operation that was held when the service was taken (R164). -/
structure Svc where
  kind : Nat
  at_ : Nat
  gran : Option Granule
  parity : Bool
  pc : Nat
  ti : Nat
  ts : Nat
  hold : Option (Nat × Nat)
deriving DecidableEq, Repr

/-- A panel beside its registers. `ctrl` says that the control syllable of the word at PC has taken effect and its array
syllable is due. `marked` says that the word is an FMARK that has issued; `atMark` names F at the interruptible point that follows FMARK F, with the RETRACTs that point still
takes; `took` says that this point took a service (R160). `rep` is (first word, length, iterations left) of a repeat;
`br` the delay slots left and the target. `closing` names a close whose close point is not reached (R182). `promo` is
the promotion add in progress: slot, plane and captured cells. `hold` counts the held cycles of the word's slot operation, beside the
SLOT_WAIT that its hold began under (R164, R166). `baGrp` are the alignment groups of the vectors that BA sums, `chainGrp` that of
the sample at each chain position (R42). `seen` are the Insole bytes with bad parity that the panel's ACCs have fetched: frame, row
and column offset of the ACC, and byte (R208). -/
structure PanelSt where
  ti : Nat
  ts : Nat
  prr : Nat
  prc : Nat
  ri : Nat
  ctrl : Bool
  slots : Tab SlotSt
  port : List PortItem
  promo : Option (Nat × Nat × Tab Cell)
  planes : Tab (Tab Cell)
  rep : Option (Nat × Nat × Nat)
  br : Option (Nat × Option Nat)
  svc : Option Svc
  ret : Bool
  retracts : List (Granule × Nat)
  taken : Nat
  cyc : Nat
  elig : Nat
  marked : Bool
  atMark : Option Nat
  markRetr : Nat
  took : Bool
  doneDrain : Option Nat
  doneSwap : Option Nat
  closing : Option Nat
  hold : Option (Nat × Nat)
  ba : Tab (Int × Int)
  baBad : Bool
  baGrp : List (Option Nat)
  chain : Tab (Int × Int)
  chainGrp : Tab (Option Nat)
  seen : List (Nat × Nat × Nat × Nat)
  zsig : List Nat
deriving DecidableEq, Repr

def SlotSt.init : SlotSt := { bind := none, plane := [] }
def Cell.zero : Cell := { re := 0, im := 0, sre := false, sim := false }

/-- A panel as power-on reset leaves it: OFF, every slot free. -/
def PanelSt.init : PanelSt :=
  { ti := 0, ts := 0, prr := 0, prc := 0, ri := 0, ctrl := false, slots := [], port := [], promo := none, planes := [],
    rep := none, br := none, svc := none, ret := false, retracts := [], taken := 0, cyc := 0, elig := 0, marked := false, atMark := none, markRetr := 0, took := false,
    doneDrain := none, doneSwap := none, closing := none, hold := none, ba := [], baBad := false, baGrp := [], chain := [], chainGrp := [], seen := [], zsig := [] }

/-! ### Compute islands (chapters 05 to 09) -/

/-- A fill unit that holds Insole space: its frame and number, its layout, whether it has been written, and the panels
that have issued RELU for it. `drop` says that it is dropped once its read in flight is complete (R137). -/
structure UnitSt where
  frame : Nat
  num : Nat
  fu : FillUnit
  zero : Bool
  full : Bool
  drop : Bool
  relu : List Nat
deriving DecidableEq, Repr

/-- An outcome that an occupancy table may list (R211, R212), in order of arrival: a granule with its panel mask and the
cause in each panel that has an outcome (0 retracted); a group-frame; a block of the integration that started at
`start`, or every block of a panel in the table of the close that `all` gives. -/
inductive OccItem where
  | granule (gr : Granule) (mask : List Nat) (outs : List (Nat × Nat))
  | group (frame g cause : Nat)
  | block (start frame panel tag : Nat) (all : Option Nat)
deriving DecidableEq, Repr

/-- An unsealed occupancy table (R210, R214): its first frame, its close boundary and its buffer. -/
structure OccTab where
  start : Nat
  close : Nat
  buf : Nat
deriving DecidableEq, Repr

/-- A commit that has reached an island (R57): 0 slot mask (`flag`: a live bit of a stream changed), 1 drain, 2 swap
(`flag`: a stop). -/
structure IslCommit where
  kind : Nat
  f : Nat
  flag : Bool
deriving DecidableEq, Repr

/-- An emission of a panel beam accumulator (R220), with the alignment groups of the vectors it sums (R42). -/
structure Emission where
  bb : Nat
  fb : Nat
  ch : Nat
  t : Nat
  bad : Bool
  grp : List (Option Nat)
  sums : Tab (Int × Int)
deriving DecidableEq, Repr

/-- A beam staging entry that holds an incomplete vector (R221, R222). -/
structure Staging where
  em : Emission
  parts : Nat
deriving DecidableEq, Repr

/-- A unit on its way to egress (R238): a plane's record words, layout, key, panel, first frame and, once known, its
close; `tag` is that of its block. -/
structure PlaneUnit where
  panel : Nat
  key : Nat
  layout : Nat
  words : Tab Nat
  start : Nat
  close : Option Nat
deriving DecidableEq, Repr

/-- An item on the ISL_n or Memory to Egress crossing (R29, R238, R248): a plane, a close notice (`mem`: the memory
island's), the close that planes of a stopped panel belong to, a sealed occupancy table in SDRAM, or requantized voltage samples of one channel and time, each (real, imaginary). -/
inductive EgrItem where
  | plane (u : PlaneUnit)
  | notice (panel f : Nat) (mem : Bool)
  | fix (panel f : Nat)
  | table (k f start addr len : Nat)
  | beam (k bb fb ch t : Nat) (bad : Bool) (samples : List (Nat × Nat))
deriving DecidableEq, Repr

/-- An item on the ISL_n to Memory crossing (R29, R180, R182, R316): a spilled plane with the first frame of its integration and the frame
of its binding's OPEN, a close marker, or a beam sample for capture. -/
inductive MemItem where
  | plane (panel tag addr kind : Nat) (init : Bool) (words : Tab Nat) (start frame : Nat)
  | mark (panel f parity start : Nat)
  | beam (k beam n ch t : Nat) (bad : Bool) (re im : Nat)
deriving DecidableEq, Repr

/-- A value of the reduction unit's working set or snapshot (R194). -/
structure RedVal where
  value : Nat
  frame : Nat
  chan : Nat
  index : Nat
deriving DecidableEq, Repr

/-- A compute island beside its registers and panels. `marked` is the newest frame marker received (none since reset), `view` device time
by the island's last time message (R34). `released` are RELUs for units that the filler has not begun (frame, unit, panel; R236).
`sealed` are the frame ranges of sealed tables (R201), `closes` the closes that panels have made (panel, first frame, F; R211), `dead` the
stopped panels with the frame they stopped at and the first frame of their integration in progress (R163). `weightDue` are weight
commits whose boundary is marked and not reached (R233).
`holds` lists the corner-turn frames held (R132), `withdrawn` those withdrawn and how (R133: 0 skipped, 1 cut short, 2
passed). `outgoing` holds the island's registers and plan of outgoing patterns, newest first, for frames below their swaps. -/
structure IslSt where
  marked : Option Nat
  view : Nat
  held : Bool
  holds : List Nat
  withdrawn : List (Nat × Nat)
  commits : List IslCommit
  plan : List FillUnit
  outgoing : List (Nat × Tab Word × List FillUnit)
  clockDue : Bool
  nextFill : Nat × Nat
  units : List UnitSt
  released : List (Nat × Nat × Nat)
  valid : Tab Nat
  occ : List OccItem
  tabs : List OccTab
  sealed : List (Nat × Nat)
  closes : List (Nat × Nat × Nat)
  tabNext : Nat
  dead : List (Nat × Nat × Nat)
  verdicts : List Granule
  heldV : List (Nat × Granule)
  phase : List (Nat × Nat × Option (Nat × Nat × Nat))
  red : List RedVal
  redTrig : List Nat
  redPend : List (Nat × RedVal)
  emissions : List Emission
  staging : Tab (Option Staging)
  banks : List (Nat × Nat)
  weightAt : Option (Nat × Nat)
  weightDue : List (Nat × Nat)
  weightF : Option Nat
  toMem : List MemItem
  toEgr : List EgrItem
deriving DecidableEq, Repr

/-- A compute island as power-on reset leaves it. -/
def IslSt.init : IslSt :=
  { marked := none, view := 0, held := false, holds := [], withdrawn := [], commits := [], plan := [], outgoing := [], clockDue := false,
    nextFill := (0, 0), units := [], released := [], valid := [], occ := [], tabs := [], sealed := [], closes := [], tabNext := 0, dead := [], verdicts := [],
    heldV := [], phase := [], red := [], redTrig := [], redPend := [], emissions := [], staging := [], banks := [],
    weightAt := none, weightDue := [], weightF := none, toMem := [], toEgr := [] }

/-! ### Spill adder (chapter 07) -/

/-- A dump read in progress (R183): panel, parity, close, first frame and the list entries still to read. -/
structure DumpRead where
  panel : Nat
  parity : Nat
  f : Nat
  start : Nat
  entry : Nat
deriving DecidableEq, Repr

/-- The spill adder beside its registers: record writes not yet complete as (panel, frame of the binding's OPEN), dump reads in progress,
the Memory to Egress crossing, and the drains delivered but not complete as (boundary, island mask). -/
structure SpillSt where
  writes : List (Nat × Nat)
  dumps : List DumpRead
  toEgr : List EgrItem
  drainsAt : List (Nat × Nat)
  drains : List (Nat × Nat)
deriving DecidableEq, Repr

def SpillSt.init : SpillSt := { writes := [], dumps := [], toEgr := [], drainsAt := [], drains := [] }

/-- A trigger on its way to the capture engine (R197, R323): source island, value and position. -/
structure TrigIn where
  k : Nat
  v : RedVal
deriving DecidableEq, Repr
/-! ### Awl signal cores (chapter 12) -/

/-- A queued transfer (R313): from the Welt address (DIR 1) or to it, a weight plane or not, the halfword and the Welt address it starts
at, and its bytes. -/
structure AwlXfer where
  dir : Bool
  plane : Bool
  loc : Nat
  far : Nat
  len : Nat
deriving DecidableEq, Repr

/-- What follows the delay slots of a branch (R300): its target, the return of RTE, or the next word where it is not taken. -/
inductive AwlGo where
  | goTo (t : Nat)
  | rte
  | on
deriving DecidableEq, Repr

/-- An Awl core beside its registers. `snap` holds its registers as they were before the word in progress (R294), `slots` which
of its move slots have taken effect, and `ld` what they read. `br` is the delay slots left and what follows them, `rep`
the issues left of a repeated word, `fault` a fault to be taken (cause, EADDR, DEFERRED), `halt` a request to stop (R305,
R307). Then IPEND's edges, STAT_LEVEL (R308) and the transfer engine: its registers, its queue, DONE, ERR and REFUSED (R313). -/
structure AwlSt where
  snap : Option (Tab Word)
  slots : Nat
  ld : Nat × Nat
  word : Nat
  br : Option (Nat × AwlGo)
  rep : Option Nat
  fault : Option (Nat × Nat × Bool)
  halt : Bool
  ipend : Nat
  level : Nat
  xloc : Nat
  xfar : Nat
  xlen : Nat
  xq : List AwlXfer
  xdone : Nat
  xerr : Bool
  xref : Bool
deriving DecidableEq, Repr

def AwlSt.init : AwlSt :=
  { snap := none, slots := 0, ld := (0, 0), word := 0, br := none, rep := none, fault := none, halt := false, ipend := 0, level := 0, xloc := 0,
    xfar := 0, xlen := 0, xq := [], xdone := 0, xerr := false, xref := false }


/-! ### Egress (chapter 10) -/

/-- One part of a unit's output: its record offset, the bytes 5 to 27 of its own FSTART for a BEAM frame (bytes 0 to 27
as received for a relayed frame, none for PRODUCT data), and its bytes not yet sent. -/
structure EgrPart where
  off : Nat
  hdr : List Nat
  bytes : List Nat
deriving DecidableEq, Repr

/-- A unit in egress (R238): its kind (R254: 0 product plane, 1 detected plane, 2 occupancy table, 3 voltage beam, 4 dump
end, 5 relayed frame), the crossing it came by (0 to 7 islands, 8 memory, 9 ingest, 10 egress itself), queue, entry, the
panel or island that sent it, its integration's first frame, a frame whose configuration it is sent under (R257), its
close once known, the bytes it takes in the staging store, its output, the window words it carries (R258), and whether
it was refused by R240 and is only to be counted. `txn` numbers its transaction while it is being dealt (R485). -/
structure EgrUnit where
  kind : Nat
  src : Nat
  queue : Nat
  entry : Nat
  fmt : Nat
  panel : Nat
  start : Nat
  cfg : Nat
  f : Option Nat
  room : Nat
  parts : List EgrPart
  win : Option (Nat × List (Nat × Nat))
  drop : Bool
  txn : Nat
deriving DecidableEq, Repr

/-- The ring writer of a ring (R255, R256): phase (0 idle, 1 waiting for OWN, 2 data, 3 header and 4 status write
awaiting its response, 5 halted), whether that response is an error, rereads since the wait began, the buffer and the bytes written into
it, whether the descriptor completes with ERR, whether units were dropped
since the previous descriptor, and BASE and LOG_N as last used (R257). -/
structure RingSt where
  phase : Nat
  bad : Bool
  polls : Nat
  buf : Nat
  len : Nat
  err : Bool
  gap : Bool
  last : Nat × Nat
deriving DecidableEq, Repr

/-- A result window (R259): the words of the presented dump, the dump presented or not, and the fill: its dump, queue,
words and whether it is complete. -/
structure WinSt where
  shown : Tab Word
  on : Bool
  fill : Option (Nat × Nat × Bool)
  words : Tab Word
deriving DecidableEq, Repr

/-- A transaction of a lane group with replay (R485): frames dealt, those of them not acknowledged, and
whether all are dealt. -/
structure Txn where
  id : Nat
  group : Nat
  queue : Nat
  f : Option Nat
  dealt : Nat
  left : Nat
  all : Bool
deriving DecidableEq, Repr

/-- Voltage samples gathered for the frames of one beam block (R224): island, block, frame, first time index, whether
the vector of each position t × COUNT + channel has arrived, the codes (real + 256 × imaginary) of each position by column, and the
positions that are invalid. -/
structure BeamPack where
  k : Nat
  bb : Nat
  fb : Nat
  t0 : Nat
  seen : List Nat
  codes : Tab (List Nat)
  bad : List Nat
deriving DecidableEq, Repr

/-- Egress beside its registers: units that have arrived and wait to enter their queues, the queues, dumps that have a
number and have not ended on every queue, units sent and dropped by (queue, dump), close notices by panel (own and
memory island's, plus one), islands with a notice stamped exactly F, tables sent, queues on which a dump has ended, the
turn of each lane group (queue and lane last served, plus one, and frames left), ring writers, windows, transactions, and beam packing. -/
structure EgrSt where
  wait : List EgrUnit
  queues : Tab (List EgrUnit)
  numbers : List (Nat × Nat)
  counts : List (Nat × Nat × Nat × Nat)
  notices : Tab (Nat × Nat)
  exact : List (Nat × Nat)
  tables : List (Nat × Nat)
  ended : List (Nat × Nat)
  turn : Tab (Nat × Nat × Nat)
  rings : Tab RingSt
  wins : Tab WinSt
  txns : List Txn
  nextTxn : Nat
  packs : List BeamPack
deriving DecidableEq, Repr

def RingSt.init : RingSt := { phase := 0, bad := false, polls := 0, buf := 0, len := 0, err := false, gap := false, last := (0, 0) }
def WinSt.init : WinSt := { shown := [], on := false, fill := none, words := [] }

/-- Egress as power-on reset leaves it. -/
def EgrSt.init : EgrSt :=
  { wait := [], queues := [], numbers := [], counts := [], notices := [], exact := [], tables := [], ended := [], turn := [],
    rings := [], wins := [], txns := [], nextTxn := 1, packs := [] }

/-! ### Failover (chapter 20) -/

/-- A switchover in progress (R489 to R491): whether this chip releases, its own proposal (F_HO, HO_COUNT, NEXT_DUMP),
what the partner sent, HANDOVERs sent, and blocks since the first one. -/
structure Gap where
  releasing : Bool
  own : Nat × Nat × Nat
  partner : Option (Nat × Nat × Nat)
  agreedLeft : Option Nat
  blocks : Nat
  sent : Bool
deriving DecidableEq, Repr

/-- Failover control beside its registers: the switchover in progress and a level that came to count during it (R494). -/
structure FoSt where
  gap : Option Gap
  later : Bool
deriving DecidableEq, Repr

def FoSt.init : FoSt := { gap := none, later := false }
/-! ### SDRAM channels and check bits (chapter 14) -/

/-- A request at a channel (R341): its port, class (0 Indigo, 1 Umber, 2 Slate, 3 Fawn), direction, SDRAM address and bytes within one
granule, and its urgency. -/
structure MemReq where
  port : Nat
  cls : Nat
  write : Bool
  addr : Nat
  len : Nat
  urg : Nat
deriving DecidableEq, Repr

/-- A channel's controller beside its registers: waiting requests, oldest first, those issued and not complete, the row hits issued in a
row past an older request, open rows by bank (plus one), and the next beat to scrub (R340, R342, R352). -/
structure MemCh where
  queue : List MemReq
  busy : List MemReq
  hits : Nat
  rows : Tab Nat
  scrub : Nat
deriving DecidableEq, Repr

/-- The memory island's channels, addresses of scrubbed beats to be written back, the next word to scrub of each on-chip memory, and the
on-chip bytes found uncorrectable as (MEM_ID, byte) (R351, R352). For R525 the model keeps what has been written since a channel's
power-on training, as ranges (first, end) of channel × 2^36 + channel address that rise and do not touch, and for R333 the bytes and the
uncorrectable beats of channels outside the interleave set, by the same key. `repairs` lists the field repairs that the last power-on
reset applied (R354). -/
structure SdSt where
  ch : Tab MemCh
  back : List Nat
  onchip : Tab Nat
  bad : List (Nat × Nat)
  written : List (Nat × Nat)
  away : Tab Byte
  awayUe : List Nat
  repairs : List Nat
deriving DecidableEq, Repr

def MemCh.init : MemCh := { queue := [], busy := [], hits := 0, rows := [], scrub := 0 }
def SdSt.init : SdSt := { ch := [], back := [], onchip := [], bad := [], written := [], away := [], awayUe := [], repairs := [] }


/-! ### Transient capture (chapter 13) -/

/-- An item on its way to the capture engine (R316, R319): a signal sample as placed (frame, corner-turn index, channel,
time index, and its code unless invalid), a voltage sample of island k's beam, or the completion of a frame. -/
inductive CapItem where
  | sig (n ct ch t : Nat) (code : Option Nat)
  | beam (k beam n ch t : Nat) (bad : Bool) (re im : Nat)
  | done (n : Nat)
deriving DecidableEq, Repr

/-- A piece of 32 time indices being assembled (R318): segment, place of the tap among the enabled ones, piece, codes by
time index, and the indices that hold a valid sample. -/
structure CapPiece where
  seq : Nat
  tap : Nat
  piece : Nat
  codes : Tab Nat
  got : List Nat
  valid : List Nat
deriving DecidableEq, Repr

/-- A segment being written (R319, R320, R324): pieces written, dropped, and written with every position valid, each as
tap × 8 + piece, and whether it is skipped because its slot is held. -/
structure CapSeg where
  seq : Nat
  written : List Nat
  dropped : List Nat
  valid : List Nat
  skip : Bool
deriving DecidableEq, Repr

/-- The capture engine beside its registers: what is on its way to it, pieces, segments, the lowest frame of the tapped
group that has not completed and completed ones above it, segments above NEXT_SEQ whose header is written, the frame at which capture
ends (R325), the frame from which the layout is another (R325), and the registers of outgoing patterns, newest first, for frames before
their swaps. -/
structure CapSt where
  items : List CapItem
  pieces : List CapPiece
  segs : List CapSeg
  frames : Nat
  early : List Nat
  heads : List Nat
  stopAt : Option Nat
  switchAt : Option Nat
  old : List (Nat × Tab Word)
deriving DecidableEq, Repr

def CapSt.init : CapSt :=
  { items := [], pieces := [], segs := [], frames := 0, early := [], heads := [], stopAt := none, switchAt := none, old := [] }

/-! ### Monitor port (chapter 19) -/

/-- Source samples on their way to an output's chain (R453): the sample counter of the next one, how many are left, its
place in `codes`, the parts of each as v8 by place (unlisted: zero). -/
structure MonSrc where
  cnt : Nat
  left : Nat
  at_ : Nat
  codes : Tab (Int × Int)
deriving DecidableEq, Repr

/-- One AES3 frame as sent (R461, R465): driven, subframe values, validity bit, the frame's place in its channel-status
block, and its channel-status bit. -/
structure AesOut where
  on : Bool
  a : Int
  b : Int
  invalid : Bool
  place : Nat
  cs : Bool
deriving DecidableEq, Repr

/-- An output of the monitor beside its registers: samples on their way, the source buffer and next expected counter
(R454), mixer phase (R456), half-band stages as (inputs taken, last inputs newest first) (R457), resampler inputs newest
first, how many there were, and position (R459), the last result, the last frame's subframe-1 value, the gain and the
cause of a fade (1 underrun, 2 overrun; R461), frames waited for a crossing, a STOP that waits for a fade (R462), and
the frame last sent. -/
structure MonSt where
  src : List MonSrc
  buf : List (Int × Int)
  next : Option Nat
  phi : Nat
  stages : List (Nat × List (Int × Int))
  w : List (Int × Int)
  nw : Nat
  pos : Nat
  last : Int × Int
  prev : Int
  gain : Nat
  cause : Nat
  waited : Nat
  stop : Bool
  out : AesOut
deriving DecidableEq, Repr

/-- MON_IN beside its register (R466, R467): frames in its elastic buffer, the channel-status block being received, the
subframe before, frames since the last indication of non-audio, the gain of its contribution, whether it fades out (1) or in (2),
the sample of the present output frame, and whether the buffer has begun to be read. -/
structure MonIn where
  buf : List (Int × Int)
  block : List Bool
  prev : Nat
  quiet : Nat
  csMute : Bool
  gain : Nat
  fading : Nat
  now : Int × Int
  started : Bool
deriving DecidableEq, Repr

def AesOut.init : AesOut := { on := false, a := 0, b := 0, invalid := false, place := 0, cs := false }
def MonSt.init : MonSt :=
  { src := [], buf := [], next := none, phi := 0, stages := [], w := [], nw := 0, pos := 0, last := (0, 0), prev := 0, gain := 65536,
    cause := 0, waited := 0, stop := false, out := AesOut.init }
def MonIn.init : MonIn := { buf := [], block := [], prev := 0, quiet := 0, csMute := false, gain := 65536, fading := 0, now := (0, 0), started := false }
/-! ### Housekeeping converter (chapter 19) -/

/-- The converter beside its registers: the input of the scan that runs or was aborted, the urgent input that runs, and the one held
(R470, R471). -/
structure HkSt where
  scan : Option Nat
  urgent : Option Nat
  held : Option Nat
deriving DecidableEq, Repr

def HkSt.init : HkSt := { scan := some 0, urgent := none, held := none }

/-! ### Timing unit (chapter 16) -/

/-- A reference beside its registers (R395, R396, R401): the evaluation since which it meets its conditions, the one in which it became
qualified, whether a disagreement disqualified it, and whether one excludes it from selection. -/
structure RefSt where
  okAt : Option Nat
  qualAt : Option Nat
  dis : Bool
  excl : Bool
deriving DecidableEq, Repr

/-- A PPS input (R395, R399, R404): the timing cycle of its last edge, whether that came 1 s after the one before, its phase
against device time less DELAY in units of 2^-32 ns, and its build-out offset. -/
structure PpsIn where
  edge : Option Nat
  good : Bool
  phase : Int
  off : Int
deriving DecidableEq, Repr

/-- The timing unit beside its registers: hidden fraction bits (R386), a pending load as (LOAD_AT, s, ns) (R388), references,
PPS inputs, quality lines as (level, level of the last accepted message) (R392), quality by lane (R393), an expired
watchdog (R394), evaluations so far, those in a row that held lock (R397), the sum and number of INCREMENT samples of
the second and the averages of the last seconds, newest first, the seconds on end in LOCKED (R403), the output phase in
1/1024 ns (R407), the last rise of PPS_OUT (R405), and of FRAME_OUT the trains as (k, T_a, m) and the last rises (R406); the
device time from which a switch measures its build-out (R399), and the second of the last epoch message (R388, R390). -/
structure TimSt where
  hid : Nat
  load : Option (Nat × Nat × Nat)
  refs : Tab RefSt
  pps : Tab PpsIn
  lines : Tab (Nat × Nat)
  laneQl : Tab Nat
  wdog : Bool
  ms : Nat
  lockMs : Nat
  sum : Nat
  samples : Nat
  avgs : List Nat
  lockSecs : Nat
  phase : Int
  ppsRise : Option Int
  trains : List (Nat × Nat × Nat)
  rises : Tab (Option Int)
  swAt : Nat
  epoch : Nat
deriving DecidableEq, Repr

def RefSt.init : RefSt := { okAt := none, qualAt := none, dis := false, excl := false }
def PpsIn.init : PpsIn := { edge := none, good := false, phase := 0, off := 0 }
def TimSt.init : TimSt :=
  { hid := 0, load := none, refs := [], pps := [], lines := [], laneQl := [], wdog := false, ms := 0, lockMs := 0, sum := 0, samples := 0,
    avgs := [], lockSecs := 0, phase := 0, ppsRise := none, trains := [], rises := [], swAt := 0, epoch := 0 }

/-! ### Application cores, interrupts, boot and the management port -/

/-- The interrupt controller (R419 to R421): pending sources and MSIs kept behind a claim as bit masks, and for each
claimed source the claiming context plus 1. -/
structure IntcSt where
  pend : Nat
  kept : Nat
  claimed : Tab Nat
deriving DecidableEq, Repr

def IntcSt.init : IntcSt := { pend := 0, kept := 0, claimed := [] }

/-- A hart as the spec gives it (R417, R418, R423, R425, R426): program counter, privilege mode (3 machine), translation
on, interrupts enabled, registers a0 and a1, waiting for interrupt, the cause and address of its last access fault, and
its machine timer and machine software interrupts as pending. -/
structure HartSt where
  pc : Nat
  mode : Nat
  xlate : Bool
  ie : Bool
  a0 : Nat
  a1 : Nat
  wfi : Bool
  mcause : Nat
  mtval : Nat
  mtip : Bool
  msip : Bool
deriving DecidableEq, Repr

def HartSt.init : HartSt :=
  { pc := 0xF000080000, mode := 3, xlate := false, ie := false, a0 := 0, a1 := 0, wfi := false,
    mcause := 0, mtval := 0, mtip := false, msip := false }

/-- A frame being gathered for transmission or waiting in the transmit buffer: its bytes, its descriptors in order and
whether it cannot be sent (R432). -/
structure MgmtTx where
  bytes : List Nat
  descs : List Nat
  bad : Bool
deriving DecidableEq, Repr

/-- The management port (R430 to R432): rings running, the CFG word in force, the frame being gathered, frames whole in
the transmit buffer, received frames waiting for descriptors, owned receive descriptors held as (address, buffer,
length), the end of a pause in timing cycles, what the PHY reports (link, speed, half duplex), the MDIO frame running,
and the last frame sent. -/
structure MgmtSt where
  cfg : Nat
  gather : Option MgmtTx
  ready : List MgmtTx
  rx : List (List Nat)
  held : List (Nat × Nat × Nat)
  pause : Nat
  phyLink : Bool
  phySpeed : Nat
  phyHalf : Bool
  mdio : Option Nat
  sent : List Nat
deriving DecidableEq, Repr

def MgmtSt.init : MgmtSt :=
  { cfg := 0xA0, gather := none, ready := [], rx := [], held := [], pause := 0, phyLink := false, phySpeed := 0,
    phyHalf := false, mdio := none, sent := [] }

/-! ### Welt, DMA and PCIe (chapters 13 and 15) -/

/-- A request that a PCIe root port sends (R327, R328): to configuration space or memory, the bus address or the offset in configuration
space, and its bytes. -/
structure PcieReq where
  config : Bool
  addr : Nat
  len : Nat
deriving DecidableEq, Repr

/-- A Welt burst (R360, R361): master, tag, direction, the kind of a hart's access (0 load, 1 fetch, 2 AMO, 3 store or
write-back), first address, for each byte none (not enabled) or its value, and class. `granted` says that the target has
taken it, `out` lists the PCIe requests that it left as, `answer` holds the target's code and read data, `orphan` that its master was reset (R368), `dead` that its
master has received TIMEOUT (R367). -/
structure Burst where
  master : Nat
  tag : Nat
  write : Bool
  kind : Nat
  addr : Nat
  cells : List (Option Nat)
  cls : Nat
  target : Nat
  granted : Bool
  out : List PcieReq
  answer : Option (Nat × List Nat)
  orphan : Bool
  dead : Bool
deriving DecidableEq, Repr

/-- The Welt: bursts that have no response yet, in issue order, and for each master the last response it received as
(tag, code, data) (R365). -/
structure WeltSt where
  bursts : List Burst
  last : Tab (Nat × Nat × List Nat)
deriving DecidableEq, Repr

def WeltSt.init : WeltSt := { bursts := [], last := [] }

/-- What a DMA channel waits for: nothing (OWN, or HALTED), a descriptor, an element, source data, the response of a data
write, of the status write or of the OWN write (R371 to R376). -/
inductive DmaWait where
  | none | desc | elem | src | data | status | own
deriving DecidableEq, Repr

/-- A DMA channel beside its registers: what it waits for, the descriptor in force (element list, number of elements,
IRQ, STOP), elements already processed as (SRC, DST, LEN), the element in force, its pieces to come as (offset, bytes),
the data of the piece being written, the completion code, the element and address of an error, and an abort asked for. -/
structure DmaCh where
  wait : DmaWait
  list : Nat
  elems : Nat
  irq : Bool
  stop : Bool
  past : List (Nat × Nat × Nat)
  cur : Nat × Nat × Nat
  pieces : List (Nat × Nat)
  buf : List Nat
  seen : Bool
  code : Nat
  errElem : Nat
  errAddr : Nat
  abort : Bool
deriving DecidableEq, Repr

def DmaCh.init : DmaCh :=
  { wait := .none, list := 0, elems := 0, irq := false, stop := false, past := [], cur := (0, 0, 0), pieces := [],
    buf := [], seen := false, code := 0, errElem := 0, errAddr := 0, abort := false }

/-- An inbound PCIe request that waits for its completion (R328): port, tag and whether it is a write; and the last
completion of a port as (status 0 successful, 1 Unsupported Request, 4 Completer Abort; data). BIFURCATE and SPEED_MAX
in force (R327), and the ports whose link is down until software writes RETRAIN (R329). -/
structure PcieSt where
  done : Tab (Nat × List Nat)
  cfg : Tab Nat
  down : List Nat
deriving DecidableEq, Repr

def PcieSt.init : PcieSt := { done := [], cfg := [], down := [] }

/-! ### The TAP (R524) -/

/-- Instructions of the TAP. -/
inductive TapIr where
  | bypass | idcode | sample | preload | extest
deriving DecidableEq, Repr

/-- The TAP: its instruction, its boundary register of 51 pins, TRST_N low, and what EXTEST drives onto the pins. -/
structure TapSt where
  ir : TapIr
  boundary : Nat
  trst : Bool
  drive : Option Nat
deriving DecidableEq, Repr

def TapSt.init : TapSt := { ir := .idcode, boundary := 0, trst := false, drive := none }

/-! ### The sealed measurement unit (chapter 18) -/

/-- What the SMU sums of one frame of one stream (R437 to R439): whether a frame was accepted, the BAD flag, COUNT and POWER,
the sample frames dropped, and for OCC entry k the count of channel c at index 4096k + c. -/
structure SmuSum where
  got : Bool
  bad : Bool
  count : Nat
  power : Nat
  dropped : Nat
  occ : Tab Nat
deriving DecidableEq, Repr

def SmuSum.zero : SmuSum := { got := false, bad := false, count := 0, power := 0, dropped := 0, occ := [] }

/-- One stream at the SMU: its lowest frame not closed yet, none before its first sample, and the sums of frames without a
POWER record. -/
structure SmuStream where
  next : Option Nat
  sums : Tab SmuSum
deriving DecidableEq, Repr

def SmuStream.init : SmuStream := { next := none, sums := [] }

/-- What crosses from the SMU to the mirror: words of the SMU's address space, or a refresh of all of it, which shows what
the SMU holds when it arrives (R447, R449). Each carries the SMU's sample counter as its stamp (R27, R29). -/
inductive SmuItem where
  | words (stamp : Nat) (l : List (Nat × Nat))
  | refresh (stamp : Nat)
deriving DecidableEq, Repr

/-- The configuration region (R446). -/
structure SmuRegion where
  cfg : Nat
  timeCfg : Nat
  occ : List Nat
  sel : Tab Nat
  thr : Tab Nat
deriving DecidableEq, Repr

/-- The configuration region after reset (R452). -/
def SmuRegion.init : SmuRegion :=
  { cfg := 0x6400000000, timeCfg := 0x2FAF08000201F4, occ := [0, 0, 0, 0], sel := [], thr := [] }

/-- SHA-256 of the configuration region after reset (R446): of 16 bytes CFG and TIME_CFG, 32 of OCC, 1,024 of SEL and 8,192
of THR. -/
def smuResetHash : Nat := 0x1509a540e4fa57bc75e3b0f7d448950db2f12f15134c20952995ac3808d5736e

/-- The SMU: VDD_SMU up; STATUS.STATE and TIME_BAD; EVENTS; the configuration region and its hash as a number whose most
significant byte is byte 0; the low words of 64-bit registers written over SPI and not yet taken (R450); the seal and break
fuses blown (R445); what the configuration store holds: the sealed region with its hash, and BOOT; the counters of SMU.CNT;
the next SEQ and store offset; the store's words; the records held, oldest first, as (SEQ, offset, length); SMU cycles since power-up; the last PPS edge, whether PPS_MISSING has been recorded for it, and
the REF_SC of the last record; the highest sample counter accepted of REF_STREAM; the streams; the POWER records that wait,
as (first frame, POWER_DIV, tick); the first frame without POWER records; the firmware window; the length of the image
whose hash runs; event-recorder appends waiting, each with its stamp (R29, R447); the bytes that the last SPI read returned; words of the store
written by the running command. -/
structure SmuSt where
  up : Bool
  state : Nat
  timeBad : Bool
  events : Nat
  region : SmuRegion
  hash : Nat
  low : Tab Nat
  sealGen : Nat
  broken : Nat
  kept : SmuRegion × Nat
  boot : Nat
  cnt : List Nat
  seq : Nat
  off : Nat
  store : Tab Nat
  recs : List (Nat × Nat × Nat)
  tick : Nat
  lastEdge : Nat
  missed : Bool
  prevRef : Nat
  refSc : Nat
  streams : Tab SmuStream
  waiting : List (Nat × Nat × Nat)
  made : Nat
  fw : Tab Nat
  fwCheck : Option Nat
  appends : List (Nat × Rec)
  sdo : List Nat
  out : List (Nat × Nat)
deriving DecidableEq, Repr

/-- The SMU of a new device before VDD_SMU first rises. -/
def SmuSt.blank : SmuSt :=
  { up := false, state := 0, timeBad := false, events := 0, region := SmuRegion.init, hash := smuResetHash, low := [], sealGen := 0, broken := 0,
    kept := (SmuRegion.init, smuResetHash), boot := 0, cnt := [0, 0, 0, 0, 0, 0, 0], seq := 0, off := 0, store := [], recs := [], tick := 0,
    lastEdge := 0, missed := false, prevRef := 0, refSc := 0, streams := [], waiting := [], made := 0, fw := [], fwCheck := none,
    appends := [], sdo := [], out := [] }
/-! ### The device -/

/-- Everything of the device but the sealed measurement unit: the register file (for each address the bits that differ
from the register's reset value), memory, PORST_N, the timing island's cycle count and device time, and the units.
`chk` holds, by address, stored on-chip check bits XOR the right ones (R356), `fuses` the repair entries in the fuse map
and `burning` the one being programmed (R355), `l2` the bytes of L2 scratch (R427), `answer` the response code and data
of the last register access made by a command, `mirror` the SMU's SPI address space as the SoC mirrors it, in 32-bit words (R449),
`bootFail` and `thermTrip` the open-drain pins driven low (R425, R516). -/
structure Dev where
  regs : Tab Word
  mem : List Host.Cell
  ueBeats : List Nat
  insoleBad : List Nat
  chk : Tab Nat
  fuses : Tab Nat
  burning : Option (Nat × Nat)
  sd : SdSt
  up : Bool
  ticks : Nat
  free : Nat
  time : Nat
  viewIng : Nat
  viewEgr : Nat
  viewMem : Nat
  viewSoc : Nat
  lanes : Tab LaneSt
  ing : IngestSt
  ptp : PtpSt
  tap : List TapFrame
  relay : List EgrIn
  pat : PatSt
  isls : Tab IslSt
  panels : Tab PanelSt
  awl : Tab AwlSt
  posts : Tab (List (Nat × Nat))
  spill : SpillSt
  trigs : List TrigIn
  cap : CapSt
  mon : Tab MonSt
  monIn : MonIn
  hk : HkSt
  egr : EgrSt
  fo : FoSt
  evr : EvrSt
  seenTrig : List (Nat × Nat × Nat)
  tim : TimSt
  intc : IntcSt
  harts : Tab HartSt
  l2 : Tab Nat
  mgmt : MgmtSt
  welt : WeltSt
  dma : Tab DmaCh
  pcie : PcieSt
  answer : Nat × Nat
  bootFail : Bool
  thermTrip : Bool
  jtag : TapSt
  mirror : Tab Nat
deriving DecidableEq, Repr

/-- The device as power-on reset leaves it, apart from what survives a reset: every register at its reset value, and
nothing listed in memory (R21, R288, R386, R418). -/
def Dev.cold : Dev :=
  { regs := [], mem := [], ueBeats := [], insoleBad := [], chk := [], fuses := [], burning := none, sd := SdSt.init, up := false,
    ticks := 0, free := 0, time := 0, viewIng := 0, viewEgr := 0, viewMem := 0, viewSoc := 0, lanes := [], ing := IngestSt.init,
    ptp := PtpSt.init, tap := [], relay := [], pat := PatSt.init, isls := [], panels := [], awl := [], posts := [], spill := SpillSt.init,
    trigs := [], cap := CapSt.init, mon := [], monIn := MonIn.init, hk := HkSt.init, egr := EgrSt.init, fo := FoSt.init,
    evr := EvrSt.blank, seenTrig := [], tim := TimSt.init, intc := IntcSt.init, harts := [], l2 := [], mgmt := MgmtSt.init,
    welt := WeltSt.init, dma := [], pcie := PcieSt.init, answer := (0, 0), bootFail := false, thermTrip := false, jtag := TapSt.init,
    mirror := [] }

/-! ### The machine -/

/-- The machine: the commands that wait, first in, first out; the device; the sealed measurement unit; and what has left
the SMU for its mirror and not arrived (R27, R29). -/
structure State where
  pending : List Instr
  dev : Dev
  smu : SmuSt
  link : List SmuItem
deriving DecidableEq, Repr

/-- Why a command stops the machine: it names a unit that the device does not have. -/
inductive Fault where
  /-- Raised by every command whose operand numbers a lane, an island, a core, a channel or another unit beyond those that
  exist (R5, R498). Safe: no hardware has such a command, and the machine stops. -/
  | noSuchUnit
deriving DecidableEq, Repr

/-- Why the model has no meaning for a command. -/
inductive Refusal where
  /-- Raised by an arm of exec that has no meaning yet. Safe: the machine stops. -/
  | notModelled (mnemonic : String)
deriving DecidableEq, Repr

/-- The event recorder's first record after its first power-on reset: POWER_ON, with DEV.ID and the ordering code (R476,
R478). -/
def firstRecord : QRec :=
  ⟨1, 2, 0, [0x10, 0x4D, 0x04, 0x56, Config.partCode % 4, 0, 0, 0], true, 0, 0, 0⟩

/-- The machine right after reset (R21, R447, R476, R509): both power-on resets of a new device have just been released. No
command waits, every register holds its reset value, the recorder has queued POWER_ON, BOOT is 1, and a refresh of the
mirror is on its way. -/
def State.reset : State :=
  { pending := [], link := [.refresh 0]
    dev := { Dev.cold with up := true, evr := { EvrSt.blank with powerCycle := 1, seq := 1, queue := [firstRecord] } }
    smu := { SmuSt.blank with up := true, boot := 1 } }

end Sys2Proof.Machine
end

