-- ==== Sys2Proof/Machine/Ops.lean ====
section
/-! DEFINITION. The named operations over registers, memory, device time and event records that every meaning is made
of. -/
namespace Sys2Proof.Machine

/-! ### Registers -/

/-- The stored value of a register: the bits that differ from its reset value, laid over the reset value (R21). -/
def Dev.rdReg (d : Dev) (r : Reg) : Word := Tab.get 0 d.regs r.addr ^^^ BitVec.ofNat 64 r.reset

/-- Stores a register's value. -/
def Dev.wrReg (d : Dev) (r : Reg) (v : Word) : Dev :=
  { d with regs := Tab.set 0 d.regs r.addr (v ^^^ BitVec.ofNat 64 r.reset) }

/-- The mask of bits hi down to lo. -/
def fieldMask (hi lo : Nat) : Word := BitVec.ofNat 64 ((2 ^ (hi + 1 - lo) - 1) * 2 ^ lo)

/-- A word with bits hi down to lo replaced. -/
def insertField (w : Word) (hi lo v : Nat) : Word :=
  (w &&& ~~~(fieldMask hi lo)) ||| (BitVec.ofNat 64 (v * 2 ^ lo) &&& fieldMask hi lo)

/-- The value of a register field. -/
def Dev.get (d : Dev) (f : RF) : Nat := bitsOf (d.rdReg f.reg).toNat f.hi f.lo

/-- Sets a register field, modulo its width. -/
def Dev.put (d : Dev) (f : RF) (v : Nat) : Dev := d.wrReg f.reg (insertField (d.rdReg f.reg) f.hi f.lo v)

/-- Sets a one-bit field to 1. -/
def Dev.flag (d : Dev) (f : RF) : Dev := d.put f 1

/-- A one-bit field read as a condition. -/
def Dev.is (d : Dev) (f : RF) : Bool := d.get f == 1

/-- Adds to a counter field, modulo its width. -/
def Dev.bump (d : Dev) (f : RF) (n : Nat) : Dev := d.put f (d.get f + n)

/-- The width of a field in bits. -/
def RF.bits (f : RF) : Nat := f.hi + 1 - f.lo

/-- Sets a field to a value held at the field's greatest value. -/
def Dev.putSat (d : Dev) (f : RF) (v : Nat) : Dev := d.put f (min v (2 ^ f.bits - 1))

/-- Whether a pattern is active (R15, R279, R281). -/
def Dev.active (d : Dev) : Bool := d.is F.PAT_STATUS_ACTIVE

/-! ### Event records (R475, R480) -/

/-- The control-block index of a register (R475, R498). -/
def Reg.block (r : Reg) : Nat := (r.addr - 0xF000000000) / 0x100000

/-- The offset of a register in its control block (R480). -/
def Reg.offset (r : Reg) : Nat := r.addr % 0x100000

/-- Sends an append on its way to the event recorder (R479). -/
def Dev.append (d : Dev) (r : Rec) : Dev := { d with evr := { d.evr with transit := d.evr.transit ++ [r] } }

/-- An event record tied to a flag (R480): BIT and REG name the flag. -/
def Dev.event (d : Dev) (f : RF) (inst : Nat) (args : List Nat) : Dev :=
  d.append ⟨3, f.reg.block, inst, .event f.lo f.reg.offset args, false⟩

/-- An event record tied to no flag (R480): BIT 0xFF, REG all ones. -/
def Dev.note (d : Dev) (src inst : Nat) (args : List Nat) : Dev :=
  d.append ⟨3, src, inst, .event 0xFF 0xFFFFFFFF args, false⟩

/-! ### Memory -/

/-- The byte at a physical address. A byte that nothing has written reads 0 (DESIGN CHOICE 2). -/
def Dev.rdByte (d : Dev) (a : Nat) : Byte := Tab.get 0 d.mem a

/-- Stores a byte. -/
def Dev.wrByte (d : Dev) (a : Nat) (b : Byte) : Dev := { d with mem := Tab.set 0 d.mem a b }

/-- n bytes from an address on. -/
def Dev.rdBytes (d : Dev) (a : Nat) : Nat → List Nat
  | 0 => []
  | n + 1 => (d.rdByte a).toNat :: d.rdBytes (a + 1) n

/-- Stores bytes from an address on. -/
def Dev.wrBytes (d : Dev) (a : Nat) : List Nat → Dev
  | [] => d
  | b :: t => (d.wrByte a (BitVec.ofNat 8 b)).wrBytes (a + 1) t

/-- The little-endian number of n bytes at an address (R11). -/
def Dev.rdLE (d : Dev) (a n : Nat) : Nat := ofBytes (d.rdBytes a n)

/-- Stores a number in n bytes, little-endian (R11). -/
def Dev.wrLE (d : Dev) (a n v : Nat) : Dev := d.wrBytes a (toBytes n v)

/-- Makes every byte of a range read 0. -/
def Dev.zeroRange (d : Dev) (a n : Nat) : Dev :=
  { d with mem := d.mem.filter (fun c => c.1 < a || a + n ≤ c.1) }

/-- Memory is in its canonical form. -/
abbrev Memory.wf (m : List Host.Cell) : Bool := Tab.wf 0 m

/-! ### Device time (R44, R386): one number in units of 2^-32 ns -/

/-- One nanosecond of device time. -/
def nsUnit : Nat := 2 ^ 32

/-- One second of device time. -/
def secUnit : Nat := 1000000000 * nsUnit

/-- The limit of 2^48 − 1 seconds at which R44 saturates. -/
def timeMax : Nat := (2 ^ 48 - 1) * secUnit

/-- The greatest value that the counters of device time hold (R386). -/
def clockMax : Nat := 2 ^ 48 * secUnit - 1

/-- Seconds, nanoseconds and fraction of a device time. -/
def timeSec (t : Nat) : Nat := t / secUnit
def timeNs (t : Nat) : Nat := t % secUnit / nsUnit
def timeFrac (t : Nat) : Nat := t % nsUnit

/-- The device time of seconds, nanoseconds and fraction. -/
def timeOf (s ns fr : Nat) : Nat := s * secUnit + ns * nsUnit + fr

/-- Timing-island cycles in a millisecond, at nominal 500 MHz (R24). -/
def ticksPerMs : Nat := 500000

/-! ### Units -/

def Dev.lane (d : Dev) (n : Nat) : LaneSt := Tab.get LaneSt.init d.lanes n
def Dev.setLane (d : Dev) (n : Nat) (l : LaneSt) : Dev := { d with lanes := Tab.set LaneSt.init d.lanes n l }
def Dev.updLane (d : Dev) (n : Nat) (f : LaneSt → LaneSt) : Dev := d.setLane n (f (d.lane n))
def Dev.updRx (d : Dev) (n : Nat) (f : LaneRx → LaneRx) : Dev := d.updLane n fun l => { l with rx := f l.rx }
def Dev.updTx (d : Dev) (n : Nat) (f : LaneTx → LaneTx) : Dev := d.updLane n fun l => { l with tx := f l.tx }
def Dev.updTrn (d : Dev) (n : Nat) (f : LaneTrn → LaneTrn) : Dev := d.updLane n fun l => { l with trn := f l.trn }
def Dev.updPrbs (d : Dev) (n : Nat) (f : LanePrbs → LanePrbs) : Dev := d.updLane n fun l => { l with prbs := f l.prbs }
def Dev.group (d : Dev) (g : Nat) : GroupSt := Tab.get GroupSt.init d.ing.groups g
def Dev.setGroup (d : Dev) (g : Nat) (x : GroupSt) : Dev :=
  { d with ing := { d.ing with groups := Tab.set GroupSt.init d.ing.groups g x } }
def Dev.stream (d : Dev) (s : Nat) : StreamSt := Tab.get StreamSt.init d.ing.streams s
def Dev.setStream (d : Dev) (s : Nat) (x : StreamSt) : Dev :=
  { d with ing := { d.ing with streams := Tab.set StreamSt.init d.ing.streams s x } }

def Dev.isl (d : Dev) (k : Nat) : IslSt := Tab.get IslSt.init d.isls k
def Dev.setIsl (d : Dev) (k : Nat) (x : IslSt) : Dev := { d with isls := Tab.set IslSt.init d.isls k x }

def Dev.panel (d : Dev) (p : Nat) : PanelSt := Tab.get PanelSt.init d.panels p
def Dev.setPanel (d : Dev) (p : Nat) (x : PanelSt) : Dev := { d with panels := Tab.set PanelSt.init d.panels p x }
def Dev.updPanel (d : Dev) (p : Nat) (f : PanelSt → PanelSt) : Dev := d.setPanel p (f (d.panel p))
def Dev.updIsl (d : Dev) (k : Nat) (f : IslSt → IslSt) : Dev := d.setIsl k (f (d.isl k))

/-- Puts an item on the Ingest to ISL_k crossing, unless the island is held in reset (R32). -/
def Dev.sendIsl (d : Dev) (k : Nat) (i : IslItem) : Dev :=
  if bitOf (d.get F.DEV_ISL_RESET_ISL) k then d
  else { d with ing := { d.ing with toIsl := Tab.upd [] d.ing.toIsl k (· ++ [i]) } }

def Dev.awl1 (d : Dev) (n : Nat) : AwlSt := Tab.get AwlSt.init d.awl n
def Dev.setAwl (d : Dev) (n : Nat) (x : AwlSt) : Dev := { d with awl := Tab.set AwlSt.init d.awl n x }
def Dev.updAwl (d : Dev) (n : Nat) (f : AwlSt → AwlSt) : Dev := d.setAwl n (f (d.awl1 n))

/-- Sets an edge of IPEND of Awl core n (R308). -/
def Dev.awlPend (d : Dev) (n bit : Nat) : Dev := d.updAwl n fun x => { x with ipend := x.ipend ||| 2 ^ bit }

/-- ISL_k.FRAME_NO takes a value; a change is an interrupt source of the island's Awl cores (R308). -/
def Dev.setFrameNo (d : Dev) (k f : Nat) : Dev :=
  let old := d.get (F.ISL_FRAME_NO_FRAME_NO k)
  let d := d.put (F.ISL_FRAME_NO_FRAME_NO k) f
  if d.get (F.ISL_FRAME_NO_FRAME_NO k) = old then d else (d.awlPend (2 * k) 1).awlPend (2 * k + 1) 1

/-- What was in force for frame n before boundaries listed newest first, as (boundary, value before it); none at or above the newest. -/
def outgoingAt {α : Type} (l : List (Nat × α)) (n : Nat) : Option α := (l.reverse.find? fun e => decide (n < e.1)).map (·.2)

/-- Applies f to each number below n in turn. -/
def Dev.forN (d : Dev) (n : Nat) (f : Dev → Nat → Dev) : Dev := (List.range n).foldl f d

/-- Applies f to each item of a list in turn. -/
def Dev.forL {α : Type} (d : Dev) (l : List α) (f : Dev → α → Dev) : Dev := l.foldl f d

/-- Takes a fresh number for a free value (Config): each use of one reads a number never used before. -/
def Dev.fresh (d : Dev) : Dev := { d with free := d.free + 1 }

end Sys2Proof.Machine
end

