-- ==== Sys2Proof/Machine/LaneCore.lean ====
section
/-! DEFINITION. The states of a lane (R75): starting and ending training, going DOWN, DISABLED, HUNT, ELEC_IDLE, WAKE and
UP, transmit taps (R66, R67), and what the transmit half does at each. -/
namespace Sys2Proof.Machine

/-- Codes of LANE.STATE.STATE. -/
def stDisabled : Nat := 0
def stTraining : Nat := 1
def stUp : Nat := 2
def stHunt : Nat := 3
def stElecIdle : Nat := 4
def stWake : Nat := 5
def stDown : Nat := 6
def stTest : Nat := 7

/-- Codes of LANE.CFG.ROLE. -/
def roleUnused : Nat := 0
def roleIngest : Nat := 1
def roleEgress : Nat := 2
def roleC2C : Nat := 3

/-- Codes of LANE.TRN.RESULT. -/
def resPass : Nat := 1
def resTimeout : Nat := 2
def resNoLock : Nat := 3
def resNoResponse : Nat := 4
def resBer : Nat := 5
def resPll : Nat := 6
def resAborted : Nat := 7

def Dev.laneState (d : Dev) (n : Nat) : Nat := d.get (F.LANE_STATE_STATE n)
def Dev.laneUp (d : Dev) (n : Nat) : Bool := d.laneState n == stUp
def Dev.laneRole (d : Dev) (n : Nat) : Nat := d.get (F.LANE_CFG_ROLE n)

/-- The lane group of a lane, and whether the group replays (R108). -/
def Dev.laneGroup (d : Dev) (n : Nat) : Nat := d.get (F.LANE_CFG_GROUP n)
def Dev.replays (d : Dev) (n : Nat) : Bool := d.laneRole n != roleIngest && d.is (F.EGR_GROUP_CFG_REPLAY (d.laneGroup n))

/-- Bytes that a frame occupies in the replay buffer (R109). -/
def TxFrame.room (f : TxFrame) : Nat := 32 * (f.data.length + 2)

/-- Whether a tap setting is valid (R66). -/
def tapsValid (pre main post : Nat) : Bool :=
  pre ≤ 16 && 24 ≤ main && main ≤ 63 && post ≤ 24 && pre + main + post ≤ 63 && pre + post + 8 ≤ main

/-- The presets; 5 to 7 select P0 (R67). -/
def preset (n : Nat) : Nat × Nat × Nat :=
  match n with
  | 1 => (0, 53, 10)
  | 2 => (4, 51, 8)
  | 3 => (6, 45, 12)
  | 4 => (8, 39, 16)
  | _ => (0, 63, 0)

/-- Sets the transmit taps that LANE.TX_EQ shows. -/
def Dev.setTaps (d : Dev) (n : Nat) (t : Nat × Nat × Nat) : Dev :=
  ((d.put (F.LANE_TX_EQ_PRE n) t.1).put (F.LANE_TX_EQ_MAIN n) t.2.1).put (F.LANE_TX_EQ_POST n) t.2.2

/-- The receive half forgets its alignment and seeks a candidate anew (R92). -/
def LaneRx.seek (r : LaneRx) : LaneRx := { r with bits := [], good := 0, win := [], blkBad := false }

/-- The receive half begins anew at the start of a training or a wake: the run count is 0 there too (R90, R91). -/
def LaneRx.begin_ (r : LaneRx) : LaneRx := { r.seek with runC := 0, viol := false, idleFlag := false }

/-- The transmit half starts driving afresh: scrambler all ones, no run (R89, R90). -/
def LaneTx.restart (t : LaneTx) : LaneTx :=
  { t with scr := BitVec.allOnes 58, runC := 0, runV := false, driving := true }

/-- The transmit half stops driving. -/
def LaneTx.stop (t : LaneTx) : LaneTx := { t with driving := false, wake := none, line := [] }

/-- What leaving UP does besides the change of state: the frame the receive half has open is ended (R106), and the
removal of an EGRESS or C2C lane from its group's rotation becomes due (R74). -/
def Dev.leaveUp (d : Dev) (n : Nat) : Dev :=
  let due := d.laneRole n = roleEgress || d.laneRole n = roleC2C
  let d := d.updLane n fun l =>
    { l with rx := { l.rx with buf := l.rx.buf ++ [.left] }, rotDue := if due then some (d.laneGroup n) else l.rotDue }
  d.put (F.LANE_STATE_RX_LOCK n) 0

/-- Changes LANE.STATE.STATE; leaving UP has its effects, and a lane out of training shows no TRAIN. -/
def Dev.setLaneState (d : Dev) (n st : Nat) : Dev :=
  let d := if d.laneState n = stUp && st ≠ stUp then d.leaveUp n else d
  let d := d.put (F.LANE_STATE_STATE n) st
  d.put (F.LANE_CTRL_TRAIN n) (b2n (st == stTraining))

/-- Ends a training with a result and its duration in ms (R71). -/
def Dev.endTraining (d : Dev) (n res : Nat) : Dev :=
  let ms := (d.ticks - (d.lane n).trn.start) / ticksPerMs
  let d := (d.put (F.LANE_TRN_RESULT n) res).putSat (F.LANE_TRN_DURATION n) ms
  d.updTrn n fun t => { t with phase := 0, change := none, reqPend := false }

/-- The lane goes DOWN (R72): its transmitter stops driving, the failure is counted, flagged and recorded. -/
def Dev.laneDown (d : Dev) (n : Nat) : Dev :=
  let d := d.setLaneState n stDown
  let d := (d.updTx n LaneTx.stop).updRx n LaneRx.seek
  let d := (d.put (F.LANE_STATE_RX_LOCK n) 0).put (F.LANE_STATE_TX_IDLE n) 0
  let d := (d.flag (F.LANE_EVENTS_TRAIN_FAIL n)).bump (F.LANE_LINK_CNT_TRAIN_FAIL n) 1
  d.event (F.LANE_EVENTS_TRAIN_FAIL n) n [n, d.laneRole n, d.get (F.LANE_TRN_RESULT n)]

/-- TRAINING_FAIL (R72): training ends without PASS. -/
def Dev.trainFail (d : Dev) (n res : Nat) : Dev := (d.endTraining n res).laneDown n

/-- Training starts (R69): the transmitter at its preset, the receiver seeking. On a lane whose PLL is not locked it
ends at once with result PLL (R64). -/
def Dev.startTraining (d : Dev) (n : Nat) : Dev :=
  let d := if d.laneState n = stTraining then d.endTraining n resAborted else d
  let d := d.setLaneState n stTraining
  let d := (d.put (F.LANE_STATE_PARTNER_READY n) 0).put (F.LANE_STATE_RX_LOCK n) 0
  let d := (d.put (F.LANE_STATE_TX_IDLE n) 0).setTaps n (preset (d.get (F.LANE_TX_EQ_INIT_PRESET n)))
  let d := d.updLane n fun l =>
    { l with
      trn := { LaneSt.init.trn with phase := 1, start := d.ticks }
      tx := { l.tx.restart with wake := none }
      rx := l.rx.begin_ }
  if d.get (F.LANE_STATE_PLL_LOCK n) = 1 then d else d.trainFail n resPll

/-- The lane becomes DISABLED: training in progress ends ABORTED, the PRBS enables clear, nothing is driven (R75). -/
def Dev.laneDisable (d : Dev) (n : Nat) : Dev :=
  let d := if d.laneState n = stTraining then d.endTraining n resAborted else d
  let d := d.setLaneState n stDisabled
  let d := (d.updTx n LaneTx.stop).updRx n LaneRx.seek
  let d := (d.put (F.LANE_STATE_RX_LOCK n) 0).put (F.LANE_STATE_TX_IDLE n) 0
  ((d.put (F.LANE_PRBS_CTRL_GEN_EN n) 0).put (F.LANE_PRBS_CTRL_CHK_EN n) 0).put (F.LANE_PRBS_CTRL_CHK_LOCK n) 0

/-- The lane enters UP with its receiver locked (R75). -/
def Dev.laneEnterUp (d : Dev) (n : Nat) : Dev :=
  ((d.setLaneState n stUp).put (F.LANE_STATE_RX_LOCK n) 1).flag (F.LANE_EVENTS_UP n)

/-- TRAINING_COMPLETE (R69, R108, R113): the lane enters UP from TRAINING. Sequence numbers start at 0 at both ends, and
frames still buffered are renumbered from 0 and sent first. -/
def Dev.trainPass (d : Dev) (n : Nat) : Dev :=
  let d := (d.endTraining n resPass).laneEnterUp n
  d.updLane n fun l =>
    let kept := l.tx.replay.zipIdx.map fun p => { p.1 with seq := p.2, sends := 0, first := 0, sent := false }
    { l with
      tx := { l.tx with replay := kept, resend := kept, seq := kept.length % 65536, lastReplay := none, cur := none,
                        nak := none, ack := none }
      rx := { l.rx with expSeq := 0, nakWait := false, okSeq := 0, ackDue := false } }

/-- UP to HUNT: the receiver lost lock or signal (R75, R77). -/
def Dev.enterHunt (d : Dev) (n : Nat) : Dev :=
  let d := (d.setLaneState n stHunt).put (F.LANE_STATE_RX_LOCK n) 0
  let d := (d.flag (F.LANE_EVENTS_LOCK_LOST n)).bump (F.LANE_LINK_CNT_LOCK_LOSS n) 1
  d.updRx n LaneRx.seek

/-- Whether R82 lets a PRBS generator or checker run on the lane. -/
def Dev.prbsAllowed (d : Dev) (n : Nat) : Bool :=
  d.laneRole n == roleUnused || !d.active || d.get F.DEV_MODE_MODE == 6

/-- LANE_TRAIN (R75, R76): TRAIN is set. It starts training on a DISABLED or DOWN lane whose role is not UNUSED. -/
def Dev.laneTrain (d : Dev) (n : Nat) : Dev :=
  if d.laneRole n ≠ roleUnused && (d.laneState n = stDisabled || d.laneState n = stDown) then d.startTraining n else d

/-- The row of R80 that a pattern activation or swap takes for a lane whose LANE.CFG goes from `old` to `new`. -/
def Dev.laneSwapRow (d : Dev) (n : Nat) (old new : Nat) : Dev :=
  let st := d.laneState n
  let role := bitsOf new 1 0
  let restart := bitsOf old 5 2 ≠ bitsOf new 5 2
  if st = stTest then
    if d.prbsAllowed n then d
    else
      let d := ((d.put (F.LANE_PRBS_CTRL_GEN_EN n) 0).put (F.LANE_PRBS_CTRL_CHK_EN n) 0).put (F.LANE_PRBS_CTRL_CHK_LOCK n) 0
      if role = roleUnused then d.laneDisable n else d.startTraining n
  else if role = roleUnused then d.laneDisable n
  else if st = stDisabled then d.startTraining n
  else if old = new then d
  else if restart then d.startTraining n
  else d

/-- What a pattern activation or swap does to a lane whose LANE.CFG goes from `old` to `new` (R80). A lane that leaves UP by it is
removed from the rotation of the group that the outgoing pattern gave it (R74). -/
def Dev.laneSwap (d : Dev) (n : Nat) (old new : Nat) : Dev :=
  let x := d.laneSwapRow n old new
  if d.laneUp n && !x.laneUp n then
    let was := bitsOf old 1 0
    x.updLane n fun l =>
      { l with rotDue := if was = roleEgress || was = roleC2C then some (bitsOf old 12 8) else (d.lane n).rotDue }
  else x

end Sys2Proof.Machine
end

