-- ==== Sys2Proof/Machine/MemAcc.lean ====
section
/-! DEFINITION. SDRAM as the flows of the device reach it: the interleave set and address decode (R331, R333), reads and
writes with their error responses (R349, R350), the spill check code (R345), and the Insole windows (R347). -/
namespace Sys2Proof.Machine

/-- Codes of MEM.CH_STATUS.STATE. -/
def chAbsent : Nat := 0
def chUntrained : Nat := 1
def chTraining : Nat := 2
def chOnline : Nat := 3
def chOffline : Nat := 4

/-- Capacity of one channel in bytes (R331). -/
def Dev.chanCap (d : Dev) : Nat :=
  let one := if d.get F.MEM_CFG_DENSITY = 0 then 2 else 4
  (if d.get F.MEM_CFG_CLAMSHELL = 1 then 2 * one else one) * 2 ^ 30

/-- The channels of the interleave set, ascending (R333). -/
def Dev.ilvSet (d : Dev) : List Nat := (List.range 12).filter fun i => bitOf (d.get F.MEM_ILV_MASK) i

/-- The channel and channel address of an SDRAM address (R333). -/
def Dev.chanOf (d : Dev) (a : Nat) : Nat × Nat :=
  let k := max 1 d.ilvSet.length
  let u := a / 256
  (d.ilvSet.getD (u % k) 0, u / k * 256 + a % 256)

/-- Whether a range lies in the SDRAM in use: 0 to K × CAP − 1 (R333). -/
def Dev.sdramInUse (d : Dev) (a n : Nat) : Bool := a + n ≤ d.ilvSet.length * d.chanCap

/-- The 64-byte beats that a range touches. -/
def beatsOf (a n : Nat) : List Nat :=
  if n = 0 then [] else (List.range ((a + n - 1) / 64 + 1 - a / 64)).map fun i => (a / 64 + i) * 64

def Dev.chanState (d : Dev) (c : Nat) : Nat := d.get (F.MEM_CH_STATUS_STATE c)

/-- Whether a beat's channel answers with an error: it is OFFLINE or was never trained (R336). -/
def Dev.beatLost (d : Dev) (a : Nat) : Bool := d.chanState (d.chanOf a).1 != chOnline && d.chanState (d.chanOf a).1 != chTraining

/-- The place of an SDRAM address in the channels, as channel × 2^36 + channel address (R333). -/
def Dev.chanKey (d : Dev) (a : Nat) : Nat := (d.chanOf a).1 * 2 ^ 36 + (d.chanOf a).2

/-- A list of ranges that rise and do not touch, with one more range. -/
def spanInsert : List (Nat × Nat) → Nat → Nat → List (Nat × Nat)
  | [], lo, hi => [(lo, hi)]
  | (a, b) :: t, lo, hi =>
    if hi < a then (lo, hi) :: (a, b) :: t
    else if b < lo then (a, b) :: spanInsert t lo hi
    else spanInsert t (min a lo) (max b hi)

/-- Whether ranges hold a place between lo and hi. -/
def spanMeets (l : List (Nat × Nat)) (lo hi : Nat) : Bool := l.any fun e => decide (e.1 < hi) && decide (lo < e.2)

/-- The 256-byte granules that a range touches (R333). -/
def granulesOf (a n : Nat) : List Nat :=
  if n = 0 then [] else (List.range ((a + n - 1) / 256 + 1 - a / 256)).map fun i => (a / 256 + i) * 256

def Dev.memCh (d : Dev) (c : Nat) : MemCh := Tab.get MemCh.init d.sd.ch c
def Dev.updMemCh (d : Dev) (c : Nat) (f : MemCh → MemCh) : Dev :=
  { d with sd := { d.sd with ch := Tab.upd MemCh.init d.sd.ch c f } }

/-- Requests of a port reach the controller queues of the channels that hold the range, one per granule (R333, R341); a
channel that is lost answers at once (R336). -/
def Dev.memPost (d : Dev) (port cls : Nat) (write : Bool) (a n : Nat) : Dev :=
  if !d.sdramInUse a n then d
  else d.forL (granulesOf a n) fun d (g : Nat) =>
    let lo := max a g
    if d.beatLost g then d
    else d.updMemCh (d.chanOf g).1 fun q =>
      { q with queue := q.queue ++ [⟨port, cls, write, lo, min (a + n) (g + 256) - lo, 0⟩] }

/-- The class of a port's requests (R341): Indigo for corner-turn writes, Umber for the islands and the spill adder, Slate for
egress and capture. -/
def portClass (port : Nat) : Nat := if port = 0 then 0 else if port < 10 then 1 else 2

/-- What a read of SDRAM gives: where it lies, its bytes, whether a channel or the range refused it, the uncorrectable beats, and those
that on-die ECC reports corrected without a transfer's report. -/
structure MRead where
  addr : Nat
  bytes : List Nat
  err : Bool
  ue : List Nat
  ce : List Nat
deriving DecidableEq, Repr

/-- Whether a byte of SDRAM has been written since its channel's power-on training (R525). -/
def Dev.sdWritten (d : Dev) (a : Nat) : Bool := spanMeets d.sd.written (d.chanKey a) (d.chanKey a + 1)

/-- Notes that a range is written, but for what lies in lost channels (R350, R525). -/
def Dev.sdNote (d : Dev) (a n : Nat) : Dev :=
  { d with sd := { d.sd with written := (granulesOf a n).foldl (fun l g =>
      let lo := max a g
      if d.beatLost g then l else spanInsert l (d.chanKey lo) (d.chanKey lo + (min (a + n) (g + 256) - lo))) d.sd.written } }

/-- The byte at an SDRAM address as a flow reads it: what nothing has written, and what two regions of a pattern share, is undefined
(R134, R284, R525). -/
def Dev.sdByte (d : Dev) (a : Nat) : Nat :=
  let b := if d.sdWritten a then (d.rdByte a).toNat else Config.coldByte d.free a % 256
  if d.pat.clash.any fun c => decide (c.1 ≤ a) && decide (a < c.2) then Config.overlapByte d.free a b % 256 else b

/-- n bytes of SDRAM as a flow reads them. -/
def Dev.sdBytes (d : Dev) (a n : Nat) : List Nat := (List.range n).map fun i => d.sdByte (a + i)

/-- What on-die ECC reports for a beat of which nothing has been written: 0 good, 1 corrected, 2 uncorrected (R525). -/
def Dev.coldReport (d : Dev) (b : Nat) : Nat :=
  if spanMeets d.sd.written (d.chanKey b) (d.chanKey b + 64) then 0 else Config.coldReport d.free b % 3

/-- A read of SDRAM (R333, R348, R349, R525). -/
def Dev.memRead (d : Dev) (a n : Nat) : MRead :=
  let bs := beatsOf a n
  { addr := a
    bytes := d.sdBytes a n
    err := !d.sdramInUse a n || bs.any d.beatLost
    ue := bs.filter fun b => d.ueBeats.contains b || d.coldReport b == 2
    ce := bs.filter fun b => d.coldReport b == 1 }

/-- A range reaches a channel that is TRAINING: its requests wait in the controller queue, so the flow waits (R335; DEDUCED 14). -/
def Dev.memBusy (d : Dev) (a n : Nat) : Bool :=
  d.sdramInUse a n && (granulesOf a n).any fun g => d.chanState (d.chanOf g).1 == chTraining

/-- A write of SDRAM, split by channel: beats to ONLINE channels are written, the others lost (R350). Gives also whether
the burst receives an error response. A beat written whole is no longer uncorrectable, and a write to a scrubbed beat cancels its write-back (R352). -/
def Dev.memWrite (d : Dev) (a : Nat) (bs : List Nat) : Dev × Bool :=
  if !d.sdramInUse a bs.length then (d, true)
  else
    let err := (beatsOf a bs.length).any d.beatLost
    let d' := bs.zipIdx.foldl (fun d p => if d.beatLost (a + p.2) then d else d.wrByte (a + p.2) (BitVec.ofNat 8 p.1)) d
    ({ d' with
       ueBeats := d'.ueBeats.filter fun b => !(a ≤ b && b + 64 ≤ a + bs.length)
       sd := { d'.sd with back := d'.sd.back.filter fun b => !(beatsOf a bs.length).contains b } }.sdNote a bs.length, err)

/-- The sum of corrected errors that R353 watches. -/
def Dev.ceSum (d : Dev) : Nat :=
  d.get (F.ECC_CNT_COUNT 0) + d.get (F.ECC_CNT_COUNT 2) + sumN ((List.range 12).map fun c => d.get (F.MEM_CH_CNT_COUNT c 3))

/-- Counts corrected errors; passing a multiple of ECC.CE_THRESH is recorded (ECC_CE_THRESH_PASS, R353). -/
def Dev.corrected (d : Dev) (f : RF) (n : Nat) : Dev :=
  let t := d.get F.ECC_CE_THRESH_THRESH
  let before := d.ceSum
  let d := d.bump f n
  if t ≠ 0 && before / t < (before + n) / t then (d.flag F.ECC_EVENTS_CE_THRESH).event F.ECC_EVENTS_CE_THRESH 0 [] else d

/-- An uncorrectable SDRAM read is counted, shown and recorded (R349): the record names the address and the consumer,
which is the memory port's number (R341). -/
def Dev.memUncorrectable (d : Dev) (a consumer : Nat) : Dev :=
  let c := (d.chanOf a).1
  let d := d.bump (F.MEM_CH_CNT_COUNT c 4) 1
  let d := (d.flag (F.MEM_CH_ERR_ADDR_VALID c)).put (F.MEM_CH_ERR_ADDR_ADDR c) a
  let d := (d.put F.ECC_LAST_UE_ADDR a).put F.ECC_LAST_UE_MEM_ID 0xFF
  (d.flag F.ECC_EVENTS_UE_SDRAM).event F.ECC_EVENTS_UE_SDRAM 0 [a, consumer]

/-- A read by a port in a class: its requests at the channels, a count of every corrected beat and a record of every uncorrectable one
(R341, R348, R349); beats of OFFLINE channels are covered by the record of R336. -/
def Dev.memReportAs (d : Dev) (r : MRead) (port cls : Nat) : Dev :=
  let d := (d.memPost port cls false r.addr r.bytes.length).forL r.ce fun d a => d.corrected (F.MEM_CH_CNT_COUNT (d.chanOf a).1 3) 1
  (d.forL r.ue fun d a => d.memUncorrectable a port).fresh

/-- A read by a port in the port's own class (R341). -/
def Dev.memReport (d : Dev) (r : MRead) (port : Nat) : Dev := d.memReportAs r port (portClass port)

/-- A write by a port: its requests at the channels, and the write (R341, R350). -/
def Dev.memStore (d : Dev) (port a : Nat) (bs : List Nat) : Dev × Bool :=
  (d.memPost port (portClass port) true a bs.length).memWrite a bs

/-! ### Uncorrectable on-chip bytes (R344, R351) -/

/-- Whether n bytes of an on-chip memory from a byte on hold an uncorrectable one: each byte has its own check bits (R344). -/
def Dev.onchipBad (d : Dev) (mem off n : Nat) : Bool := d.sd.bad.any fun e => e.1 == mem && decide (off ≤ e.2) && decide (e.2 < off + n)

/-- Writing n bytes of an on-chip memory writes their check bits alone: they are good again (R344). -/
def Dev.onchipMend (d : Dev) (mem off n : Nat) : Dev :=
  { d with sd := { d.sd with bad := d.sd.bad.filter fun e => !(e.1 == mem && decide (off ≤ e.2) && decide (e.2 < off + n)) } }

/-- Whether a staging store or the DMA buffers hold an uncorrectable byte: the next unit, piece or buffer read from the store
meets it (DESIGN CHOICE 75). -/
def Dev.storeBad (d : Dev) (mem : Nat) : Bool := d.sd.bad.any (·.1 == mem)

/-- An uncorrectable on-chip read is counted, shown and recorded (R349, R351); the record names the address and, as its
consumer, the memory (DESIGN CHOICE 75). -/
def Dev.onchipUe (d : Dev) (mem a : Nat) : Dev :=
  let d := d.bump (F.ECC_CNT_COUNT 1) 1
  let d := (d.put F.ECC_LAST_UE_ADDR a).put F.ECC_LAST_UE_MEM_ID mem
  (d.flag F.ECC_EVENTS_UE_ONCHIP).event F.ECC_EVENTS_UE_ONCHIP 0 [a, mem]

/-- The unit, piece or buffer that held a store's uncorrectable byte is discarded with it. -/
def Dev.storeUe (d : Dev) (mem : Nat) : Dev :=
  match d.sd.bad.find? (·.1 == mem) with
  | some e => { d with sd := { d.sd with bad := d.sd.bad.erase e } }.onchipUe mem e.2
  | none => d

/-- Columns of the spill check code (R345): the 56 eight-bit values of weight 3 in ascending order, then the eight
smallest of weight 5. -/
def spillColumns : List Nat :=
  ((List.range 256).filter fun v => popcount 8 v == 3) ++ [0x1F, 0x2F, 0x37, 0x3B, 0x3D, 0x3E, 0x4F, 0x57]

/-- The check byte of a 64-bit spill word (R345). -/
def spillCheck (w : Nat) : Nat :=
  spillColumns.zipIdx.foldl (fun x c => if bitOf w c.2 then x ^^^ c.1 else x) 0

/-- A spill word and its check byte as read: the word as corrected, or none where it is uncorrectable (R344, R345). -/
def spillDecode (w chk : Nat) : Option Nat :=
  let syn := spillCheck w ^^^ chk
  if syn = 0 then some w
  else if popcount 8 syn = 1 then some w
  else match spillColumns.zipIdx.find? fun c => c.1 == syn with
    | some c => some (w ^^^ 2 ^ c.2)
    | none => none

/-- Columns of the five check bits of an on-chip byte (R344). -/
def onchipColumns : List Nat := [0x07, 0x0B, 0x0D, 0x0E, 0x13, 0x15, 0x16, 0x19]

/-- The five check bits of an on-chip byte (R344). -/
def onchipCheck (b : Nat) : Nat := onchipColumns.zipIdx.foldl (fun x c => if bitOf b c.2 then x ^^^ c.1 else x) 0

/-- An on-chip byte and its check bits as read: the corrected byte, or none where it is uncorrectable (R344). -/
def onchipDecode (b chk : Nat) : Option Nat :=
  let syn := onchipCheck b ^^^ chk
  if syn = 0 then some b
  else if popcount 5 syn = 1 then some b
  else match onchipColumns.zipIdx.find? fun c => c.1 == syn with
    | some c => some (b ^^^ 2 ^ c.2)
    | none => none

/-- The physical address of a byte of island k's Insole (R497). -/
def insoleAddr (k off : Nat) : Nat := 0xE000000000 + k * 0x4000000 + off

/-- The size of an Insole: 64 MiB (R22). -/
def insoleSize : Nat := 0x4000000

/-- Writes Insole bytes with good parity (R347). -/
def Dev.insoleWrite (d : Dev) (k off : Nat) (bs : List Nat) : Dev :=
  let a := insoleAddr k off
  let d := d.wrBytes a bs
  { d with insoleBad := d.insoleBad.filter fun x => !(a ≤ x && x < a + bs.length) }

/-- ECC.CNT counts Insole bytes found with bad parity (R347, R357). -/
def Dev.parityCount (d : Dev) (n : Nat) : Dev := if n = 0 then d else d.bump (F.ECC_CNT_COUNT 4) n

/-- The physical address of a byte of core n's data memory, and of its instruction memory (R287). -/
def awlDataAddr (n off : Nat) : Nat := 0xE800000000 + n * 0x100000 + off
def awlInstrAddr (n off : Nat) : Nat := 0xE800000000 + n * 0x100000 + 0x80000 + off

/-- Whether the reads and writes of an on-chip memory are diagnostic (R356). -/
def Dev.diagOn (d : Dev) (mem : Nat) : Bool := d.is F.ECC_DIAG_CTRL_EN && !d.active && d.get F.ECC_DIAG_CTRL_TARGET == mem

/-- A read of n bytes at a of an on-chip memory that starts at `base` (R344, R351, R356): the bytes, corrected and counted, and
whether one is uncorrectable. In diagnostic mode they are delivered as stored, and DIAG_RAW shows the last check bits. -/
def Dev.onchipRead (d : Dev) (mem base a n : Nat) : Dev × List Nat × Bool :=
  let bs := (List.range n).map fun i => ((d.rdByte (a + i)).toNat, Tab.get 0 d.chk (a + i))
  if d.diagOn mem then
    let raw := match bs.getLast? with | some b => onchipCheck b.1 ^^^ b.2 | none => 0
    (d.put F.ECC_DIAG_RAW_CHK raw, bs.map (·.1), false)
  else
    let dec := bs.map fun b => onchipDecode b.1 (onchipCheck b.1 ^^^ b.2)
    let ce := (bs.filter fun b => b.2 != 0 && (onchipDecode b.1 (onchipCheck b.1 ^^^ b.2)).isSome).length
    let ue := dec.any Option.isNone || d.onchipBad mem (a - base) n
    let d := if ce = 0 then d else d.corrected (F.ECC_CNT_COUNT 0) ce
    (if ue then d.onchipUe mem a else d, dec.map (·.getD 0), ue)

/-- A write to an on-chip memory with good check bits (R344). -/
def Dev.onchipWrite (d : Dev) (mem base a : Nat) (bs : List Nat) : Dev :=
  let d := d.wrBytes a bs
  { d with chk := d.chk.filter fun e => !(a ≤ e.1 && e.1 < a + bs.length) }.onchipMend mem (a - base) bs.length

/-- Reads and writes of Awl core n's data memory at a byte offset. -/
def Dev.awlDataRead (d : Dev) (n off len : Nat) : Dev × List Nat × Bool := d.onchipRead (0x20 + n) (awlDataAddr n 0) (awlDataAddr n off) len
def Dev.awlDataWrite (d : Dev) (n off : Nat) (bs : List Nat) : Dev := d.onchipWrite (0x20 + n) (awlDataAddr n 0) (awlDataAddr n off) bs

end Sys2Proof.Machine
end

