-- ==== Sys2Proof/Machine/Align.lean ====
section
/-! DEFINITION. Time maps, alignment groups, frames and the corner-turn layout: what ingest and everything after it
computes from sample counters (R41, R44, R47, R48, R118, R120, R125, R131, R134). -/
namespace Sys2Proof.Machine

/-! ### Configuration in force for a frame (R134) -/

/-- A layout field of block ING or LANE in force for frame n: the outgoing pattern's below a swap boundary that ingest
has passed, the register file's otherwise. -/
def Dev.cfg (d : Dev) (n : Nat) (f : RF) : Nat :=
  match outgoingAt d.ing.outgoing n with
  | some t => bitsOf (Tab.get 0 t f.reg.addr ^^^ BitVec.ofNat 64 f.reg.reset).toNat f.hi f.lo
  | none => d.get f

/-- Bytes per sample, 1 at 4+4 and 2 at 8+8 (R102). -/
def Dev.sampleBytes (d : Dev) (n : Nat) : Nat := d.cfg n F.ING_CT_CFG_FMT + 1

/-- The device channel count C in force for frame n (R120). -/
def Dev.numCh (d : Dev) (n : Nat) : Nat := d.cfg n F.ING_CT_CFG_NUM_CH

/-- Whether a table of registers lists the Signal Table entry of a stream; its stream then. -/
def sigOf (a : Nat) : Option Nat :=
  if 0xF000A20000 ≤ a && a < 0xF000A30000 then some ((a - 0xF000A20000) / 8) else none

/-- The streams mapped for frame n, in ascending order (R118). -/
def Dev.mapped (d : Dev) (n : Nat) : List Nat :=
  let t := (outgoingAt d.ing.outgoing n).getD d.regs
  (t.filterMap fun e => sigOf e.1).filter fun s => d.cfg n (F.ING_SIG_ENTRY_MAPPED s) == 1

def Dev.sigGroup (d : Dev) (n s : Nat) : Nat := d.cfg n (F.ING_SIG_ENTRY_AG s)
def Dev.sigLane (d : Dev) (n s : Nat) : Nat := d.cfg n (F.ING_SIG_ENTRY_LANE s)
def Dev.sigCt (d : Dev) (n s : Nat) : Nat := d.cfg n (F.ING_SIG_ENTRY_CT_INDEX s)

/-- The member streams of group g for frame n. -/
def Dev.members (d : Dev) (n g : Nat) : List Nat := (d.mapped n).filter fun s => d.sigGroup n s == g

/-- The alignment window W of group g for frame n (R46). -/
def Dev.window (d : Dev) (n g : Nat) : Nat := d.cfg n (F.ING_AG_CFG_WINDOW g)

/-- First channel and count of island k's channel block (R120). -/
def Dev.chFirst (d : Dev) (n k : Nat) : Nat := d.cfg n (F.ING_CH_BLOCK_FIRST k)
def Dev.chCount (d : Dev) (n k : Nat) : Nat := d.cfg n (F.ING_CH_BLOCK_COUNT k)

/-- The island that owns channel c. -/
def Dev.chOwner (d : Dev) (n c : Nat) : Option Nat :=
  (List.range 8).find? fun k => d.chFirst n k ≤ c && c < d.chFirst n k + d.chCount n k

/-- Whether ingest generates the samples of frame n itself (R283). -/
def Dev.generated (d : Dev) (n : Nat) : Bool :=
  d.active && d.cfg n F.DEV_MODE_MODE == 6 && d.cfg n F.DEV_TEST_CFG_GEN != 0

/-! ### Time maps (R44, R45, R47) -/

/-- The time map that the shadow registers of group g spell; nanoseconds above 999,999,999 are taken as that (R60). -/
def Dev.shadowMap (d : Dev) (g : Nat) : TimeMap :=
  { sc := d.get (F.ING_AG_MAP_SC_SC_REF g)
    ref := timeOf (d.get (F.ING_AG_MAP_SEC_T_SEC g)) (min (d.get (F.ING_AG_MAP_NS_T_NS g)) 999999999) (d.get (F.ING_AG_MAP_NS_T_FRAC g))
    period := d.get (F.ING_AG_PERIOD_PERIOD g) }

/-- The map in force before any ARM was taken (DESIGN CHOICE 105): the one that the reset values of the shadow registers spell. -/
def TimeMap.reset : TimeMap := { sc := 0, ref := 0, period := 0x0000140000000000 }

/-- The entry of a list of (first frame, value) pairs, newest first, that is in force for frame n. -/
def inForce {α : Type} (d : α) : List (Nat × α) → Nat → α
  | [], _ => d
  | (b, v) :: t, n => if b ≤ n then v else inForce d t n

/-- The time map in force for frame n of group g. -/
def Dev.mapAt (d : Dev) (g n : Nat) : TimeMap := inForce TimeMap.reset (d.group g).maps n

/-- The device time of a sample counter under a map (R44): exact, saturating at zero and at 2^48 − 1 s. -/
def TimeMap.time (m : TimeMap) (s : Nat) : Nat :=
  let t : Int := (m.ref : Int) + sext 64 (s + 2 ^ 64 - m.sc) * (m.period : Int)
  (clampI 0 timeMax t).toNat

/-- The epoch E_g of group g (R41). -/
def Dev.epoch (d : Dev) (g : Nat) : Nat := d.get (F.ING_AG_EPOCH_SC_EPOCH_SC g)

/-- The frame in which a sample counter lies, none below the epoch or above FRAME_NO's range (R41). -/
def Dev.frameOf (d : Dev) (g s : Nat) : Option Nat :=
  if s < d.epoch g then none
  else let n := (s - d.epoch g) / 4096
    if n < 2 ^ 48 then some n else none

/-- The device time of a sample of group g, under the map of its frame. -/
def Dev.sampleTime (d : Dev) (g s : Nat) : Nat :=
  (d.mapAt g ((d.frameOf g s).getD 0)).time s

/-- The deadline D(n) of frame n of group g (R47). -/
def Dev.deadline (d : Dev) (g n : Nat) : Nat :=
  (d.mapAt g n).time (d.epoch g + 4096 * (n + 1) + d.window n g)

/-- The device time of the first sample of frame n of group g. -/
def Dev.frameStart (d : Dev) (g n : Nat) : Nat := (d.mapAt g n).time (d.epoch g + 4096 * n)

/-- The lowest frame number whose first sample has a device time later than `now` under map m (R45). -/
def firstFrameAfter (m : TimeMap) (epoch now : Nat) : Option Nat :=
  if m.period = 0 || timeMax ≤ now then none
  else
    let x0 : Int := sext 64 (epoch + 2 ^ 64 - m.sc)
    -- least x with ref + x * period > now
    let x : Int := ((now : Int) - (m.ref : Int)) / (m.period : Int) + 1
    let n : Nat := if x ≤ x0 then 0 else ((x - x0 + 4095) / 4096).toNat
    if x0 + 4096 * (n : Int) < 2 ^ 63 && n < 2 ^ 48 then some n else none

/-- Whether a frame of a group holds a sample or has completed. -/
def GroupFrame.taken (f : GroupFrame) : Bool := f.done || f.streams.any fun e => !e.2.pos.isEmpty

/-- The lowest frame that ingest has not opened in group g: above every frame that holds a sample, has completed or has passed.
Frames that the others' ING.FRAME_HEAD has opened do not count (R45). -/
def GroupSt.top (g : GroupSt) : Nat := max g.fold (maxN ((g.frames.filter fun e => e.2.taken).map fun e => e.1 + 1))

/-- GROUP_MAP_APPLY (R45): once the group's own boundary is reached, which is when the group holds a sample of that frame or it is the
oldest whose deadline has not passed, the shadow is latched as it stands and ARM clears. -/
def Dev.applyMap (d : Dev) (g : Nat) : Dev :=
  let x := d.group g
  match x.armAt with
  | none => d
  | some n =>
    if n < x.top || n ≤ x.fold then
      let d := d.setGroup g { x with maps := (n, d.shadowMap g) :: x.maps, armAt := none }
      d.put (F.ING_AG_COMMIT_ARM g) 0
    else d

/-- AG_COMMIT_ARM (R45): ARM of group g is set; the map takes effect at the group's next frame boundary after now. Written again while a
map is armed, it computes the boundary anew from the present device time (DESIGN CHOICE 105). -/
def Dev.armMap (d : Dev) (g : Nat) : Dev :=
  let x := d.group g
  let m := (x.maps.head?.map (·.2)).getD TimeMap.reset
  let n := (firstFrameAfter m (d.epoch g) d.viewIng).getD x.top
  ((d.setGroup g { x with armAt := some n }).flag (F.ING_AG_COMMIT_ARM g)).applyMap g

/-! ### Frames -/

def Dev.frame (d : Dev) (g n : Nat) : GroupFrame := Tab.get GroupFrame.init (d.group g).frames n
def Dev.setFrame (d : Dev) (g n : Nat) (x : GroupFrame) : Dev :=
  let y := d.group g
  d.setGroup g { y with frames := Tab.set GroupFrame.init y.frames n x }
def Dev.streamFrame (d : Dev) (g n s : Nat) : StreamFrame := Tab.get StreamFrame.init (d.frame g n).streams s
def Dev.setStreamFrame (d : Dev) (g n s : Nat) (x : StreamFrame) : Dev :=
  let y := d.frame g n
  d.setFrame g n { y with streams := Tab.set StreamFrame.init y.streams s x }

/-- Whether frame n of group g lies in the open range of R48. -/
def Dev.frameOpen (d : Dev) (g n : Nat) : Bool :=
  let f := (d.group g).fold
  f ≤ n && n ≤ f + ceilDiv (d.window f g) 4096 && !(d.frame g n).done

/-- Whether the stream is OUT as far as frame n is concerned (R52, R53). -/
def Dev.outFor (d : Dev) (s n : Nat) : Bool :=
  let x := d.stream s
  n < x.inFrom || (d.get (F.ING_STREAM_ST_OUT s) == 1 && (match x.rejoin with | none => true | some r => n < r))

/-- Whether the stream is ABSENT: its lane is not UP (R73). Generated samples come from no lane. -/
def Dev.absent (d : Dev) (n s : Nat) : Bool := !d.generated n && !d.laneUp (d.sigLane n s)

/-- The live slot mask of input group ig for frame n (R125, R126). -/
def Dev.liveMask (d : Dev) (n ig : Nat) : Word := ~~~(Tab.get 0 (inForce [] d.ing.masks n) ig)

/-- Whether the stream's slot is masked for frame n (R125). -/
def Dev.maskedFor (d : Dev) (n s : Nat) : Bool :=
  !bitOf (d.liveMask n (d.cfg n (F.ING_SIG_ENTRY_IG s))).toNat (d.cfg n (F.ING_SIG_ENTRY_SLOT s))

/-- Whether every position of the stream in frame n is filled (R49). -/
def Dev.streamFull (d : Dev) (g n s : Nat) : Bool := decide (4096 * d.numCh n ≤ (d.streamFrame g n s).pos.length)

/-- Whether the frame completes early: every member that is neither OUT nor ABSENT has filled every position, masked
streams counting as full (R49, R124). A frame that ingest has not opened waits. -/
def Dev.frameFull (d : Dev) (g n : Nat) : Bool :=
  (match d.ing.opened with | none => false | some h => decide (n ≤ h)) &&
  decide ((d.members n g).length ≠ 0) &&
  (d.members n g).all fun s => d.maskedFor n s || d.outFor s n || d.absent n s || d.streamFull g n s

/-! ### Corner-turn layout (R131) -/

/-- Channels of the islands before island k. -/
def Dev.chBefore (d : Dev) (n k : Nat) : Nat := sumN ((List.range k).map fun j => d.chCount n j)

/-- Bytes of one stream's frame. -/
def Dev.streamSize (d : Dev) (n : Nat) : Nat := 4096 * d.numCh n * d.sampleBytes n

/-- The address of a stream's frame in the corner turn. -/
def Dev.ctStream (d : Dev) (n ct : Nat) : Nat :=
  d.cfg n F.ING_CT_BASE_BASE * 4096 + (n % max 1 (d.cfg n F.ING_CT_CFG_DEPTH)) * (d.cfg n F.ING_CT_CFG_STREAMS * d.streamSize n)
    + ct * d.streamSize n

/-- The address of sample (t, c) of frame n of corner-turn index ct, c owned by island k (R131). -/
def Dev.ctAddr (d : Dev) (n ct k t c : Nat) : Nat :=
  let b := d.sampleBytes n
  d.ctStream n ct + 4096 * b * d.chBefore n k + (t * d.chCount n k + (c - d.chFirst n k)) * b

/-- The sample code at a corner-turn position, as the corner turn holds it. -/
def Dev.ctRead (d : Dev) (n ct k t c : Nat) : Nat := ofBytes (d.sdBytes (d.ctAddr n ct k t c) (d.sampleBytes n))

/-- Real and imaginary part of a sample code (R102). -/
def sampleParts (fmt code : Nat) : Int × Int :=
  if fmt = 0 then (sext 4 (code / 16), sext 4 code) else (sext 8 code, sext 8 (code / 256))

end Sys2Proof.Machine
end

