-- ==== Sys2Proof/Machine/Bank.lean ====
section
/-! DEFINITION. Pattern banks: which registers an image loads (R269), and how a bank is installed over a range of control
space (R270, R280). -/
namespace Sys2Proof.Machine

/-- The instance indices and byte offset of an address in a register of the given dimensions. -/
def locateIn (width : Nat) : List (Nat × Nat) → Nat → Option (List Nat × Nat)
  | [], off => if off < width / 8 then some ([], off) else none
  | (count, step) :: t, off =>
    let i := off / step
    if i < count then (locateIn width t (off - i * step)).map fun r => (i :: r.1, r.2) else none

/-- The instance of a row in which an address lies, with its byte offset. -/
def RegDef.locate (r : RegDef) (a : Nat) : Option (List Nat × Nat) :=
  if a < r.base then none else locateIn r.width r.dims (a - r.base)

/-- The control block of an address (R498). -/
def blockOf (a : Nat) : Nat := (a - 0xF000000000) / 0x100000

/-- The rows of a control block; blocks 0x20 to 0x27 are the compute islands, 0x40 to 0x7F the interrupt controller (R419). -/
def blockRows (b : Nat) : List RegDef :=
  let i := if 0x20 ≤ b && b ≤ 0x27 then 0x20 else if 0x40 ≤ b && b ≤ 0x7F then 0x40 else b
  ((regBlocks.filter fun e => e.1 == i).map (·.2)).flatten

/-- The register at an address of control space, with its row and the byte offset in it. -/
def regFind (a : Nat) : Option (RegDef × Reg × Nat) :=
  (blockRows (blockOf a)).findSome? fun r => (r.locate a).map fun l => (r, r.id.reg l.1, l.2)

/-- The registers of which a REGS section gives every bit and a swap resets the rest (R269, R270). -/
def patternRO : List RegId :=
  [.ING_CT_CFG, .ING_CT_BASE, .ING_CH_BLOCK, .ING_SIG_ENTRY, .ING_AG_CFG, .ING_SLOT_MASK, .ISL_STAT_RING, .ISL_PHASE_CFG,
   .ISL_PHASE_BASE, .ISL_VERDICT_CFG, .ISL_OCC_BASE, .ISL_OCC_CFG, .ISL_OCC_ROUTE, .ISL_RETR_MAP, .ISL_BEAM_TAB,
   .ISL_BEAM_CFG, .ISL_WEIGHT_CFG, .ISL_WEIGHT_BASE, .PNL_CFG, .PNL_INT_CFG, .PNL_RETR_CFG, .MEM_SPILL_BASE,
   .MEM_SPILL_LIMIT, .MEM_SPILL_LIST, .PRT_ENTRY, .EGR_QUEUE, .EGR_RING_CFG, .EGR_GROUP_CFG, .ECC_SPILL_CHK, .CAP_CFG,
   .CAP_RING_BASE, .CAP_RING_GEOM, .CAP_TAP, .FO_CFG]

/-- The RW-L registers that a REGS section may write besides (R269, R270). -/
def patternRW : List RegId := [.LANE_CFG, .ING_AG_EPOCH_SC, .ISL_RED_CFG]

/-- The register that holds an address, if an image may load it. -/
def patternReg (a : Nat) : Option RegId :=
  match regFind a with
  | some (r, _, _) => if patternRO.contains r.id || patternRW.contains r.id then some r.id else none
  | none => none

/-- Whether an address belongs to a register that a swap resets where the image does not write it (R270). -/
def patternOwned (a : Nat) : Bool := match patternReg a with | some id => patternRO.contains id | none => false

/-- Writes one 32-bit word of a REGS run at its physical address (R268). -/
def Dev.wrWord (d : Dev) (a w : Nat) : Dev :=
  match regFind a with
  | none => d
  | some (_, r, off) => d.wrReg r (insertField (d.rdReg r) (8 * off + 31) (8 * off) w)

/-- Installs a bank (none: no pattern) over the registers of lo up to hi: what the image writes takes its value, other
pattern-loaded registers their reset values (R270, R281). -/
def Dev.installRange (d : Dev) (b : Option PatBank) (lo hi : Nat) (skip : Nat → Bool) : Dev :=
  let d := { d with regs := d.regs.filter fun e => !(lo ≤ e.1 && e.1 < hi && patternOwned e.1 && !skip e.1) }
  match b with
  | none => d
  | some b => d.forL (b.words.filter fun e => lo ≤ e.1 && e.1 < hi && !skip e.1) fun d e => d.wrWord e.1 e.2

/-- The physical address of panel p's registers, and of island k's. -/
def pnlBase (p : Nat) : Nat := (R.PNL_CFG p).addr
def islBase (k : Nat) : Nat := 0xF002000000 + k * 0x100000

/-- Installs a panel's registers and program (R271, R280); program words that no section writes are zero. -/
def Dev.installPanel (d : Dev) (b : Option PatBank) (p : Nat) : Dev :=
  let d := d.installRange b (pnlBase p) (pnlBase p + 0x10000) (fun _ => false)
  let lo := (R.PNL_UCODE p 0).addr
  let d := { d with regs := d.regs.filter fun e => !(lo ≤ e.1 && e.1 < lo + 0x8000) }.onchipMend (0x40 + p) 0 0x8000
  match b with
  | none => d
  | some b => d.forL (b.ucode.filter fun e => e.1 / 4096 == p) fun d e => d.wrReg (R.PNL_UCODE p (e.1 % 4096)) e.2

end Sys2Proof.Machine
end

