-- ==== Sys2Proof/Machine/Isl.lean ====
section
/-! DEFINITION. The compute island: configuration in force, retraction windows (R202), occupancy tables (R210 to R214),
the reduction unit (R194 to R197), close points (R182), panel stops (R163), and the boundary steps of R58. -/
namespace Sys2Proof.Machine

/-! ### Panels and their state -/

/-- Codes of PNL.STATUS.STATE. -/
def pOff : Nat := 0
def pRun : Nat := 1
def pHeld : Nat := 2
def pService : Nat := 3
def pHalted : Nat := 4
def pFault : Nat := 5

/-- Causes of R212. -/
def cLate : Nat := 1
def cAfterClose : Nat := 2
def cQueueFull : Nat := 3
def cNoReserve : Nat := 4
def cParity : Nat := 5
def cPhaseMiss : Nat := 6
def cCtSkip : Nat := 7
def cPanel : Nat := 8
def cOverflow : Nat := 9
def cMode : Nat := 10

def Dev.pState (d : Dev) (p : Nat) : Nat := d.get (F.PNL_STATUS_STATE p)

/-- STATE is not OFF, HALTED or FAULT. -/
def Dev.pLive (d : Dev) (p : Nat) : Bool := d.pState p == pRun || d.pState p == pHeld || d.pState p == pService

def Dev.pFrame (d : Dev) (p : Nat) : Nat := d.get (F.PNL_FRAME_FRAME p)
def Dev.pStart (d : Dev) (p : Nat) : Nat := d.get (F.PNL_INT_START_START p)
def Dev.pMode (d : Dev) (p : Nat) : Nat := d.get (F.PNL_CFG_MODE p)
def Dev.pGang (d : Dev) (p : Nat) : Nat := d.get (F.PNL_CFG_GANG p)

/-- The panels of island k. -/
def panelsOf (k : Nat) : List Nat := (List.range 8).map fun m => 8 * k + m

def Dev.livePanels (d : Dev) (k : Nat) : List Nat := (panelsOf k).filter d.pLive

/-- The island has a panel whose STATE is not OFF, HALTED or FAULT (R132). -/
def Dev.islLive (d : Dev) (k : Nat) : Bool := !(d.livePanels k).isEmpty

/-- The frame that island k processes (R31). -/
def Dev.islFrame (d : Dev) (k : Nat) : Nat := d.get (F.ISL_FRAME_NO_FRAME_NO k)

/-- A register field of island k in force for frame n: the outgoing pattern's below a swap the island has made (R134). -/
def Dev.icfg (d : Dev) (k n : Nat) (f : RF) : Nat :=
  match outgoingAt (d.isl k).outgoing n with
  | some (t, _) => bitsOf (Tab.get 0 t f.reg.addr ^^^ BitVec.ofNat 64 f.reg.reset).toNat f.hi f.lo
  | none => d.get f

/-- Ingest and egress held in reset (R33). -/
def Dev.ingHeld (d : Dev) : Bool := d.is F.DEV_ISL_RESET_INGEST
def Dev.egrHeld (d : Dev) : Bool := d.is F.DEV_ISL_RESET_EGRESS

/-! ### Crossings out of the island; an island held in reset sends nothing, and what egress held in reset is sent is discarded (R32) -/

def Dev.sendMem (d : Dev) (k : Nat) (i : MemItem) : Dev :=
  if (d.isl k).held then d else d.updIsl k fun x => { x with toMem := x.toMem ++ [i] }
def Dev.sendEgr (d : Dev) (k : Nat) (i : EgrItem) : Dev :=
  if (d.isl k).held || d.egrHeld then d else d.updIsl k fun x => { x with toEgr := x.toEgr ++ [i] }

/-! ### Occupancy entries (R211) -/

/-- Whether a sealed table of island k covers frame n (R201). -/
def IslSt.sealedFrame (x : IslSt) (n : Nat) : Bool := x.sealed.any fun s => s.1 ≤ n && n < s.2

/-- The lowest frame that an unsealed table of island k, or one still to be opened, can cover; none where no table can. -/
def Dev.occFrom (d : Dev) (k : Nat) : Option Nat :=
  let x := d.isl k
  ((x.tabs.map (·.start)) ++ (d.livePanels k).map d.pStart ++ x.dead.map (·.2.2)).min?

/-- A table of island k may still take in frame n. -/
def Dev.occOpen (d : Dev) (k n : Nat) : Bool := match d.occFrom k with | some s => decide (s ≤ n) | none => false

/-- Enters an outcome in the island's tables. -/
def Dev.occAdd (d : Dev) (k : Nat) (i : OccItem) : Dev := d.updIsl k fun x => { x with occ := x.occ ++ [i] }

/-- The close that a block of panel m belongs to (R211): that of its integration, if the panel has made it. -/
def IslSt.blockClose (x : IslSt) (m start : Nat) (all : Option Nat) : Option Nat :=
  match all with
  | some f => some f
  | none => (x.closes.find? fun c => c.1 == m && c.2.1 == start).map (·.2.2)

/-- What no table can list any more leaves the island: outcomes, valid counts and closes below the lowest frame of an unsealed table, and
granules so old that a verdict for them is stale (R201). `now` is ISL_n.FRAME_NO. -/
def Dev.occPrune (d : Dev) (k now : Nat) : Dev :=
  let from_ := (d.occFrom k).getD now
  d.updIsl k fun x =>
    { x with
      valid := x.valid.filter fun e => (from_ * 8192) * 4096 ≤ e.1
      withdrawn := x.withdrawn.filter fun w => from_ ≤ w.1 || now ≤ w.1 + 64
      sealed := x.sealed.filter fun s => now ≤ s.2 + 16
      closes := x.closes.filter fun c => x.tabs.any fun t => t.close == c.2.2
      occ := x.occ.filter fun i => match i with
        | .granule g _ _ => decide (from_ ≤ g.frame) || decide (now ≤ g.frame + 16)
        | .group n _ _ => decide (from_ ≤ n)
        | .block st _ m _ all => match x.blockClose m st all with
          | some f => x.tabs.any fun t => t.close == f
          | none => decide (from_ ≤ st) }

/-- The outcome of an accepted granule in panel m: the first one stands. -/
def Dev.occOut (d : Dev) (k : Nat) (gr : Granule) (m cause : Nat) : Dev :=
  d.updIsl k fun x => { x with occ := x.occ.map fun i => match i with
    | .granule g mask outs =>
      if g = gr then (if outs.any fun o => o.1 == m then .granule g mask outs else .granule g mask (outs ++ [(m, cause)]))
      else .granule g mask outs
    | other => other }

/-- A block of panel p is contaminated in the dump of the integration that started at `start` (R161, R165, R181, R188). -/
def Dev.occBlock (d : Dev) (p start tag : Nat) : Dev := d.occAdd (p / 8) (.block start start (p % 8) tag none)

/-- Every granule of a group in a frame is contaminated, once per frame, group and cause (R133, R193). -/
def Dev.occGroup (d : Dev) (k n g cause : Nat) : Dev :=
  if !d.occOpen k n || ((d.isl k).occ.any fun i => match i with | .group n' g' c => n' == n && g' == g && c == cause | _ => false) then d
  else d.occAdd k (.group n g cause)

/-! ### Retraction windows (R43, R202) -/

/-- On a grid of runs of l and integrations of lm frames that starts at `start` and is cut at the given boundaries: the
first frame of the integration that holds n, the end of its run and its close. -/
def gridOf (l lm : Nat) (cuts : List Nat) (n : Nat) : Nat → Nat → Nat × Nat × Nat
  | 0, start => (start, start + l, start + lm)
  | fuel + 1, start =>
    let c := (cuts.filter fun f => start < f).foldl min (start + lm)
    if n < c then (start, min c (start + ((n - start) / l + 1) * l), c) else gridOf l lm cuts n fuel c

/-- The boundaries of drains and swaps that the island has received (R57). -/
def Dev.cuts (d : Dev) (k : Nat) : List Nat := ((d.isl k).commits.filter fun c => c.kind != 0).map (·.f)

/-- The integration of panel p that holds a frame n of its current or a later one, its current integration having begun at s: first
frame, B_p(n) and C_p(n) (R43, R202). -/
def Dev.gridAt (d : Dev) (p s n : Nat) : Nat × Nat × Nat :=
  let l := max 1 (d.get (F.PNL_INT_CFG_RUN_FRAMES p))
  let lm := l * max 1 (d.get (F.PNL_INT_CFG_RUNS p))
  gridOf l lm (d.cuts (p / 8)) n (n + 1 - s) s

/-- B_p(n) and C_p(n) of panel p for a frame n of its current or a later integration (R202). -/
def Dev.runEnd (d : Dev) (p n : Nat) : Nat × Nat := (d.gridAt p (d.pStart p) n).2

/-- E_p(n) (R202). -/
def Dev.windowEnd (d : Dev) (p n : Nat) : Nat :=
  let bc := d.runEnd p n
  let ret := d.icfg (p / 8) n (F.ISL_VERDICT_CFG_RET (p / 8))
  min (bc.1 + ret) (if d.get (F.PNL_RETR_CFG_CLOSE_TAKE p) = 1 then bc.2 else bc.2 - 1)

/-- The interruptible point that follows FMARK E_p(n) has passed (R204, R205). -/
def Dev.windowPassed (d : Dev) (p n : Nat) : Bool :=
  if n < d.pStart p then true
  else
    let e := d.windowEnd p n
    e < d.pFrame p || (d.pFrame p == e && (d.panel p).atMark != some e)

/-- Whether a close of panel p falls on boundary f: its grid, a drain or a swap (R182). -/
def Dev.closesAt (d : Dev) (p f : Nat) : Bool :=
  (d.cuts (p / 8)).contains f || (d.runEnd p (f - 1)).2 == f

/-! ### Sealing occupancy tables (R210 to R214) -/

/-- The key of a valid count: frame, corner-turn index, channel. -/
def validKey (n u c : Nat) : Nat := (n * 8192 + u) * 4096 + c

/-- N of a granule: the sum of its valid counts, leaving out a frame that the island skipped (R133, R210). -/
def IslSt.granuleN (x : IslSt) (gr : Granule) : Nat :=
  if x.withdrawn.contains (gr.frame, 0) then 0
  else sumN ((List.range 16).map fun i => Tab.get 0 x.valid (validKey gr.frame gr.u (16 * gr.g + i)))

/-- A granule retracted in every panel of its mask (R211). -/
def retractedAll (mask : List Nat) (outs : List (Nat × Nat)) : Bool :=
  mask.all fun m => outs.any fun o => o.1 == m && o.2 == 0

/-- The bits of a list of panels. -/
def panelBits (l : List Nat) : Nat := sumN ((l.filter (· < 8)).eraseDups.map fun m => 2 ^ m)

/-- An entry of a table as (FRAME, KIND, GROUP, CT_INDEX, TAG or N_SUM, CAUSE, PANELS). -/
structure OccEntry where
  frame : Nat
  kind : Nat
  g : Nat
  u : Nat
  num : Nat
  cause : Nat
  panels : Nat
deriving DecidableEq, Repr

/-- The order of R212. -/
def OccEntry.key (e : OccEntry) : Nat :=
  (((e.frame * 4 + e.kind) * 256 + e.g) * 8192 + e.u) * 2 ^ 12 + (if e.kind = 3 then e.num % 4096 else 0)

/-- The 16 bytes of an entry (R212). -/
def OccEntry.bytes (e : OccEntry) : List Nat :=
  toBytes 6 e.frame ++ toBytes 2 e.u ++ [e.g % 256, e.kind, e.cause, e.panels] ++ toBytes 3 e.num ++ [0]

/-- The entry that an item makes in the table of frames s to f − 1, if it belongs there (R211, R212). A block belongs to the close of its
panel's integration, once that is known. The Σ N of a group-frame is a free value within R212's range. -/
def Dev.occEntry (d : Dev) (k s f : Nat) (i : OccItem) : Option OccEntry :=
  let x := d.isl k
  match i with
  | .granule gr mask outs =>
    if gr.frame < s || f ≤ gr.frame then none
    else
      let left := mask.filter fun m => !(outs.any fun o => o.1 == m && o.2 == 0)
      if left.isEmpty then some ⟨gr.frame, 0, gr.g, gr.u, x.granuleN gr, 0, 0⟩
      else
        let m := left.foldl min 7
        let cause := ((outs.find? fun o => o.1 == m).map (·.2)).getD cLate
        some ⟨gr.frame, 1, gr.g, gr.u, x.granuleN gr, cause, panelBits left⟩
  | .group n g cause =>
    if n < s || f ≤ n then none
    else
      let on := (List.range 8).filter fun m => d.pMode (8 * k + m) != 0
      some ⟨n, 2, g, 0, Config.groupSum k n g % 65537, cause, panelBits on⟩
  | .block start fr m tag all =>
    let mine := match x.blockClose m start all with
      | some g => g == f
      | none => s ≤ start && start < f
    if mine then some ⟨max fr s, 3, 0, 0, tag + (if all.isSome then 4096 else 0), cPanel, panelBits [m]⟩ else none

/-- The valid count of stream u and channel c over frames s to f − 1 (R210). -/
def Dev.validCount (d : Dev) (k s f u c : Nat) : Nat :=
  let x := d.isl k
  let gone := x.occ.filterMap fun i => match i with
    | .granule gr mask outs => if gr.u == u && gr.g == c / 16 && retractedAll mask outs then some gr.frame else none
    | _ => none
  let n := sumN ((List.range (f - s)).map fun i =>
    if gone.contains (s + i) || x.withdrawn.contains (s + i, 0) then 0 else Tab.get 0 x.valid (validKey (s + i) u c))
  min n (2 ^ 32 - 1)

/-- The panels of a granule's mask: RETR_MAP of u without panels that are OFF, HALTED or FAULT (R203). -/
def Dev.granuleMask (d : Dev) (k : Nat) (gr : Granule) : List Nat :=
  let j := gr.u / 4
  let f := match gr.u % 4 with
    | 0 => F.ISL_RETR_MAP_MASK0 k j
    | 1 => F.ISL_RETR_MAP_MASK1 k j
    | 2 => F.ISL_RETR_MAP_MASK2 k j
    | _ => F.ISL_RETR_MAP_MASK3 k j
  let m := d.icfg k gr.frame f
  (List.range 8).filter fun i => bitOf m i && d.pLive (8 * k + i)

/-- Sets the panel mask of an accepted granule. -/
def Dev.setMask (d : Dev) (k : Nat) (gr : Granule) (mask : List Nat) : Dev :=
  d.updIsl k fun x => { x with occ := x.occ.map fun i => match i with
    | .granule g m outs => if g = gr then .granule g mask outs else .granule g m outs
    | other => other }

/-- Whether X panels of the island have different run grids (R210, R284). -/
def Dev.gridsDiffer (d : Dev) (k : Nat) : Bool :=
  let l := ((panelsOf k).filter fun p => d.pMode p == 1).map fun p => (d.get (F.PNL_INT_CFG_RUN_FRAMES p), d.get (F.PNL_INT_CFG_RUNS p))
  l.any fun x => l.any fun y => x != y

/-- A table as it is laid down: that of an island whose X panels have different run grids is undefined. -/
def Dev.tableImage (d : Dev) (k : Nat) (img : List Nat) : Dev × List Nat :=
  if d.gridsDiffer k then (d.fresh, (List.range img.length).map fun i => Config.tableByte d.free i % 256) else (d, img)

/-- Seals a table: counts and entries are laid down in its buffer in SDRAM, and egress is told (R212 to R214). A verdict not
yet handled has reached no outcome in any panel of its mask (R211). -/
def Dev.sealTable (d : Dev) (k : Nat) (t : OccTab) (early : Bool) : Dev :=
  let d := d.forL ((d.isl k).verdicts.filter fun gr => gr.frame < t.close) fun d gr => d.setMask k gr (d.granuleMask k gr)
  let s := t.start
  let f := t.close
  let n := f - 1
  let streams := d.cfg n F.ING_CT_CFG_STREAMS
  let first := d.chFirst n k
  let count := d.chCount n k
  let all := (d.isl k).occ.filterMap (d.occEntry k s f)
  let most := d.icfg k n (F.ISL_OCC_CFG_MAX_ENTRIES k)
  let past := decide (most < all.length)
  let kept := sortBy OccEntry.key (all.take most)
  let counts := ((List.range streams).map fun u =>
    ((List.range count).map fun c => toBytes 4 (d.validCount k s f u (first + c))).flatten).flatten
  let img := toBytes 6 f ++ toBytes 6 s ++ [k, b2n past + 2 * b2n early, 0, 0] ++ toBytes 4 streams ++ toBytes 4 count
    ++ toBytes 4 kept.length ++ [0, 0, 0, 0] ++ counts ++ (kept.map OccEntry.bytes).flatten
  let addr := d.icfg k n (F.ISL_OCC_BASE_BASE k) * 64 + t.buf * (d.icfg k n (F.ISL_OCC_CFG_SIZE k) * 64)
  let t := d.tableImage k img
  let d := (t.1.memStore (1 + k) addr t.2).1
  let counted := kept.filter fun e => !(d.isl k).sealedFrame e.frame
  let d := d.bump (F.ISL_VERDICT_CNT_COUNT k 4) (counted.filter fun e => e.kind == 0).length
  let d := d.bump (F.ISL_VERDICT_CNT_COUNT k 5) (counted.filter fun e => e.kind == 1).length
  let d := if past || early then d.flag (F.ISL_VERDICT_EVENTS_TABLE_OVF k) else d
  let d := d.sendEgr k (.table k f s addr img.length)
  (d.updIsl k fun x => { x with tabs := x.tabs.filter fun u => u.close ≠ f, sealed := x.sealed ++ [(s, f)] }).occPrune k (d.islFrame k)

/-- The first frame of the integration that closes at F in the panels of mode X, which share one grid (R210); where none closes there,
that of the panel given. -/
def Dev.tableStart (d : Dev) (k f start : Nat) : Nat :=
  let begins := (panelsOf k).filterMap fun p =>
    if d.pMode p != 1 then none
    else
      let s := match (d.isl k).dead.find? fun m => m.1 == p % 8 with | some m => some m.2.2 | none => if d.pLive p then some (d.pStart p) else none
      match s with
      | some s => if s < f && (d.gridAt p s (f - 1)).2.2 == f then some (d.gridAt p s (f - 1)).1 else none
      | none => none
  begins.headD start

/-- The table of the close at F is opened by the first panel that closes there; a fifth unsealed table seals the oldest
early (OCC_TABLE_EARLY_SEAL, R214). Panels that have stopped get their entry (R163). -/
def Dev.openTable (d : Dev) (k f start : Nat) : Dev :=
  if (d.isl k).tabs.any (fun t => t.close == f) || (d.isl k).sealed.any (fun s => s.2 == f) then d
  else
    let start := d.tableStart k f start
    let d := match (d.isl k).tabs with
      | t :: rest => if 4 ≤ rest.length + 1 then d.sealTable k t true else d
      | [] => d
    let d := d.updIsl k fun x => { x with tabs := x.tabs ++ [⟨start, f, x.tabNext % 4⟩], tabNext := x.tabNext + 1 }
    d.forL ((d.isl k).dead.filter fun m => m.2.2 < f) fun d m => d.occAdd k (.block start (max m.2.1 start) m.1 0 (some f))

/-- A stopped panel's grid goes on without it (R163): its close at F, if there is one, opens the table of F, which lists it. -/
def Dev.deadClose (d : Dev) (k f : Nat) : Dev :=
  d.forL ((d.isl k).dead.filter fun m => m.2.2 < f && (d.gridAt (8 * k + m.1) m.2.2 (f - 1)).2.2 == f) fun d m =>
    (d.openTable k f (d.gridAt (8 * k + m.1) m.2.2 (f - 1)).1).updIsl k fun x =>
      { x with dead := x.dead.map fun y => if y.1 = m.1 then (y.1, y.2.1, f) else y }

/-- OCC_TABLE_SEAL (R214): tables whose horizon has passed when ISL_n.FRAME_NO is n. -/
def Dev.sealDue (d : Dev) (k n : Nat) : Dev :=
  d.forL ((d.isl k).tabs.filter fun t => t.close + d.icfg k (t.close - 1) (F.ISL_VERDICT_CFG_HORIZON k) ≤ n)
    fun d t => d.sealTable k t false

/-- Every unsealed table is sealed early (R214). -/
def Dev.sealAll (d : Dev) (k : Nat) : Dev := d.forL (d.isl k).tabs fun d t => d.sealTable k t true

/-! ### Reduction unit (R194 to R197) -/

/-- The ranking of R195: value descending, then frame, channel and index ascending. -/
def RedVal.before (a b : RedVal) : Bool :=
  if a.value ≠ b.value then b.value < a.value
  else if a.frame ≠ b.frame then a.frame < b.frame
  else if a.chan ≠ b.chan then a.chan < b.chan
  else a.index < b.index

/-- Inserts a value in rank order. -/
def RedVal.insert (v : RedVal) : List RedVal → List RedVal
  | [] => [v]
  | w :: t => if v.before w then v :: w :: t else w :: RedVal.insert v t

/-- WIN of the reduction unit (R196). -/
def Dev.redWin (d : Dev) (k : Nat) : Nat := d.get (F.ISL_RED_CFG_WIN k) + 1

/-- RED_VALUE and RED_TRIGGER (R194 to R197): a value is ranked into its window, or late; the first of a window above
RED_THRESH raises a trigger. -/
def Dev.redOffer (d : Dev) (k : Nat) (v : RedVal) : Dev :=
  let w := d.redWin k
  let win := v.frame / w
  if (win + 1) * w + 1 ≤ d.islFrame k then d.bump (F.ISL_RED_LATE_COUNT k) 1
  else
    let x := d.isl k
    let d := d.setIsl k { x with red := v.insert x.red }
    if d.is (F.ISL_RED_CFG_TRIG_EN k) && d.get (F.ISL_RED_THRESH_THRESH k) < v.value && !x.redTrig.contains win then
      let d := d.updIsl k fun x => { x with redTrig := x.redTrig ++ [win] }
      { d.flag (F.ISL_RED_STATUS_TRIGGERED k) with trigs := d.trigs ++ [TrigIn.mk k v] }
    else d

/-- Autocorrelations of panel p's DUMPs of the integration that began at `start` are offered once its close F is known (R194, R238). Until
then they stand with that first frame. -/
def Dev.redSettle (d : Dev) (p start f : Nat) : Dev :=
  let k := p / 8
  let mine := fun (e : Nat × RedVal) => e.1 == p && e.2.frame == start
  let vals := (d.isl k).redPend.filter mine
  let d := d.updIsl k fun x => { x with redPend := x.redPend.filter fun e => !mine e }
  d.forL vals fun d e => d.redOffer k { e.2 with frame := f - 1 }

/-- RED_WINDOW_CLOSE (R196): ISL_n.FRAME_NO becomes n, two beyond the end of a window. -/
def Dev.redClose (d : Dev) (k n : Nat) : Dev :=
  let w := d.redWin k
  if d.get (F.ISL_RED_CFG_SRC k) = 0 || n < w + 1 || (n - 1) % w ≠ 0 then d
  else
    let win := (n - 1) / w - 1
    let x := d.isl k
    let top := (x.red.filter fun v => v.frame / w == win).take 8
    let d := d.forN 8 fun d i =>
      let d := (d.wrReg (R.ISL_RED_TOP_VAL k i) 0).wrReg (R.ISL_RED_TOP_POS k i) 0
      match top[i]? with
      | none => d
      | some v =>
        let d := (d.flag (F.ISL_RED_TOP_VAL_VALID k i)).put (F.ISL_RED_TOP_VAL_VALUE k i) v.value
        ((d.put (F.ISL_RED_TOP_POS_INDEX k i) v.index).put (F.ISL_RED_TOP_POS_CHANNEL k i) v.chan).put
          (F.ISL_RED_TOP_POS_FRAME_OFF k i) (v.frame - win * w)
    let d := (d.put (F.ISL_RED_STATUS_COUNT k) top.length).bump (F.ISL_RED_STATUS_SEQ k) 1
    let d := d.put (F.ISL_RED_WINDOW_START k) (win * w)
    d.updIsl k fun x => { x with red := x.red.filter fun v => v.frame / w != win, redTrig := x.redTrig.filter (· ≠ win) }

/-! ### Ports and close points (R151, R182) -/

/-- Beam samples for capture at the head of the crossing from island k to the memory island reach the capture engine, in the order of
the crossing (R28, R316); `fuel` bounds them. -/
def Dev.memFlush (d : Dev) (k : Nat) : Nat → Dev
  | 0 => d
  | fuel + 1 =>
    match (d.isl k).toMem with
    | .beam q beam n ch t bad re im :: rest =>
      let d := d.updIsl k fun x => { x with toMem := rest }
      ({ d with cap := { d.cap with items := d.cap.items ++ [CapItem.beam q beam n ch t bad re im] } }).memFlush k fuel
    | _ => d

/-- Close marks at the head of a panel's port leave it: the marker to the memory island, the notice to egress (R182, R248). -/
def Dev.portFlush (d : Dev) (p : Nat) : Nat → Dev
  | 0 => d
  | fuel + 1 =>
    match (d.panel p).port with
    | .mark f par start :: t =>
      let d := d.updPanel p fun x => { x with port := t }
      ((d.sendMem (p / 8) (.mark p f par start)).sendEgr (p / 8) (.notice p f false)).portFlush p fuel
    | .fix f :: t => ((d.updPanel p fun x => { x with port := t }).sendEgr (p / 8) (.fix p f)).portFlush p fuel
    | _ => d

/-- The panel's bit in MEM.DUMP_BUSY (R183). -/
def Dev.dumpBusy (d : Dev) (p : Nat) : Bool := bitOf (d.get F.MEM_DUMP_BUSY_BUSY) p

/-- Whether a close point waits for the dump read of the previous integration (R184). -/
def Dev.closeHeld (d : Dev) (p : Nat) : Bool := (d.panel p).closing.isSome && d.dumpBusy p

/-- CLOSE_POINT (R182). -/
def Dev.closePoint (d : Dev) (p : Nat) : Dev :=
  match (d.panel p).closing with
  | none => d
  | some f =>
    let start := d.pStart p
    let par := d.get (F.PNL_INT_START_PARITY p)
    let d := (d.openTable (p / 8) f start).updIsl (p / 8) fun x => { x with closes := x.closes ++ [(p % 8, start, f)] }
    let d := (d.put (F.PNL_INT_START_START p) f).put (F.PNL_INT_START_PARITY p) (1 - par)
    let d := d.updPanel p fun x => { x with closing := none, port := x.port ++ [.mark f par start] }
    (d.redSettle p start f).portFlush p 8

/-! ### Starting and stopping panels (R149, R153, R163) -/

/-- PNL.STATUS shows a DRAIN or SWAP that the panel has still to take (R160). -/
def Dev.showPend (d : Dev) (p : Nat) : Dev :=
  let x := d.panel p
  let f := d.pFrame p
  let due (kind : Nat) (done : Option Nat) : Bool :=
    (d.isl (p / 8)).commits.any fun c => c.kind == kind && (f < c.f || (c.f == f && x.atMark == some f && done != some f))
  (d.put (F.PNL_STATUS_DRAIN_PEND p) (b2n (due 1 x.doneDrain))).put (F.PNL_STATUS_SWAP_PEND p) (b2n (due 2 x.doneSwap))

/-- A panel starts its program at word 0 for frames from f on, or is OFF if its CFG.MODE is OFF (R149, R153, R174,
R219). Slots whose SPILL or DUMP is queued stay until their capture, with their promotion partners. A panel that had stopped gets its
entry in the table of the close at f first (R163). -/
def Dev.startPanel (d : Dev) (p f : Nat) : Dev :=
  let d := match (d.isl (p / 8)).dead.find? fun m => m.1 == p % 8 with
    | some m => if m.2.2 < f then d.openTable (p / 8) f m.2.2 else d
    | none => d
  let x := d.panel p
  let queued := x.port.filterMap fun i => match i with | .queued op => some op.slot | _ => none
  let slots := x.slots.filter fun e => queued.contains e.1
  let partners := (slots.filterMap fun e => match e.2.bind with | some b => b.partner | none => none)
    ++ x.port.filterMap fun i => match i with | .plane _ _ _ _ _ b => b | _ => none
  let y : PanelSt := { PanelSt.init with
    port := x.port, slots := slots, planes := x.planes.filter fun e => partners.contains e.1
    promo := match x.promo with | some (s, b, c) => if partners.contains b then some (s, b, c) else none | none => none
    chain := x.chain, cyc := x.cyc, taken := x.taken, zsig := if queued.isEmpty then [] else x.zsig
    doneSwap := (d.pat.next.filter fun e => decide (e.1 ≤ f)).getLast?.map (·.1) }
  let d := d.setPanel p y
  let d := d.forN 16 fun d a => d.put (F.PNL_A_VALUE p a) 0
  let d := (d.wrReg (R.PNL_PC p) 0).wrReg (R.PNL_STATUS p) 0
  let d := ((d.put (F.PNL_FRAME_FRAME p) f).put (F.PNL_INT_START_START p) f).put (F.PNL_INT_START_PARITY p) 0
  let d := d.put (F.PNL_SLOT_BOUND_BOUND p) (sumN (queued.eraseDups.map fun s => 2 ^ s))
  let d := (d.put (F.PNL_STATUS_STATE p) (if d.pMode p = 0 then pOff else pRun)).showPend p
  d.updIsl (p / 8) fun i => { i with dead := i.dead.filter fun m => m.1 ≠ p % 8 }

/-- The fill plan of island k for frame n (R134). -/
def IslSt.planFor (x : IslSt) (n : Nat) : List FillUnit :=
  match outgoingAt x.outgoing n with
  | some (_, p) => p
  | none => x.plan
def Dev.planFor (d : Dev) (k n : Nat) : List FillUnit := (d.isl k).planFor n

/-- Gives up the corner-turn holds of frames that FRAME_NO has passed and of which the filler has read every unit (R132). -/
def Dev.relHolds (d : Dev) (k : Nat) : Dev :=
  let f := d.islFrame k
  if d.islLive k then
    d.updIsl k fun x =>
      let read := fun (n : Nat) => (x.planFor n).isEmpty || (n < x.nextFill.1 && !x.units.any fun u => u.frame == n && !u.full)
      { x with holds := x.holds.filter fun n => !(n < f && read n) }
  else d.updIsl k fun x => { x with holds := [] }

/-- CT_SLOT_WITHDRAW (R133): island k still holds frame m when its slot is wanted. The frame is skipped, cut short or passed, by how far
the island has got; a unit of it being read is entered as zeros, or dropped where the panels have passed the frame. Units that
run-ahead has entered before keep their samples (DESIGN CHOICE 108). -/
def Dev.withdraw (d : Dev) (k m : Nat) : Dev :=
  let x := d.isl k
  if x.holds.contains m then
    let fno := d.islFrame k
    let kind := if fno < m then 0 else if fno = m then 1 else 2
    let d := d.setIsl k { x with
      holds := x.holds.filter (· ≠ m), withdrawn := x.withdrawn ++ [(m, kind)]
      units := x.units.map fun u => if u.frame = m && !u.full then (if kind = 2 then { u with drop := true } else { u with zero := true }) else u }
    let d := d.forN (ceilDiv (d.chCount m k) 16) fun d i => d.occGroup k m (d.chFirst m k / 16 + i) cCtSkip
    (d.bump (F.ING_CT_SKIP_COUNT k) 1).note 0x0A 0 [k, m]
  else d

/-- An island whose panels start at frame f holds every frame from f on that ingest has opened (R132); those whose slot ingest has
already written again are withdrawn at once (R133). -/
def Dev.takeHolds (d : Dev) (k f : Nat) : Dev :=
  match d.ing.opened with
  | none => d
  | some h =>
    if !d.islLive k then d
    else
      let ns := (List.range (h + 1 - f)).map (f + ·)
      let d := d.updIsl k fun x => { x with holds := x.holds ++ ns.filter fun n => !x.holds.contains n }
      d.forL (ns.filter fun n => decide (d.ing.layout ≤ n) && decide (n + d.cfg n F.ING_CT_CFG_DEPTH ≤ h)) fun d n => d.withdraw k n

/-- An island that had no live panel before its panels started at frame f (`was` says whether it had) fills from frame f on: units that
an earlier program left release their space, and it holds the frames that are open (R132, R136). -/
def Dev.islStart (d : Dev) (k f : Nat) (was : Bool) : Dev :=
  if was || !d.islLive k then d
  else (d.updIsl k fun x =>
    { x with
      nextFill := (f, 0)
      units := (x.units.filter fun u => f ≤ u.frame || !u.full).map fun u => if u.full then u else { u with drop := true } }).takeHolds k f

/-! ### Boundary steps (R58) -/

/-- RUN_AHEAD_DISCARD (R137): units of frames f and later are dropped and will be read again. -/
def Dev.discardRunAhead (d : Dev) (k f : Nat) : Dev :=
  let x := d.isl k
  let gone := (x.units.filter fun u => f ≤ u.frame && !u.drop).length
  let d := d.setIsl k { x with
    units := (x.units.map fun u => if f ≤ u.frame && !u.full then { u with drop := true } else u).filter fun u => u.frame < f || !u.full
    nextFill := if f ≤ x.nextFill.1 then (f, 0) else x.nextFill }
  d.bump (F.ISL_FILL_DISCARD_COUNT k) gone

/-- BANK_INSTALL (R280): island k installs the incoming bank's island registers and fill plan at boundary f; panels that
run no program start theirs, the others do so when their SWAP routine ends. -/
def Dev.installIsl (d : Dev) (k f : Nat) (b : Option PatBank) : Dev :=
  let old := d.regs
  let d := d.installRange b (islBase k) (islBase k + 0x10000) (fun _ => false)
  let fill := match b with | none => (0, []) | some b => Tab.get (0, []) b.fills k
  let d := (d.put (F.ISL_FILL_CFG_UNITS k) fill.2.length).put (F.ISL_FILL_CFG_RUN_AHEAD k) fill.1
  let d := d.updIsl k fun x => { x with outgoing := (f, old, x.plan) :: x.outgoing, plan := fill.2, clockDue := b.isSome }
  let was := d.islLive k
  let d := d.forL (panelsOf k) fun d p =>
    if d.pLive p then d
    else if (d.isl k).held then d.installPanel b p
    else (d.installPanel b p).startPanel p f
  d.islStart k f was

/-- The swap or stop in progress whose bank island k installed last, with that bank (R280, R281). -/
def Dev.islSwap (d : Dev) (k : Nat) : Option (Nat × Option PatBank) :=
  match (d.isl k).outgoing with
  | e :: _ => d.pat.next.find? fun n => n.1 == e.1
  | [] => none

/-- Whether panel p has started its program for the swap that its island has reached (R280). -/
def Dev.swapDone (d : Dev) (p : Nat) : Bool :=
  match d.islSwap (p / 8) with | some (f, _) => (d.panel p).doneSwap == some f | none => false

/-- Panels that stopped after their island reached the boundary of a swap, and before their SWAP routine ended, take the
incoming program once no panel of the island has its SWAP routine ahead (R163, R280). -/
def Dev.swapRest (d : Dev) (k : Nat) : Dev :=
  match d.islSwap k with
  | some (f, b) =>
    if d.islFrame k < f || (d.livePanels k).any (fun p => !d.swapDone p) then d
    else
      let was := d.islLive k
      (d.forL ((panelsOf k).filter fun p => (d.pState p == pHalted || d.pState p == pFault) && !d.swapDone p)
        fun d p => (d.installPanel b p).startPanel p f).islStart k f was
  | none => d

/-- The array clock of island k moves to the incoming divider once no panel of it has its SWAP routine ahead (R25, R280). CHANGING shows it
until a panel's next cycle (DESIGN CHOICE 60). -/
def Dev.clockMove (d : Dev) (k : Nat) : Dev :=
  let d := d.swapRest k
  if (d.isl k).clockDue then
    match d.islSwap k with
    | some (_, some b) =>
      if (d.livePanels k).all d.swapDone then
        ((d.put (F.ISL_CLK_N k) (b.clkN.getD k 20)).put (F.ISL_CLK_CHANGING k) (b2n (d.islLive k))).updIsl k fun x => { x with clockDue := false }
      else d
    | _ => d
  else d

/-- Once no panel of the island is live, a stop that the island has reached seals its tables early (R214). -/
def Dev.stopSeal (d : Dev) (k : Nat) : Dev :=
  match d.pat.next.find? fun e => e.2.isNone with
  | some (f, _) => if d.islLive k || d.islFrame k < f then d else d.sealAll k
  | _ => d

/-- A stop has been reached and has not completed (R281). -/
def Dev.stopping (d : Dev) : Bool := d.pat.next.any fun e => e.2.isNone

/-- HW_STOP_POST (R281): a stop at ING.FRAME_HEAD + 1, recorded as a software post would be; it changes nothing while a stop is in
progress (DEDUCED 62). -/
def Dev.hwStop (d : Dev) : Dev :=
  if d.active && !d.stopping then
    let f := d.get F.ING_FRAME_HEAD_HEAD + 1
    let d := if d.pat.stop.isSome then d.flag F.PAT_EVENTS_REPLACED else d
    let d := (d.put F.PAT_STOP_AT_AT_FRAME f).flag F.PAT_STATUS_STOP_PEND
    { d with pat := { d.pat with stop := some f } }
  else d

/-- The marker of frame m has reached island k: a weight commit at m or before is settled, and BANK_NOW shows the bank in force for the
newest marked frame (R233, R237; DEDUCED 51). -/
def Dev.weightMark (d : Dev) (k m : Nat) : Dev :=
  let d := match (d.isl k).weightAt with
    | some (g, bank) =>
      if g ≤ m then d.updIsl k fun x => { x with weightAt := none, weightDue := x.weightDue ++ [(g, bank)], banks := (g, bank) :: x.banks } else d
    | none => d
  d.put (F.ISL_WEIGHT_STATUS_BANK_NOW k) (inForce 0 (d.isl k).banks m)

/-- Step 6 of R58 at boundary f: weight commits due at f or before are applied (R233). -/
def Dev.weightStep (d : Dev) (k f : Nat) : Dev :=
  let d := d.weightMark k (max f ((d.isl k).marked.getD f))
  let x := d.isl k
  match (x.weightDue.filter fun w => w.1 ≤ f).getLast? with
  | some (g, _) =>
    let left := x.weightDue.filter fun w => f < w.1
    ((d.setIsl k { x with weightDue := left, weightF := some g }).flag (F.ISL_WEIGHT_STATUS_APPLIED k)).put
      (F.ISL_WEIGHT_STATUS_PENDING k) (b2n (!left.isEmpty || x.weightAt.isSome))
  | none => d

/-- The steps of R58 as island k reaches boundary f, ending with ISL_n.FRAME_NO becoming f. -/
def Dev.boundary (d : Dev) (k f : Nat) : Dev :=
  -- step 2, for panels that have stopped
  let d := d.deadClose k f
  let swap := if (d.isl k).commits.any (fun c => c.kind == 2 && c.f == f) then (d.pat.next.find? fun e => e.1 == f).map (·.2) else none
  -- step 3
  let d := match swap with | some b => (d.installIsl k f b).clockMove k | none => d
  let broken := match swap with | some (some b) => b.broken.contains k | _ => false
  let d := if broken then d.hwStop else d
  -- step 6
  let d := d.weightStep k f
  -- step 7
  let masked := (d.isl k).commits.any fun c => c.kind == 0 && c.f == f && c.flag
  let d := if swap.isSome || masked then d.discardRunAhead k f else d
  -- step 9
  let d := d.setFrameNo k f
  let d := (d.sealDue k f).redClose k f
  let d := match (d.isl k).weightF with
    | some g => if g ≤ f && (d.isl k).weightAt.isNone && (d.isl k).weightDue.isEmpty then d.flag (F.ISL_WEIGHT_STATUS_OTHER_FREE k) else d
    | none => d
  let d := d.updIsl k fun x =>
    { x with
      commits := x.commits.filter fun c => f ≤ c.f
      released := x.released.filter fun r => x.nextFill.1 < r.1 || (x.nextFill.1 == r.1 && x.nextFill.2 ≤ r.2.1)
      phase := x.phase.filter fun e => f ≤ e.1 || x.units.any fun u => u.frame == e.1 }
  (d.occPrune k f).relHolds k

/-- The boundary that ISL_n.FRAME_NO may reach: the lowest PNL_nn.FRAME of the island's live panels, or without one the newest
frame marker (R159). -/
def Dev.frameGoal (d : Dev) (k : Nat) : Nat :=
  match (d.livePanels k).map d.pFrame with
  | [] => (d.isl k).marked.getD (d.islFrame k)
  | f :: fs => fs.foldl min f

/-- Reaches boundaries one after another, at most as many as given. -/
def Dev.frameSteps (d : Dev) (k : Nat) : Nat → Dev
  | 0 => d
  | n + 1 => if d.islFrame k < d.frameGoal k then (d.boundary k (d.islFrame k + 1)).frameSteps k n else d

/-- ISL_n.FRAME_NO follows the panels (R159): every boundary up to it is reached. -/
def Dev.frameMoved (d : Dev) (k : Nat) : Dev := d.frameSteps k (d.frameGoal k - d.islFrame k)

/-- Verdicts in the island's queue: those to be handled and those held for a panel (R203). -/
def Dev.verdictsQueued (d : Dev) (k : Nat) : Nat :=
  let x := d.isl k
  (x.verdicts ++ x.heldV.map (·.2)).eraseDups.length

def Dev.showQueued (d : Dev) (k : Nat) : Dev := d.put (F.ISL_VERDICT_STATUS_QUEUED k) (d.verdictsQueued k)

/-- The panel issues nothing more (R163): its blocks are marked as a whole in every close from now on, DUMPs that it issued belong to its
next close, its RETRACTs end unserved, and it no longer holds units, slots, drains or the island's frame. -/
def Dev.panelStop (d : Dev) (p st : Nat) : Dev :=
  let k := p / 8
  let x := d.panel p
  let f := match x.closing with | some f => f | none => (d.runEnd p (max (d.pFrame p) (d.pStart p))).2
  let start := d.pStart p
  let d := (d.put (F.PNL_STATUS_STATE p) st).put (F.PNL_STATUS_RETR_QUEUE p) 0
  let d := (d.put (F.PNL_STATUS_DRAIN_PEND p) 0).put (F.PNL_STATUS_SWAP_PEND p) 0
  let d := d.bump (F.PNL_RETR_CNT_UNSERVED p) x.retracts.length
  let d := d.setPanel p { x with retracts := [], svc := none, closing := none, port := x.port ++ [.fix f] }
  let d := d.updIsl k fun i => { i with dead := i.dead ++ [(p % 8, d.pFrame p, start)], heldV := i.heldV.filter fun h => h.1 != p % 8 }
  let d := d.forL ((d.isl k).tabs.filter fun t => start < t.close) fun d t =>
    d.occAdd k (.block t.start (max (d.pFrame p) t.start) (p % 8) 0 (some t.close))
  let d := if x.closing.isSome then d.deadClose k f else d
  ((((((d.showQueued k).redSettle p start f).portFlush p 8).frameMoved k).clockMove k).relHolds k).stopSeal k

/-- PANEL_FAULT (R163). -/
def Dev.panelFault (d : Dev) (p code : Nat) : Dev :=
  let pc := d.get (F.PNL_PC_PC p)
  let d := (d.put (F.PNL_STATUS_FAULT_CODE p) code).flag (F.PNL_EVENTS_FAULT p)
  (d.event (F.PNL_EVENTS_FAULT p) p [p, code, pc]).panelStop p pFault

end Sys2Proof.Machine
end

