-- ==== Sys2Proof/Machine/Queue.lean ====
section
/-! DEFINITION. The queues of egress as every part of the device sees them (R250, R252, R257, R488): which unit may enter its queue,
which one a full queue holds at its crossing, and what that holds back. -/
namespace Sys2Proof.Machine

def Dev.updEgr (d : Dev) (f : EgrSt → EgrSt) : Dev := { d with egr := f d.egr }

/-- The number of the dump at f (R247). -/
def Dev.dumpSeq (d : Dev) (f : Nat) : Option Nat := (d.egr.numbers.find? fun n => n.1 == f).map (·.2)

/-- The queue's units in the staging store. -/
def Dev.queue (d : Dev) (q : Nat) : List EgrUnit := Tab.get [] d.egr.queues q
def Dev.setQueue (d : Dev) (q : Nat) (l : List EgrUnit) : Dev := d.updEgr fun e => { e with queues := Tab.set [] e.queues q l }

/-- A unit may enter its queue: its close is known and its dump has its number (R238, R247). -/
def Dev.unitReady (d : Dev) (u : EgrUnit) : Bool :=
  !u.drop && (2 < u.kind && u.kind ≠ 4 || (match u.f with | some f => (d.dumpSeq f).isSome | none => false))

/-- A queue field under the configuration that a unit is sent under (R257). -/
def Dev.qcfg (d : Dev) (u : EgrUnit) (f : RF) : Nat := d.cfg u.cfg f

/-- The unit fits in the free part of its queue's share (R250). -/
def Dev.unitFits (d : Dev) (u : EgrUnit) : Bool :=
  sumN ((d.queue u.queue).map (·.room)) + u.room ≤ d.qcfg u (F.EGR_QUEUE_BUF_KIB u.queue) * 1024

/-- A window of the failover pair covers a unit: dumps in (L, H], beams of frames L to H − 1 (R488). -/
def Dev.inWindow (d : Dev) (u : EgrUnit) : Bool :=
  (List.range 2).any fun w =>
    d.is (F.FO_WIN_LO_VALID w) &&
      (let l := d.get (F.FO_WIN_LO_L w)
       let h := d.get (F.FO_WIN_HI_H w)
       match u.f with
       | some f => decide (l < f) && decide (f ≤ h)
       | none => decide (l ≤ u.cfg) && decide (u.cfg < h))

/-- The unit is suppressed by failover (R488): a relayed unit never is. -/
def Dev.suppressed (d : Dev) (u : EgrUnit) : Bool :=
  d.cfg u.cfg F.FO_CFG_EN == 1 && u.kind != 5 && d.qcfg u (F.EGR_QUEUE_DEST u.queue) == 1
    && bitOf (d.cfg u.cfg F.FO_CFG_GROUPS) (d.qcfg u (F.EGR_QUEUE_GROUP u.queue)) && !d.inWindow u

/-- A unit that is ready and waits at its crossing for room in a queue of policy HOLD (R252). -/
def Dev.unitHeld (d : Dev) (u : EgrUnit) : Bool :=
  d.unitReady u && !d.suppressed u && d.qcfg u (F.EGR_QUEUE_POLICY u.queue) == 0
    && (d.qcfg u (F.EGR_QUEUE_DEST u.queue) == 1 || d.qcfg u (F.EGR_QUEUE_DEST u.queue) == 2) && !d.unitFits u

/-- A unit of src waits for a full queue of policy HOLD, so the crossing does not move (R252). -/
def Dev.egrBlocked (d : Dev) (src : Nat) : Bool := d.egr.wait.any fun u => u.src == src && d.unitHeld u

/-- A plane of panel p that came by the crossing from src waits there for room (R252). -/
def Dev.planeHeld (d : Dev) (src p : Nat) : Bool := d.egr.wait.any fun u => u.src == src && u.panel == p && u.kind ≤ 1 && d.unitHeld u

/-- Records in ring j of island k that its core has not consumed (R140). A STAT_RD that is 2^31 or more behind STAT_WR, modulo 2^32, counts as
ahead of it (DESIGN CHOICE 110). -/
def Dev.statUsed (d : Dev) (k j : Nat) : Nat :=
  let used := (d.get (F.ISL_STAT_WR_COUNT k j) + 2 ^ 32 - d.get (F.ISL_STAT_RD_COUNT k j)) % 2 ^ 32
  if 2 ^ 31 ≤ used then 0 else used

end Sys2Proof.Machine
end

