-- ==== Sys2Proof/Machine/Verdict.lean ====
section
/-! DEFINITION. Flag verdicts (chapter 08): the checks of a post (R200, R201), their handling panel by panel (R203, R207),
and the posting of RETRACT requests (R203, R209). -/
namespace Sys2Proof.Machine

/-- Codes of the verdict counters (R215). -/
def vAccepted : Nat := 0
def vRejected : Nat := 1
def vStale : Nat := 2
def vDuplicate : Nat := 3

/-- The frame of a verdict word: the one with the given low bits near ISL_n.FRAME_NO, which may be negative (R200). -/
def Dev.verdictFrame (d : Dev) (k lsb : Nat) : Int :=
  let lo : Int := (d.islFrame k : Int) - 32768
  lo + ((lsb : Int) - lo) % 65536

/-- The checks of R201 on a granule of frame n. -/
def Dev.verdictCheck (d : Dev) (k u g : Nat) (n : Int) : Dev :=
  let nn := n.toNat
  let first := d.chFirst nn k
  let count := d.chCount nn k
  if !(u < d.cfg nn F.ING_CT_CFG_STREAMS && first / 16 ≤ g && 16 * g < first + count) then
    (d.bump (F.ISL_VERDICT_CNT_COUNT k vRejected) 1).flag (F.ISL_VERDICT_EVENTS_REJECTED k)
  else if n < 0 || nn + d.icfg k nn (F.ISL_VERDICT_CFG_HORIZON k) < d.islFrame k || (d.isl k).sealedFrame nn then
    let d := (d.bump (F.ISL_VERDICT_CNT_COUNT k vStale) 1).flag (F.ISL_VERDICT_EVENTS_STALE k)
    d.event (F.ISL_VERDICT_EVENTS_STALE k) k [u, g, ofInt 64 n]
  else
    let gr : Granule := ⟨nn, u, g⟩
    if (d.isl k).occ.any fun i => match i with | .granule g' _ _ => g' == gr | _ => false then
      d.bump (F.ISL_VERDICT_CNT_COUNT k vDuplicate) 1
    else
      let d := d.bump (F.ISL_VERDICT_CNT_COUNT k vAccepted) 1
      if 256 ≤ d.verdictsQueued k then
        let mask := d.granuleMask k gr
        (d.occAdd k (.granule gr mask (mask.map fun m => (m, cOverflow)))).flag (F.ISL_VERDICT_EVENTS_OVERFLOW k)
      else
        let d := d.occAdd k (.granule gr [] [])
        (d.updIsl k fun x => { x with verdicts := x.verdicts ++ [gr] }).showQueued k

/-- VERDICT_POST (R200, R201): a whole-width write of `v` to ISL_k.VERDICT_POST. -/
def Dev.verdictPost (d : Dev) (k v : Nat) : Dev :=
  d.verdictCheck k (bitsOf v 44 32) (bitsOf v 23 16) (d.verdictFrame k (bitsOf v 15 0))

/-- RETRACT_POST (R203): a RETRACT is queued on panel p, or the granule is contaminated with QUEUE_FULL. -/
def Dev.retractPost (d : Dev) (p : Nat) (gr : Granule) : Dev :=
  let x := d.panel p
  if 16 ≤ x.retracts.length then d.occOut (p / 8) gr (p % 8) cQueueFull
  else (d.setPanel p { x with retracts := x.retracts ++ [(gr, x.cyc)] }).put (F.PNL_STATUS_RETR_QUEUE p) (x.retracts.length + 1)

/-- Whether the integration that held a granule's frame can take no correction in panel p (R203, R209). -/
def Dev.afterClose (d : Dev) (p : Nat) (gr : Granule) : Bool :=
  gr.frame < d.pStart p || d.windowEnd p gr.frame < (d.runEnd p gr.frame).1

/-- A verdict is handled in panel m of the granule's mask (R203, R207). -/
def Dev.verdictPanel (d : Dev) (k : Nat) (gr : Granule) (m : Nat) : Dev :=
  let p := 8 * k + m
  if d.icfg k gr.frame (F.ISL_VERDICT_CFG_RETRACT_EN k) = 0 then d.occOut k gr m cNoReserve
  else if d.pMode p ≠ 1 then d.occOut k gr m cMode
  else if d.afterClose p gr then d.occOut k gr m cAfterClose
  else if d.pFrame p < (d.runEnd p gr.frame).1 then d.updIsl k fun x => { x with heldV := x.heldV ++ [(m, gr)] }
  else d.retractPost p gr

/-- The oldest waiting post of island k's cores enters the verdict unit (R311). -/
def Dev.takePost (d : Dev) (k : Nat) : Dev :=
  match Tab.get [] d.posts k with
  | [] => d
  | e :: rest => ({ d with posts := Tab.set [] d.posts k rest }).verdictPost k e.2

/-- The verdict unit of island k handles its oldest accepted verdict (R203). -/
def Dev.verdictTake (d : Dev) (k : Nat) : Dev :=
  match (d.isl k).verdicts with
  | [] => d
  | gr :: rest =>
    let d := d.updIsl k fun x => { x with verdicts := rest }
    let mask := d.granuleMask k gr
    ((d.setMask k gr mask).forL mask fun d m => d.verdictPanel k gr m).showQueued k

/-- VERDICT_HANDLE (R203, R311): a waiting post of the island's cores is checked, then the oldest accepted verdict is handled
(DESIGN CHOICE 112). -/
def Dev.verdictHandle (d : Dev) (k : Nat) : Dev := (d.takePost k).verdictTake k

/-- Verdicts held for panel p are posted as PNL_nn.FRAME reaches the end of their run (R203, R209). -/
def Dev.postHeld (d : Dev) (p : Nat) : Dev :=
  let k := p / 8
  let due := (d.isl k).heldV.filter fun h => h.1 == p % 8 && (d.runEnd p h.2.frame).1 ≤ d.pFrame p
  let d := d.updIsl k fun x => { x with heldV := x.heldV.filter fun h => !due.contains h }
  (d.forL due fun d h => if d.afterClose p h.2 then d.occOut k h.2 h.1 cAfterClose else d.retractPost p h.2).showQueued k

/-- A RETRACT of panel p ends unserved (R204). -/
def Dev.retractUnserved (d : Dev) (p : Nat) (gr : Granule) : Dev :=
  (d.occOut (p / 8) gr (p % 8) cLate).bump (F.PNL_RETR_CNT_UNSERVED p) 1

/-- RETRACT_DISCARD (R204): pending RETRACTs whose window has passed are discarded. -/
def Dev.retractExpire (d : Dev) (p : Nat) : Dev :=
  let x := d.panel p
  let gone := x.retracts.filter fun r => d.windowPassed p r.1.frame
  if gone.isEmpty then d
  else
    let left := x.retracts.filter fun r => !d.windowPassed p r.1.frame
    let d := (d.setPanel p { x with retracts := left }).put (F.PNL_STATUS_RETR_QUEUE p) left.length
    d.forL gone fun d r => d.retractUnserved p r.1

end Sys2Proof.Machine
end

