-- ==== Sys2Proof/Machine/Cells.lean ====
section
/-! DEFINITION. Cell arithmetic (R141, R145, R146, R170 to R176), operand fetches and masks (R144, R156), phase bins (R191 to
R193), slots and their capture (R149 to R151), and record layouts (R178). -/
namespace Sys2Proof.Machine

/-! ### Accumulators -/

/-- The limit of a native and of a compatibility accumulator (R170, R173). -/
def limNative : Int := 2147483647
def limCompat : Int := 524287

/-- Adds to an accumulator: the exact sum clamped to ±lim, and whether it was clamped (R170). -/
def accAdd (lim a b : Int) : Int × Bool :=
  let s := a + b
  if lim < s then (lim, true) else if s < -lim then (-lim, true) else (s, false)

/-- Adds a product to a word (R170). -/
def Cell.add (lim : Int) (c : Cell) (p : Int × Int) : Cell :=
  let r := accAdd lim c.re p.1
  let i := accAdd lim c.im p.2
  { re := r.1, im := i.1, sre := c.sre || r.2, sim := c.sim || i.2 }

/-- The sum of two words; a mark in either marks the sum (R171, R174). -/
def Cell.sum (a b : Cell) : Cell :=
  let m := b.sre || b.sim
  let c := a.add limNative (b.re, b.im)
  if m then { c with sre := true, sim := true } else c

/-- The sum of a slot's word and its promotion partner as the plane leaves (R174): each part keeps its own sticky bit. -/
def Cell.plus (a b : Cell) : Cell :=
  let c := a.add limNative (b.re, b.im)
  { c with sre := c.sre || b.sre, sim := c.sim || b.sim }

/-- Adds f q to word q of a plane for each position below n. -/
def planeAdd (lim : Int) (n : Nat) (t : Tab Cell) (f : Nat → Int × Int) : Tab Cell :=
  (List.range n).foldl (fun t q => if f q = (0, 0) then t else Tab.upd Cell.zero t q fun c => c.add lim (f q)) t

/-- Adds plane b to plane a word by word (R174). -/
def planeSum (a b : Tab Cell) : Tab Cell := b.foldl (fun t e => Tab.upd Cell.zero t e.1 fun c => c.sum e.2) a

/-- Marks every word of a plane of n words saturated (R175, R176). -/
def planeMark (n : Nat) (t : Tab Cell) : Tab Cell :=
  (List.range n).foldl (fun t q => Tab.upd Cell.zero t q fun c => { c with sre := true, sim := true }) t

/-- Words of a plane (R172). -/
def planeWords (gang : Nat) : Nat := if gang = 0 then 4096 else 1024

/-- The side of a plane. -/
def planeSide (gang : Nat) : Nat := if gang = 0 then 64 else 32

/-! ### Words as they leave the panel (R171, R172, R178) -/

/-- The saturation mark in both parts (R171). -/
def markWord : Nat := 0x8000000080000000

/-- A 64-bit word of two parts (R172). -/
def wordOf (re im : Int) : Nat := ofInt 32 re + 2 ^ 32 * ofInt 32 im

/-- A word with its mark (R171). -/
def Cell.word (c : Cell) : Nat := if c.sre || c.sim then markWord else wordOf c.re c.im

/-- The parts of a word, or none for the mark. -/
def wordParts (w : Nat) : Option (Int × Int) := if w = markWord then none else some (sext 32 w, sext 32 (w / 2 ^ 32))

/-- The sum of two record words; any sum that takes in a mark is marked. Gives also whether it clamped (R170, R180). -/
def wordSum (a b : Nat) : Nat × Bool :=
  match wordParts a, wordParts b with
  | some x, some y =>
    let r := accAdd limNative x.1 y.1
    let i := accAdd limNative x.2 y.2
    if r.2 || i.2 then (markWord, true) else (wordOf r.1 i.1, false)
  | _, _ => (markWord, false)

/-- The layout of a plane's record (R178). -/
def layoutOf (shape gang : Nat) : Nat := if gang = 0 then (if shape = 3 then 1 else 0) else (if shape = 3 then 3 else 2)

/-- Words and bytes of a record of a layout (R178). -/
def layoutWords (kind : Nat) : Nat := match kind with | 0 => 4096 | 1 => 4160 | 2 => 1024 | _ => 1056

/-- n of a layout. -/
def layoutSide (kind : Nat) : Nat := if kind ≤ 1 then 64 else 32

/-- The record words of a plane (R178): a folded plane is unfolded. -/
def recordWords (shape gang : Nat) (cells : Tab Cell) : Tab Nat :=
  let n := planeSide gang
  if shape = 3 then
    let main := cells.foldl (fun t (e : Nat × Cell) =>
      let w := if e.1 / n = e.1 % n then (if e.2.sre then markWord else wordOf e.2.re 0) else e.2.word
      Tab.set 0 t e.1 w) ([] : Tab Nat)
    cells.foldl (fun t (e : Nat × Cell) =>
      if e.1 / n = e.1 % n then Tab.set 0 t (n * n + e.1 / n) (if e.2.sim then markWord else wordOf e.2.im 0) else t) main
  else cells.foldl (fun t (e : Nat × Cell) => Tab.set 0 t e.1 e.2.word) []

/-! ### Operands (R102, R144, R145, R156) -/

/-- The lengths of the row and column vectors of a shape; none where the shape is not allowed (R145). -/
def vecLengths (shape gang : Nat) : Option (Nat × Nat) :=
  if gang = 0 then
    match shape with
    | 1 => some (128, 32)
    | 2 => some (32, 128)
    | _ => some (64, 64)
  else if shape = 1 || shape = 2 then none else some (32, 32)

/-- n samples from an Insole offset. -/
def Dev.fetchVec (d : Dev) (k off gang : Nat) (n : Nat) : List (Int × Int) :=
  (List.range n).map fun i => sampleParts gang (d.rdLE (insoleAddr k (off + i * (gang + 1))) (gang + 1))

/-- Whether a fetch stays inside the Insole (R144). -/
def inInsole (off gang n : Nat) : Bool := off + n * (gang + 1) ≤ insoleSize

/-- The samples of a vector that an operand mask passes (R156). -/
def maskVec (mode pos : Nat) (v : List (Int × Int)) : List (Int × Int) :=
  v.zipIdx.map fun e =>
    match mode with
    | 0 => e.1
    | 1 => if e.2 = pos then e.1 else (0, 0)
    | 2 => if e.2 = pos then (0, 0) else e.1
    | _ => (0, 0)

/-- Whether a mask keeps position i (R156, R208). -/
def maskKeeps (mode pos i : Nat) : Bool :=
  match mode with | 0 => true | 1 => i == pos | 2 => i != pos | _ => false

/-- x · conj(y) (R141). -/
def mulConj (x y : Int × Int) : Int × Int := (x.1 * y.1 + x.2 * y.2, x.2 * y.1 - x.1 * y.2)

/-- x · w (R216). -/
def mulPlain (x w : Int × Int) : Int × Int := (x.1 * w.1 - x.2 * w.2, x.1 * w.2 + x.2 * w.1)

/-- The product at plane position q for the operands of the row and column buses; a folded block takes each half from
its row bus (rp, rq) and its column bus (cp, cq) (R145, R146). -/
def productAt (shape gang : Nat) (rp rq cp cq : List (Int × Int)) (q : Nat) : Int × Int :=
  let n := planeSide gang
  let r := q / n
  let c := q % n
  let z : Int × Int := (0, 0)
  match shape with
  | 1 => mulConj (rp.getD (r + 64 * (c / 32)) z) (cp.getD (c % 32) z)
  | 2 => mulConj (rp.getD (r % 32) z) (cp.getD (c + 64 * (r / 32)) z)
  | 3 =>
    if c < r then mulConj (rp.getD r z) (cp.getD c z)
    else if r < c then mulConj (cq.getD c z) (rq.getD r z)
    else ((mulConj (rp.getD r z) (cp.getD r z)).1, (mulConj (rq.getD r z) (cq.getD r z)).1)
  | _ => mulConj (rp.getD r z) (cp.getD c z)

/-! ### Insole units and parity (R136, R205, R208, R236) -/

/-- Bytes that a fill unit occupies (R135). -/
def FillUnit.size (u : FillUnit) (b : Nat) : Nat := u.nc * u.nt * u.ns * b

/-- The granule of a byte of the Insole, by the unit that holds it (R135, R208). -/
def Dev.granuleAt (d : Dev) (k off : Nat) : Option Granule :=
  ((d.isl k).units.find? fun u => u.full && u.fu.dest ≤ off && off < u.fu.dest + u.fu.size (d.sampleBytes u.frame)).map fun u =>
    let i := (off - u.fu.dest) / d.sampleBytes u.frame
    let s := i % max 1 u.fu.ns
    let c := i / max 1 u.fu.ns / max 1 u.fu.nt
    ⟨u.frame, u.fu.s0 + s, (u.fu.c0 + c) / 16⟩

/-- Offsets of island k's Insole that fail parity from now on (R347): what a fetch finds. -/
def Dev.spoil (d : Dev) (k : Nat) (offs : List Nat) : Dev :=
  { d with insoleBad := (d.insoleBad ++ (offs.filter (· < insoleSize)).map fun o => insoleAddr k o).eraseDups }

/-- Offsets of the samples of a fetch that fail parity, where the mask keeps them. -/
def Dev.badIn (d : Dev) (k off gang n : Nat) (keeps : Nat → Bool) : List Nat :=
  ((List.range (n * (gang + 1))).filter fun i => keeps (i / (gang + 1)) && d.insoleBad.contains (insoleAddr k (off + i))).map (off + ·)

/-- INSOLE_PARITY_ERROR (R208): each byte found counts, and its granule is posted as a verdict with SOURCE 2. -/
def Dev.parityVerdicts (d : Dev) (k : Nat) (offs : List Nat) : Dev :=
  (d.parityCount offs.length).forL ((offs.filterMap fun o => d.granuleAt k o).eraseDups) fun d gr => d.verdictCheck k gr.u gr.g gr.frame

/-- Whether panel p has passed the interruptible point that follows FMARK E_p(n) (R205). The window of a frame of a closed
integration ended at its close or before. -/
def Dev.retentionOver (d : Dev) (p n : Nat) : Bool :=
  if n < d.pStart p then d.pStart p < d.pFrame p || (d.panel p).atMark != some (d.pFrame p) else d.windowPassed p n

/-- The Insole space of units that every live panel has released and retention no longer needs returns to the filler
(R136, R205, R236). -/
def Dev.purgeUnits (d : Dev) (k : Nat) : Dev :=
  let live := d.livePanels k
  let keep (u : UnitSt) : Bool :=
    !u.full || live.any (fun p => !u.relu.contains p) || live.any (fun p => d.pMode p == 1 && !d.retentionOver p u.frame)
  d.updIsl k fun x => { x with units := x.units.filter keep }

/-! ### Products that cross alignment groups (R42, R284) -/

/-- The alignment group of the sample that a byte of the Insole belongs to, by the unit that holds it. -/
def Dev.sampleGroup (d : Dev) (k off : Nat) : Option Nat :=
  match d.granuleAt k off with
  | none => none
  | some gr => ((d.mapped gr.frame).find? fun s => d.sigCt gr.frame s == gr.u).map (d.sigGroup gr.frame)

/-- The alignment groups of a vector's samples; none are looked up where the pattern has one group. -/
def Dev.vecGroups (d : Dev) (k off gang n : Nat) : List (Option Nat) :=
  if ((List.range 64).filter fun g => d.cfg (d.islFrame k) (F.ING_AG_CFG_MEMBERS g) != 0).length ≤ 1 then []
  else (List.range n).map fun i => d.sampleGroup k (off + i * (gang + 1))

/-- Whether two samples belong to different alignment groups. -/
def groupsDiffer (a b : Option Nat) : Bool :=
  match a, b with | some x, some y => x != y | _, _ => false

/-- The groups of the samples that an operand mask passes (R156). -/
def maskGroups (mode pos : Nat) (v : List (Option Nat)) : List (Option Nat) :=
  v.zipIdx.map fun e => if maskKeeps mode pos e.2 then e.1 else none

/-- Whether the product at plane position q crosses groups, for the groups of the operands as `productAt` takes them. -/
def crossesAt (shape gang : Nat) (rp rq cp cq : List (Option Nat)) (q : Nat) : Bool :=
  let n := planeSide gang
  let r := q / n
  let c := q % n
  match shape with
  | 1 => groupsDiffer (rp.getD (r + 64 * (c / 32)) none) (cp.getD (c % 32) none)
  | 2 => groupsDiffer (rp.getD (r % 32) none) (cp.getD (c + 64 * (r / 32)) none)
  | 3 => if c < r then groupsDiffer (rp.getD r none) (cp.getD c none) else groupsDiffer (cq.getD c none) (rq.getD r none)
  | _ => groupsDiffer (rp.getD r none) (cp.getD c none)

/-- The products of one operation with those that cross groups left free (R42). -/
def Dev.crossFree (d : Dev) (gang : Nat) (crosses : Nat → Bool) (prod : Nat → Int × Int) : Dev × (Nat → Int × Int) :=
  if (List.range (planeWords gang)).any crosses then
    (d.fresh, fun q => if crosses q then (Config.crossPart d.free (2 * q), Config.crossPart d.free (2 * q + 1)) else prod q)
  else (d, prod)

/-- Whether samples of two groups are among those that a beam sums, which is then undefined (R42). -/
def mixedGroups (l : List (Option Nat)) : Bool := l.any fun a => l.any (groupsDiffer a)

/-! ### Z configurations (R168, R284) -/

/-- The signals that the lag operations of the running programs have read. -/
def Dev.zSignals (d : Dev) : Nat := ((d.panels.map fun e => e.2.zsig).flatten).eraseDups.length

/-- A captured plane of lags; those of a configuration of more than 64 signals are undefined. -/
def Dev.lagCells (d : Dev) (p gang : Nat) (cells : Tab Cell) : Dev × Tab Cell :=
  if (d.panel p).zsig.isEmpty || d.zSignals ≤ 64 then (d, cells)
  else
    (d.fresh, (List.range (planeWords gang)).foldl (fun (t : Tab Cell) q =>
      Tab.set Cell.zero t q { re := Config.lagPart d.free (4 * q), im := Config.lagPart d.free (4 * q + 1),
                              sre := decide (Config.lagPart d.free (4 * q + 2) % 2 = 1), sim := decide (Config.lagPart d.free (4 * q + 3) % 2 = 1) }) [])

/-! ### Phase bins (R191 to R193) -/

/-- Reads every phase entry of frame n that the island has not read; an entry for another frame, or one that cannot be
read, is a miss (R193, R349). -/
def Dev.phaseLoad (d : Dev) (p n : Nat) : Dev :=
  let k := p / 8
  if (d.isl k).phase.any fun e => e.1 == n then d
  else
    let groups := ceilDiv (d.chCount n k) 16
    d.forN groups fun d g =>
      let a := d.icfg k n (F.ISL_PHASE_BASE_BASE k) * 32 + (n % 4 * groups + g) * 32
      let r := d.memRead a 32
      let d := d.memReport r (1 + k)
      let at6 := fun o => ofBytes ((r.bytes.drop o).take 6)
      if r.err || !r.ue.isEmpty || at6 0 ≠ n then
        let d := d.updIsl k fun x => { x with phase := x.phase ++ [(n, g, none)] }
        let d := (d.bump (F.ISL_PHASE_MISS_CNT_COUNT k) 1).flag (F.PNL_ACC_EVENTS_PHASE_MISS p)
        (d.event (F.PNL_ACC_EVENTS_PHASE_MISS p) p [k, n, g]).occGroup k n (d.chFirst n k / 16 + g) cPhaseMiss
      else d.updIsl k fun x => { x with phase := x.phase ++ [(n, g, some (at6 8, at6 16, at6 24))] }

/-- The phase bin of sample t (R192), in closed form. -/
def phaseBin (e : Nat × Nat × Nat) (nbins t : Nat) : Nat :=
  let phi : Int := (e.1 : Int) + (t : Int) * e.2.1 + sext 48 e.2.2 * ((t * (t - 1) / 2 : Nat) : Int)
  ofInt 48 phi * nbins / 2 ^ 48

/-- The slot that ACC or RETR on slot s names: in P mode offset by the phase bin of time index t of frame n, none where
the operation changes nothing (R191, R193). -/
def Dev.target (d : Dev) (p s n t : Nat) : Option Nat :=
  if d.get (F.PNL_CFG_PHASE p) = 0 then some s
  else
    let k := p / 8
    let g := bitsOf (d.get (F.PNL_A_VALUE p 10)) 7 0
    match (d.isl k).phase.find? fun e => e.1 == n && e.2.1 == g with
    | some (_, _, some e) =>
      let bin := phaseBin e (d.icfg k n (F.ISL_PHASE_CFG_NBINS k)) t
      let base := bitsOf (d.get (F.PNL_A_VALUE p 11)) 9 0
      if base ≤ bin && bin - base < d.icfg k n (F.ISL_PHASE_CFG_PW k) then some (s + (bin - base)) else none
    | _ => none

/-! ### Slots and capture (R149 to R151) -/

def PanelSt.slot (x : PanelSt) (s : Nat) : SlotSt := Tab.get SlotSt.init x.slots s
def Dev.setSlot (d : Dev) (p s : Nat) (v : SlotSt) : Dev := d.updPanel p fun x => { x with slots := Tab.set SlotSt.init x.slots s v }

/-- Whether a SPILL or DUMP of the slot is queued. -/
def PanelSt.slotQueued (x : PanelSt) (s : Nat) : Bool := x.port.any fun i => match i with | .queued op => op.slot == s | _ => false

/-- Planes in the two plane buffers, and operations in the queue of four (R151). -/
def PanelSt.buffered (x : PanelSt) : Nat := (x.port.filter fun i => match i with | .plane _ _ _ _ _ _ => true | _ => false).length
def PanelSt.queuedOps (x : PanelSt) : Nat := (x.port.filter fun i => match i with | .queued _ => true | _ => false).length

/-- Whether a promotion add of the slot is running (R174, R189). -/
def PanelSt.promoting (x : PanelSt) (s : Nat) : Bool := match x.promo with | some (t, _, _) => t == s | none => false

/-- PNL.SLOT_BOUND and SLOT_CLOSING follow the slots. -/
def Dev.showSlots (d : Dev) (p : Nat) : Dev :=
  let x := d.panel p
  let bound := sumN ((List.range 32).map fun s => if (x.slot s).bind.isSome then 2 ^ s else 0)
  let closing := sumN ((List.range 32).map fun s => if x.slotQueued s then 2 ^ s else 0)
  (d.put (F.PNL_SLOT_BOUND_BOUND p) bound).put (F.PNL_SLOT_CLOSING_CLOSING p) closing

/-- The limit of a panel's accumulators (R170, R173). -/
def Dev.accLim (d : Dev) (p : Nat) : Int := if d.is (F.PNL_CFG_ACC_FMT p) then limCompat else limNative

/-- The autocorrelations of a folded plane as they leave by DUMP: index and real part of each unmarked word (R194). -/
def autocorrs (n : Nat) (words : Tab Nat) : List (Nat × Int) :=
  (List.range n).filterMap (fun r => (wordParts (Tab.get 0 words (r * n + r))).map fun w => (r, w.1))
    ++ (List.range n).filterMap fun r => (wordParts (Tab.get 0 words (n * n + r))).map fun w => (n + r, w.1)

/-- A SPILL or DUMP captures its slot's plane, in the input format it was issued under, which leaves the slot free (R149, R150, R165,
R171). The item that the capture puts in a plane buffer, and the device with the slot freed. -/
def Dev.capture (d : Dev) (p : Nat) (op : PortOp) : Dev × PortItem :=
  let v := (d.panel p).slot op.slot
  let b := v.bind.getD { tag := op.tag, frame := op.frame, start := op.start, shape := 0, rowOff := 0, colOff := 0, weight := false,
                         loading := none, bad := false, bb := 0, conflict := false, partner := none, ops := 0, limitHit := false, allSat := false }
  let gang := op.gang
  let c := d.lagCells p gang (if b.allSat then planeMark (planeWords gang) v.plane else v.plane)
  let cells := c.2
  let d := c.1.setSlot p op.slot SlotSt.init
  let d := if cells.any fun e => e.2.sre || e.2.sim then d.bump (F.PNL_SAT_CNT_COUNT p) 1 else d
  let d := if b.conflict then d.occBlock p op.start op.tag else d
  (d, .plane op b.shape gang cells b.conflict b.partner)

/-- PORT_CAPTURE (R151): queued operations capture in order while a plane buffer is free and no promotion add of theirs
is running. -/
def Dev.portCapture (d : Dev) (p : Nat) : Nat → Dev
  | 0 => d
  | fuel + 1 =>
    let x := d.panel p
    match x.port.findIdx? (fun i => match i with | .queued _ => true | _ => false) with
    | none => d
    | some i =>
      match x.port[i]? with
      | some (.queued op) =>
        if 2 ≤ x.buffered || x.promoting op.slot then d
        else
          let c := d.capture p op
          let d := c.1.updPanel p fun y => { y with port := setAt y.port i c.2 }
          (d.showSlots p).portCapture p fuel
      | _ => d

/-- The close of the integration that began at `start`, where it stands behind a plane in the port: a plane that leaves after its close
point knows it (R182, R194). -/
def PanelSt.closeOf (x : PanelSt) (start : Nat) : Option Nat :=
  x.port.findSome? fun i => match i with
    | .mark f _ st => if st == start then some f else none
    | .fix f => some f
    | _ => none

/-- A plane leaves its buffer: the slot plus its promotion partner, in record layout (R174, R178, R194). -/
def Dev.planeLeaves (d : Dev) (p : Nat) (op : PortOp) (shape gang : Nat) (cells : Tab Cell) (partner : Option Nat) : Dev :=
  let x := d.panel p
  let cells := match partner with
    | none => cells
    | some b => cells.foldl (fun (t : Tab Cell) e => Tab.upd Cell.zero t e.1 fun c => c.plus e.2) (Tab.get [] x.planes b)
  let d := match partner with
    | none => d
    | some b => d.setPanel p { x with planes := Tab.erase x.planes b }
  let words := recordWords shape gang cells
  if op.dump then
    let d := d.sendEgr (p / 8) (.plane ⟨p, op.addr, layoutOf shape gang, words, op.start, none⟩)
    if shape = 3 && d.get (F.ISL_RED_CFG_SRC (p / 8)) = 3 then
      let vals := (autocorrs (planeSide gang) words).map fun e => (p, RedVal.mk (if e.2 < 0 then Config.redNegative e.2 % 2 ^ 48 else e.2.toNat) op.start op.tag e.1)
      let d := d.updIsl (p / 8) fun i => { i with redPend := i.redPend ++ vals }
      match x.closeOf op.start with
      | some f => d.redSettle p op.start f
      | none => d
    else d
  else d.sendMem (p / 8) (.plane p op.tag (64 * op.addr) (layoutOf shape gang) op.init words op.start op.frame)

/-- Whether a crossing out of the island still holds a plane of the panel, or a full queue holds one at its end, which keeps the next in
its buffer (R151, R252). -/
def Dev.crossingFull (d : Dev) (p : Nat) (dump : Bool) : Bool :=
  if dump then ((d.isl (p / 8)).toEgr.any fun i => match i with | .plane u => u.panel == p | _ => false) || d.planeHeld (p / 8) p
  else (d.isl (p / 8)).toMem.any fun i => match i with | .plane q _ _ _ _ _ _ _ => q == p | _ => false

/-- PLANE_BUFFER_FREE (R151): the oldest captured plane of panel p leaves, and a queued operation captures. -/
def Dev.planeBufferFree (d : Dev) (p : Nat) : Dev :=
  match (d.panel p).port with
  | .plane op shape gang cells _ partner :: rest =>
    if d.crossingFull p op.dump then d
    else
      let d := d.updPanel p fun x => { x with port := rest }
      (((d.planeLeaves p op shape gang cells partner).portFlush p 8).portCapture p 4).showSlots p
  | _ => d

/-- PROMOTE_ADD_COMPLETE (R174): the running promotion add of panel p ends, which frees the capture buffer. -/
def Dev.promoteAddComplete (d : Dev) (p : Nat) : Dev :=
  let x := d.panel p
  match x.promo with
  | none => d
  | some (_, b, cells) =>
    let d := d.setPanel p { x with promo := none, planes := Tab.upd [] x.planes b fun t => planeSum t cells }
    (d.portCapture p 4).showSlots p

end Sys2Proof.Machine
end

