-- ==== Sys2Proof/Machine/Beam.lean ====
section
/-! DEFINITION. Beamforming beyond the cells (chapter 09): weight planes (R231, R232), the weight commit (R233, R234), the island
beam summer (R221, R222) and requantization (R223). -/
namespace Sys2Proof.Machine

/-- The weight bank in force for beam frame fb, and whether its marker has not reached the island (R232, R233). -/
def Dev.weightBank (d : Dev) (k fb : Nat) : Nat × Bool :=
  let x := d.isl k
  let early := match x.marked with | none => true | some m => decide (m < fb)
  (inForce 0 x.banks (if early then x.marked.getD 0 else fb), early)

/-- WEIGHT_COMMIT_POST (R233): a whole-width write of `v` to ISL_k.WEIGHT_COMMIT. -/
def Dev.weightCommitPost (d : Dev) (k v : Nat) : Dev :=
  let f := bitsOf v 47 0
  let bank := bitsOf v 48 48
  let d := (d.put (F.ISL_WEIGHT_COMMIT_AT_FRAME k) f).put (F.ISL_WEIGHT_COMMIT_BANK k) bank
  if d.get (F.ISL_MARK_HEAD_FRAME k) < f then
    let d := if (d.isl k).weightAt.isSome then d.flag (F.ISL_WEIGHT_STATUS_REPLACED k) else d
    let d := d.updIsl k fun x => { x with weightAt := some (f, bank) }
    (d.flag (F.ISL_WEIGHT_STATUS_PENDING k)).put (F.ISL_WEIGHT_STATUS_OTHER_FREE k) 0
  else d.flag (F.ISL_WEIGHT_STATUS_LATE k)

/-- LOADW_COMPLETE (R217, R231, R349): the last weight of the plane that slot s of panel p loads has arrived. -/
def Dev.loadwComplete (d : Dev) (p s : Nat) : Dev :=
  let k := p / 8
  let v := (d.panel p).slot s
  match v.bind with
  | none => d
  | some b =>
    match b.loading with
    | none => d
    | some addr =>
      let gang := d.pGang p
      let n := planeWords gang
      if d.memBusy addr (64 + 2 * n) then d else
      let r := d.memRead addr (64 + 2 * n)
      let hdr := r.bytes.take 64
      let w := r.bytes.drop 64
      let h := d.memRead addr 64
      let blind := h.err || !h.ue.isEmpty
      let d := d.memReport r (1 + k)
      let free := d.free
      let d := if blind then { d with free := free + 2 } else d
      let bb := (if blind then Config.unreadHeader free else hdr.getD 4 0) % 32
      let ok := !r.err && r.ue.isEmpty && crc32c (hdr.take 60 ++ w) == ofBytes (hdr.drop 60)
        && (hdr.getD 5 0) % 2 == gang && !(gang == 0 && 16 ≤ bb)
      let b' : Bind := { b with rowOff := (if blind then Config.unreadHeader (free + 1) else ofBytes (hdr.take 4)) % 2 ^ 26, bb := bb, loading := none, bad := !ok }
      let cells := if ok then (List.range n).foldl (fun (t : Tab Cell) q =>
        Tab.set Cell.zero t q { re := sext 8 (w.getD (2 * q) 0), im := sext 8 (w.getD (2 * q + 1) 0), sre := false, sim := false }) [] else []
      let d := d.setSlot p s { bind := some b', plane := cells }
      if ok then d.put (F.ISL_BEAM_LAST_EPOCH_WEPOCH k) (ofBytes ((hdr.drop 6).take 2))
      else
        let d := (d.flag (F.ISL_BEAM_EVENTS_WEIGHT_BAD k)).bump (F.ISL_BEAM_CNT_COUNT k 3) 1
        d.event (F.ISL_BEAM_EVENTS_WEIGHT_BAD k) k [p, s, addr]

/-- Rounds a beam part and clamps it; gives also whether it clipped (R223). -/
def requant (v : Nat) (b : Int) : Int × Bool :=
  let q := if v = 0 then b else (b + (2 ^ (v - 1) : Nat)) / ((2 ^ v : Nat) : Int)
  if 127 < q then (127, true) else if q < -127 then (-127, true) else (q, false)

/-- Beam number of column c in beam block bb (R224). -/
def beamNumber (gang bb c : Nat) : Nat := bb * planeSide gang + c

/-- A voltage sample of a beam that a tap of the capture engine names is sent to it, on the crossing to the memory island (R29, R316). -/
def Dev.capBeam (d : Dev) (k beam n ch t : Nat) (bad : Bool) (re im : Nat) : Dev :=
  if d.cfg n F.CAP_CFG_EN = 1 && d.cfg n F.CAP_CFG_KIND = 1 &&
      (List.range 4096).any (fun i => d.cfg n (F.CAP_TAP_EN i) == 1 && d.cfg n (F.CAP_TAP_INDEX i) == beam && d.cfg n (F.CAP_TAP_CHANNEL i) == ch) then
    (d.sendMem k (.beam k beam n ch t bad re im)).memFlush k 1
  else d

/-- How island k lost frame n: none, or 0 skipped, 1 cut short, 2 passed (R133). -/
def Dev.lostFrame (d : Dev) (k n : Nat) : Option Nat := ((d.isl k).withdrawn.find? fun w => w.1 == n).map (·.2)

/-- BEAM_REQUANTIZE (R223, R225): a complete vector becomes 8+8 samples on their way to egress and capture. A frame that
the island skipped produces none. -/
def Dev.beamComplete (d : Dev) (k : Nat) (e : Emission) : Dev :=
  let d := d.bump (F.ISL_BEAM_CNT_COUNT k 0) 1
  if d.lostFrame k e.fb = some 0 then d
  else
    let gang := d.cfg e.fb F.ING_CT_CFG_FMT
    let v := d.icfg k e.fb (F.ISL_BEAM_TAB_VSHIFT k e.bb)
    let out := (List.range (planeSide gang)).map fun c =>
      let s := Tab.get (0, 0) e.sums c
      (requant v s.1, requant v s.2)
    let clips := (out.filter fun o => o.1.2 || o.2.2).length
    let d := if clips = 0 then d else (d.flag (F.ISL_BEAM_EVENTS_CLIP k)).bump (F.ISL_BEAM_CNT_COUNT k 2) clips
    let bad := e.bad || d.lostFrame k e.fb == some 1
    let samples := out.map fun o => if bad then (0, 0) else (ofInt 8 o.1.1, ofInt 8 o.2.1)
    let d := d.sendEgr k (.beam k e.bb e.fb e.ch e.t bad samples)
    d.forL samples.zipIdx fun d s =>
      d.capBeam k (beamNumber gang e.bb s.2) e.fb (d.chFirst e.fb k + e.ch) e.t bad s.1.1 s.1.2

/-- Adds two vectors of column sums. -/
def sumsAdd (a b : Tab (Int × Int)) : Tab (Int × Int) :=
  b.foldl (fun t e => Tab.upd (0, 0) t e.1 fun x => (x.1 + e.2.1, x.2 + e.2.2)) a

/-- The sum of two vectors in a staging entry, exact where 32 bits hold each part; the spec states no result beyond (R221), nor for a beam
of two alignment groups (R42). -/
def stagedSum (mixed : Bool) (a b : Tab (Int × Int)) : Tab (Int × Int) :=
  let part (v : Int) : Int := if !mixed && -2147483648 ≤ v && v ≤ 2147483647 then v else sext 32 (ofInt 32 (Config.stageSum v))
  (sumsAdd a b).foldl (fun (t : Tab (Int × Int)) e => Tab.set (0, 0) t e.1 (part e.2.1, part e.2.2)) []

/-- Whether two emissions have equal keys (R220). -/
def Emission.sameKey (a b : Emission) : Bool := a.bb == b.bb && a.fb == b.fb && a.ch == b.ch && a.t == b.t

/-- BEAM_STAGING_EVICT (R222): the incomplete vector of an entry is completed with BAD. -/
def Dev.beamEvict (d : Dev) (k : Nat) (e : Emission) : Dev :=
  let d := (d.beamComplete k { e with bad := true }).bump (F.ISL_BEAM_CNT_COUNT k 1) 1
  (d.flag (F.ISL_BEAM_EVENTS_EVICT k)).event (F.ISL_BEAM_EVENTS_EVICT k) k [k, e.bb, e.fb, e.ch, e.t]

/-- BEAM_EMISSION (R221, R222): the oldest emission of island k enters its beam summer. -/
def Dev.beamEmission (d : Dev) (k : Nat) : Dev :=
  match (d.isl k).emissions with
  | [] => d
  | e :: rest =>
    let d := d.updIsl k fun x => { x with emissions := rest }
    let parts := d.icfg k e.fb (F.ISL_BEAM_TAB_PARTS_M1 k e.bb) + 1
    if parts = 1 then d.beamComplete k e
    else
      let i := 32 * (e.t % 32) + e.bb
      let old := Tab.get none (d.isl k).staging i
      let d := match old with
        | some s => if s.em.sameKey e then d else d.beamEvict k s.em
        | none => d
      let cur : Staging := match old with
        | some s =>
          if s.em.sameKey e then
            let grp := (s.em.grp ++ e.grp).eraseDups
            ⟨{ e with bad := s.em.bad || e.bad, grp := grp, sums := stagedSum (mixedGroups grp) s.em.sums e.sums }, s.parts + 1⟩
          else ⟨e, 1⟩
        | none => ⟨e, 1⟩
      if parts ≤ cur.parts then
        (d.updIsl k fun x => { x with staging := Tab.erase x.staging i }).beamComplete k cur.em
      else d.updIsl k fun x => { x with staging := Tab.set none x.staging i (some cur) }

/-- Incomplete vectors of frames before f are completed with BAD (R235). -/
def Dev.beamFlush (d : Dev) (k f : Nat) : Dev :=
  let gone := (d.isl k).staging.filterMap fun e => match e.2 with | some s => if s.em.fb < f then some (e.1, s.em) else none | none => none
  d.forL gone fun d g => (d.updIsl k fun x => { x with staging := Tab.erase x.staging g.1 }).beamEvict k g.2

end Sys2Proof.Machine
end

