-- ==== Sys2Proof/Machine/Panel.lean ====
section
/-! DEFINITION. The panel sequencer (R153 to R166): the word at the program counter, waits and holds, services, and the
control syllables. A control command issues the word's control syllable; the array command of the same word follows. -/
namespace Sys2Proof.Machine

/-! ### The word at PC -/

def Dev.pA (d : Dev) (p a : Nat) : Nat := d.get (F.PNL_A_VALUE p a)
def Dev.setA (d : Dev) (p a v : Nat) : Dev := d.put (F.PNL_A_VALUE p a) v

/-- The control and array syllables of the next word (R153). -/
def Dev.ctlWord (d : Dev) (p : Nat) : Nat := d.get (F.PNL_UCODE_CONTROL p (d.get (F.PNL_PC_PC p))) * 2 ^ 32
def Dev.arrWord (d : Dev) (p : Nat) : Nat := d.get (F.PNL_UCODE_ARRAY p (d.get (F.PNL_PC_PC p)))

def Dev.cop (d : Dev) (p : Nat) : Nat := bitsOf (d.ctlWord p) 63 58
def Dev.aop (d : Dev) (p : Nat) : Nat := bitsOf (d.arrWord p) 31 28

/-- The COPs of R154. -/
def copKnown (c : Nat) : Bool := c ≤ 5 || (8 ≤ c && c ≤ 0x0D) || (0x10 ≤ c && c ≤ 0x17)

/-- Whether the next word is a delay slot, or a word of a repeat body (R157). -/
def PanelSt.inDelay (x : PanelSt) : Bool := match x.br with | some (n, _) => n ≤ 2 | none => false
def Dev.inBody (d : Dev) (p : Nat) : Bool :=
  match (d.panel p).rep with | some (first, _, _) => decide (first ≤ d.get (F.PNL_PC_PC p)) | none => false

/-- A word of a place where its control syllable is not allowed (R157). -/
def Dev.misplaced (d : Dev) (p cop : Nat) : Bool :=
  ((d.panel p).inDelay && 5 < cop) || (d.inBody p && 3 < cop)

/-- The panel's slot limit (R148). -/
def Dev.slotLimit (d : Dev) (p : Nat) : Nat := d.get (F.PNL_CFG_SLOTS p)

/-! ### Services due (R160) -/

/-- Whether the island has received a commit of a kind at f. -/
def Dev.hasCommit (d : Dev) (k kind f : Nat) : Bool := (d.isl k).commits.any fun c => c.kind == kind && c.f == f

/-- The service that the sequencer takes before it issues another word: 0 none, 1 RETRACT, 2 DRAIN, 3 SWAP (R160). -/
def Dev.serviceDue (d : Dev) (p : Nat) : Nat :=
  let x := d.panel p
  if x.svc.isSome || x.ctrl || x.inDelay || d.inBody p then 0
  else match x.atMark with
    | some f =>
      if 0 < x.markRetr && !x.retracts.isEmpty then 1
      else if d.hasCommit (p / 8) 1 f && x.doneDrain != some f then 2
      else if d.hasCommit (p / 8) 2 f && x.doneSwap != some f then 3
      else 0
    | none => if !x.took && !x.retracts.isEmpty then 1 else 0

/-- Whether the panel can issue: it is live and its island's array clock is not about to move under a program that has
already been swapped (R280). -/
def Dev.canIssue (d : Dev) (p : Nat) : Bool :=
  d.pLive p && !((d.isl (p / 8)).clockDue && d.swapDone p)

/-! ### Waiting and issuing (R158, R164) -/

/-- One more cycle of the panel: the array clock has come to its divider (R280). -/
def Dev.tick (d : Dev) (p : Nat) : Dev := (d.put (F.ISL_CLK_CHANGING (p / 8)) 0).updPanel p fun x => { x with cyc := x.cyc + 1 }

/-- The word at PC waits a cycle; `slot` says that it is held under slot ownership, whose cycles count against the SLOT_WAIT that the
hold began under, at least 256 (R164, R166). The point that follows FMARK is over once
its services are taken; each cycle of the wait is an interruptible point of its own (R158, R160). -/
def Dev.wordWait (d : Dev) (p : Nat) (slot : Bool) : Dev :=
  let d := (d.bump (F.PNL_HELD_CYCLES_COUNT p) 1).tick p
  let x := d.panel p
  let d := if x.svc.isNone && x.atMark.isSome then (d.updPanel p fun y => { y with atMark := none, markRetr := 0 }).retractExpire p else d
  let d := if x.svc.isSome then d else d.put (F.PNL_STATUS_STATE p) pHeld
  let limit := max 256 (d.get (F.PNL_SLOT_WAIT_LIMIT p))
  d.updPanel p fun y =>
    { y with took := false, hold := if slot then (match y.hold with | some (n, l) => some (n + 1, l) | none => some (1, limit)) else none }

/-- The word at PC issues: the interruptible point before it is over, and RETRACTs that it leaves behind out of their
window are discarded (R160, R204). -/
def Dev.wordIssue (d : Dev) (p : Nat) : Dev :=
  let x := d.panel p
  let d := d.setPanel p { x with ctrl := true, hold := none }
  if x.svc.isSome then d
  else
    let d := d.put (F.PNL_STATUS_STATE p) pRun
    let d := d.updPanel p fun y => { y with atMark := none, took := false, markRetr := 0 }
    if x.atMark.isSome then d.retractExpire p else d

/-- What a control syllable does: it waits, waits at a close point (R184), faults with a code, takes effect, or takes effect and stops the panel. -/
inductive Ctl where
  | wait (slot : Bool)
  | hold
  | fault (code : Nat)
  | done (d : Dev)
  | stop (d : Dev)

/-- The frame of the samples that RETR takes: that of the granule being retracted, if one is (R191, R206; DEDUCED 48). -/
def Dev.retrFrame (d : Dev) (p : Nat) : Nat :=
  match (d.panel p).svc with | some v => (match v.gran with | some g => g.frame | none => d.pFrame p) | none => d.pFrame p

/-- In P mode the phase entries of the frame that ACC or RETR takes are read, if they have not been (R191, R193; DEDUCED 42). -/
def Dev.phaseFor (d : Dev) (p : Nat) : Dev :=
  if d.get (F.PNL_CFG_PHASE p) ≠ 1 then d
  else match d.aop p with
    | 1 => d.phaseLoad p (d.pFrame p + (d.panel p).ti / 4096)
    | 2 => d.phaseLoad p (d.retrFrame p)
    | _ => d

/-- The slots that the array syllable names; in P mode those of the phase bin (R191). -/
def Dev.arraySlots (d : Dev) (p : Nat) : List Nat :=
  let w := d.arrWord p
  let s := bitsOf w 27 23
  let x := d.panel p
  match d.aop p with
  | 0 => []
  | 1 => (d.target p s (d.pFrame p + x.ti / 4096) (x.ti % 4096)).toList
  | 2 => (d.target p s (d.retrFrame p) x.ri).toList
  | 6 => [s, bitsOf w 21 17]
  | _ => [s]

/-- Whether the array syllable names a slot that is LOADING (R158). -/
def Dev.arrayLoading (d : Dev) (p : Nat) : Bool :=
  (d.arraySlots p).any fun s => match ((d.panel p).slot s).bind with | some b => b.loading.isSome | none => false

/-- The word waits for its array syllable: a LOADING slot, or a close point held (R158, R184). A reserved AOP waits for nothing. -/
def Dev.arrayWait (d : Dev) (p : Nat) : Option Dev :=
  if d.aop p = 0 || 6 < d.aop p then none
  else
    let d := d.phaseFor p
    if d.arrayLoading p then some (d.flag (F.PNL_EVENTS_LOAD_WAIT p))
    else if d.closeHeld p then some (d.flag F.MEM_SPILL_STATUS_HOLD)
    else none

/-- The program word at PC of panel p is uncorrectable (R351). -/
def Dev.progBad (d : Dev) (p : Nat) : Bool := d.onchipBad (0x40 + p) (8 * d.get (F.PNL_PC_PC p)) 8

/-- Issues the control syllable of the word at PC of panel p if it is the named one (R154). A service due comes first; a
reserved COP, a word that reads uncorrectable (R351) or a misplaced word faults; the word waits as R158 lays down. -/
def Dev.control (d : Dev) (p cop : Nat) (f : Dev → Ctl) : Dev :=
  if !d.canIssue p || d.serviceDue p ≠ 0 || (d.panel p).ctrl then d
  else if d.progBad p then ((d.onchipUe (0x40 + p) (R.PNL_UCODE p (d.get (F.PNL_PC_PC p))).addr).tick p).panelFault p 1
  else if !copKnown (d.cop p) then (d.tick p).panelFault p 1
  else if d.cop p ≠ cop then d
  else if d.misplaced p cop then (d.tick p).panelFault p 2
  else match d.arrayWait p with
    | some d => d.wordWait p false
    | none =>
      match f d with
      | .wait slot => d.wordWait p slot
      | .hold => (d.flag F.MEM_SPILL_STATUS_HOLD).wordWait p false
      | .fault code => (d.tick p).panelFault p code
      | .done d' => d'.wordIssue p
      | .stop d' => d'.tick p

/-! ### Advancing (R157, R161) -/

/-- The flags of PNL.STATUS and PNL.PC that follow the sequencer. -/
def Dev.showPc (d : Dev) (p pc : Nat) : Dev :=
  let d := d.put (F.PNL_PC_PC p) pc
  let x := d.panel p
  let left := match x.rep with | some (_, _, n) => n | none => 0
  let d := (d.put (F.PNL_PC_REPEAT_LEFT p) left).put (F.PNL_STATUS_IN_REPEAT p) (b2n x.rep.isSome)
  d.put (F.PNL_STATUS_IN_DELAY p) (b2n x.inDelay)

/-- The start of the integration that panel p closes at f, its close point passed or not (R182). -/
def Dev.closingStart (d : Dev) (p f : Nat) : Nat :=
  match (d.isl (p / 8)).closes.find? fun c => c.1 == p % 8 && c.2.2 == f with | some c => c.2.1 | none => d.pStart p

/-- A binding is released without delivery at f, and its block is contaminated in the dump that closes there (R161, R188). A weight plane
is no block and feeds no dump. -/
def Dev.releaseSlot (d : Dev) (p f s : Nat) (b : Bind) : Dev :=
  let d := if b.weight then d else d.occBlock p (if b.frame < f then d.closingStart p f else b.start) b.tag
  d.setSlot p s SlotSt.init

/-- Bindings of panel p that a test picks and for which no SPILL or DUMP is queued. -/
def Dev.loose (d : Dev) (p : Nat) (t : Bind → Bool) : List (Nat × Bind) :=
  let x := d.panel p
  x.slots.filterMap fun e => match e.2.bind with | some b => if t b && !x.slotQueued e.1 then some (e.1, b) else none | none => none

/-- The end of a SWAP routine at f: the close point if still due, what is bound is released, pending RETRACTs are
discarded, and the incoming program starts (R161, R182, R209, R235, R280). -/
def Dev.swapReturn (d : Dev) (p f : Nat) : Dev :=
  let k := p / 8
  let d := d.closePoint p
  let d := d.forL (d.loose p fun _ => true) fun d e => d.releaseSlot p f e.1 e.2
  let late := (d.panel p).retracts
  let d := d.forL late fun d r => d.retractUnserved p r.1
  let b := ((d.pat.next.find? fun e => e.1 == f).map (·.2)).getD none
  let d := (d.installPanel b p).startPanel p f
  let d := if (d.livePanels k).any (fun q => d.pMode q == 2 && (d.panel q).doneSwap != some f) then d else d.beamFlush k f
  ((d.showSlots p).clockMove k).stopSeal k

/-- The SVCRET of a routine (R161, R187, R188, R204). A drain releases products; weights, which serve voltage beams, stay. -/
def Dev.serviceReturn (d : Dev) (p : Nat) (s : Svc) : Dev :=
  if s.kind = 3 then d.swapReturn p s.at_
  else
    let d := match s.gran with
      | some gr => (d.occOut (p / 8) gr (p % 8) (if s.parity then cParity else 0)).bump (F.PNL_RETR_CNT_SERVED p) 1
      | none => d
    let d := if s.kind = 2 then
      d.forL (d.loose p fun b => !b.weight && decide (b.frame < s.at_)) fun d e =>
        let d := (d.releaseSlot p s.at_ e.1 e.2).flag (F.PNL_ACC_EVENTS_DRAIN_CLEAR p)
        d.event (F.PNL_ACC_EVENTS_DRAIN_CLEAR p) p [p, e.1]
      else d
    let d := d.updPanel p fun x => { x with svc := none, ret := false, ti := s.ti, ts := s.ts, hold := s.hold }
    ((d.put (F.PNL_STATUS_STATE p) pRun).showSlots p).showPc p s.pc

/-- The next word in sequence, in a repeat, or after delay slots (R154, R157). -/
def Dev.nextWord (d : Dev) (p pc : Nat) : Dev :=
  let x := d.panel p
  match x.rep with
  | some (first, len, left) =>
    if pc < first || pc + 1 < first + len then d.showPc p (pc + 1)
    else if 0 < left then (d.setPanel p { x with rep := some (first, len, left - 1) }).showPc p first
    else (d.setPanel p { x with rep := none }).showPc p ((first + len) % 4096)
  | none =>
    match x.br with
    | some (n, t) =>
      if 1 < n then (d.setPanel p { x with br := some (n - 1, t) }).showPc p ((pc + 1) % 4096)
      else (d.setPanel p { x with br := none }).showPc p (t.getD ((pc + 1) % 4096))
    | none => d.showPc p ((pc + 1) % 4096)

/-- The interruptible point that follows FMARK is reached: held verdicts of the run are posted, and the RETRACTs pending
in this cycle are the ones that the point takes (R160, R203). -/
def Dev.markPoint (d : Dev) (p : Nat) : Dev :=
  let d := d.postHeld p
  d.updPanel p fun x =>
    { x with atMark := some (d.pFrame p), markRetr := x.retracts.length, took := false, elig := x.cyc, marked := false }

/-- The word at PC is complete: the next one follows by repeat, delay slots, return or in sequence (R154, R157, R161). -/
def Dev.advance (d : Dev) (p : Nat) : Dev :=
  let d := d.tick p
  let x := d.panel p
  let pc := d.get (F.PNL_PC_PC p)
  let d := d.setPanel p { x with ctrl := false }
  let d := match x.svc with
    | some s => if x.ret then d.serviceReturn p s else d.nextWord p pc
    | none => d.nextWord p pc
  if x.marked then d.markPoint p else d

/-! ### Services (R161, R162, R204) -/

/-- Enters a routine at a vector word (R161). -/
def Dev.enterService (d : Dev) (p vector : Nat) (s : Svc) (a : List Nat) (since : Nat) : Dev :=
  let d := d.updPanel p fun x => { x with svc := some s, hold := none }
  let d := d.forL a.zipIdx fun d e => d.setA p (12 + e.2) e.1
  let off := (d.panel p).cyc + 1 - since
  let d := d.put (F.PNL_HOLDOFF_MAX_CYCLES p) (max (d.get (F.PNL_HOLDOFF_MAX_CYCLES p)) (min off (2 ^ 24 - 1)))
  ((d.put (F.PNL_STATUS_STATE p) pService).tick p).showPc p vector

/-- SERVICE_ENTRY (R160, R161, R204): panel p takes the service that is due. -/
def Dev.serviceEntry (d : Dev) (p : Nat) : Dev :=
  if !d.canIssue p then d
  else
    let x := d.panel p
    let pc := d.get (F.PNL_PC_PC p)
    match d.serviceDue p with
    | 1 =>
      match x.retracts with
      | [] => d
      | (gr, since) :: rest =>
        let served := !d.windowPassed p gr.frame
        let d := d.setPanel p { x with retracts := rest, taken := x.taken + 1, markRetr := x.markRetr - 1, took := x.atMark.isNone }
        let d := d.put (F.PNL_STATUS_RETR_QUEUE p) rest.length
        if served then
          d.enterService p 1 ⟨1, 0, some gr, false, pc, x.ti, x.ts, x.hold⟩ [gr.u, gr.g, gr.frame % 2 ^ 32, (x.taken + 1) % 2 ^ 32] since
        else (d.retractUnserved p gr).tick p
    | 2 =>
      let f := x.atMark.getD 0
      let d := d.setPanel p { x with doneDrain := some f }
      (d.showPend p).enterService p 2 ⟨2, f, none, false, pc, x.ti, x.ts, x.hold⟩ [f % 2 ^ 32, f / 2 ^ 32, 0, 0] x.elig
    | 3 =>
      let f := x.atMark.getD 0
      let d := d.setPanel p { x with doneSwap := some f }
      (d.showPend p).enterService p 3 ⟨3, f, none, false, pc, x.ti, x.ts, x.hold⟩ [f % 2 ^ 32, f / 2 ^ 32, 1, 0] x.elig
    | _ => d

/-! ### Control syllables (R154) -/

/-- SLOT, TAG, REG_A and REG_B of a control syllable. -/
def ctlSlot (w : Nat) : Nat := bitsOf w 57 53
def ctlTag (w : Nat) : Nat := bitsOf w 52 41
def ctlRegA (w : Nat) : Nat := bitsOf w 40 37
def ctlRegB (w : Nat) : Nat := bitsOf w 36 33

def Dev.pnlNop (d : Dev) (p : Nat) : Dev := d.control p 0x00 fun d => .done d

def Dev.seta (d : Dev) (p : Nat) : Dev :=
  d.control p 0x01 fun d => let w := d.ctlWord p; .done (d.setA p (bitsOf w 57 54) (bitsOf w 53 32))

def Dev.setah (d : Dev) (p : Nat) : Dev :=
  d.control p 0x02 fun d =>
    let w := d.ctlWord p
    let r := bitsOf w 57 54
    .done (d.setA p r (bitsOf w 41 32 * 2 ^ 22 + d.pA p r % 2 ^ 22))

def Dev.pnlAdda (d : Dev) (p : Nat) : Dev :=
  d.control p 0x03 fun d =>
    let w := d.ctlWord p
    let r := bitsOf w 57 54
    .done (d.setA p r (ofInt 32 ((d.pA p r : Int) + sext 22 (bitsOf w 53 32))))

def Dev.sett (d : Dev) (p : Nat) : Dev :=
  d.control p 0x04 fun d =>
    let w := d.ctlWord p
    .done (d.updPanel p fun x => { x with ti := bitsOf w 57 42, ts := d.pA p (bitsOf w 41 38) % 2 ^ 26 })

def Dev.setrp (d : Dev) (p : Nat) : Dev :=
  d.control p 0x05 fun d =>
    let w := d.ctlWord p
    .done (d.updPanel p fun x =>
      { x with prr := d.pA p (bitsOf w 57 54) % 2 ^ 26, prc := d.pA p (bitsOf w 53 50) % 2 ^ 26, ri := 0 })

/-- Settles an OPEN or LOADW of slot s (R148, R164): `mk` makes the binding. -/
def Dev.bindSlot (d : Dev) (p s : Nat) (mk : Bind) : Ctl :=
  if d.slotLimit p ≤ s then .fault 1
  else
    let x := d.panel p
    match (x.slot s).bind with
    | none => .done ((d.setSlot p s { bind := some mk, plane := [] }).showSlots p)
    | some _ => .wait (!x.slotQueued s)

/-- A fresh binding of panel p; one with an address to load from is LOADW's. -/
def Dev.newBind (d : Dev) (p tag shape rowOff colOff : Nat) (loading : Option Nat) : Bind :=
  { tag := tag, frame := d.pFrame p, start := d.pStart p, shape := shape, rowOff := rowOff, colOff := colOff, weight := loading.isSome, loading := loading,
    bad := false, bb := Config.openBlock p (d.panel p).cyc % 32, conflict := false, partner := none, ops := 0, limitHit := false, allSat := false }

def Dev.pnlOpen (d : Dev) (p : Nat) : Dev :=
  d.control p 0x08 fun d =>
    let w := d.ctlWord p
    let a := d.pA p (ctlRegA w)
    d.bindSlot p (ctlSlot w) (d.newBind p (ctlTag w) (bitsOf a 29 28) (a % 2 ^ 26) (d.pA p (ctlRegB w) % 2 ^ 26) none)

/-- Settles an operation that ends or promotes the binding of slot s with tag T (R164): it is held unless the slot is
bound to T with no SPILL or DUMP queued. -/
def Dev.ownSlot (d : Dev) (p s tag : Nat) (f : Bind → Ctl) : Ctl :=
  if d.slotLimit p ≤ s then .fault 1
  else
    let x := d.panel p
    match (x.slot s).bind with
    | some b => if b.tag = tag && !x.slotQueued s then f b else .wait true
    | none => .wait true

/-- SPILL or DUMP (R150, R151, R179): captured at once, queued, or waiting for the queue. -/
def Dev.portIssue (d : Dev) (p : Nat) (dump : Bool) : Ctl :=
  let w := d.ctlWord p
  let s := ctlSlot w
  d.ownSlot p s (ctlTag w) fun b =>
    let x := d.panel p
    let op : PortOp := ⟨dump, s, ctlTag w, d.pA p (ctlRegA w), !dump && b.frame == d.pStart p, d.pStart p, b.frame, d.pGang p⟩
    if 4 ≤ x.queuedOps then .wait false
    else .done (((d.setPanel p { x with port := x.port ++ [.queued op] }).portCapture p 4).showSlots p)

def Dev.pnlSpill (d : Dev) (p : Nat) : Dev := d.control p 0x09 fun d => d.portIssue p false
def Dev.pnlDump (d : Dev) (p : Nat) : Dev := d.control p 0x0A fun d => d.portIssue p true

/-- CLEAR (R150, R174): the slot and its promotion partner are discarded, an add into the partner still running with them. -/
def Dev.pnlClear (d : Dev) (p : Nat) : Dev :=
  d.control p 0x0B fun d =>
    let w := d.ctlWord p
    d.ownSlot p (ctlSlot w) (ctlTag w) fun b =>
      let d := match b.partner with
        | some q => d.updPanel p fun x =>
          { x with planes := Tab.erase x.planes q, promo := x.promo.filter fun v => !(v.1 == ctlSlot w && v.2.1 == q) }
        | none => d
      .done ((d.setSlot p (ctlSlot w) SlotSt.init).showSlots p)

/-- Whether promotion plane b is the partner of a live binding other than that of slot s (R175). -/
def PanelSt.partnered (x : PanelSt) (s b : Nat) : Bool :=
  x.slots.any fun e => e.1 != s && (match e.2.bind with | some v => v.partner == some b | none => false)

def Dev.pnlPromote (d : Dev) (p : Nat) : Dev :=
  d.control p 0x0C fun d =>
    let w := d.ctlWord p
    let s := ctlSlot w
    let q := bitsOf w 40 37
    if 12 ≤ q then .fault 1
    else d.ownSlot p s (ctlTag w) fun b =>
      let x := d.panel p
      if x.promo.isSome then .wait false
      else if x.partnered s q then
        let d := (d.setSlot p s { bind := some { b with allSat := true }, plane := (x.slot s).plane }).flag (F.PNL_ACC_EVENTS_PROMO_CONFLICT p)
        .done (d.event (F.PNL_ACC_EVENTS_PROMO_CONFLICT p) p [p, s, q])
      else
        let raw := (x.slot s).plane
        let cells := if b.allSat then planeMark (planeWords (d.pGang p)) raw else raw
        let d := if cells.any fun e => e.2.sre || e.2.sim then d.bump (F.PNL_SAT_CNT_COUNT p) 1 else d
        let d := d.setSlot p s { bind := some { b with partner := some q, ops := 0, limitHit := false, allSat := false }, plane := [] }
        .done (d.updPanel p fun x => { x with promo := some (s, q, cells) })

def Dev.pnlLoadw (d : Dev) (p : Nat) : Dev :=
  d.control p 0x0D fun d =>
    let w := d.ctlWord p
    let k := p / 8
    let fb := d.pFrame p + bitsOf (d.pA p 11) 14 12
    let bank := d.weightBank k fb
    let addr := 64 * (d.pA p (ctlRegA w) + bank.1 * d.icfg k fb (F.ISL_WEIGHT_CFG_BANK_STRIDE k))
    match d.bindSlot p (ctlSlot w) (d.newBind p (ctlTag w) 0 0 0 (some addr)) with
    | .done d' => .done (if bank.2 then d'.flag (F.ISL_BEAM_EVENTS_EARLY_LOAD k) else d')
    | other => other

def Dev.pnlBr (d : Dev) (p : Nat) : Dev :=
  d.control p 0x10 fun d => .done (d.updPanel p fun x => { x with br := some (3, some (bitsOf (d.ctlWord p) 43 32)) })

def Dev.bnz (d : Dev) (p : Nat) : Dev :=
  d.control p 0x11 fun d =>
    let w := d.ctlWord p
    let r := bitsOf w 57 54
    let v := ofInt 32 ((d.pA p r : Int) - 1)
    .done ((d.setA p r v).updPanel p fun x => { x with br := some (3, if v = 0 then none else some (bitsOf w 43 32)) })

def Dev.repeat_ (d : Dev) (p : Nat) : Dev :=
  d.control p 0x12 fun d =>
    let w := d.ctlWord p
    let pc := d.get (F.PNL_PC_PC p)
    let len := bitsOf w 47 44 + 1
    if 4095 < pc + len then .fault 2
    else .done (d.updPanel p fun x => { x with rep := some (pc + 1, len, bitsOf w 43 32) })

/-- The 48-bit frame near PNL_nn.FRAME whose low 32 bits are given (R154); none below 0. -/
def nearFrame (now low : Nat) : Option Nat :=
  let lo : Int := (now : Int) - 2 ^ 31
  let f := lo + ((low : Int) - lo) % 2 ^ 32
  if f < 0 || 2 ^ 48 ≤ f then none else some f.toNat

/-- The frame and unit that WAITU and RELU name. -/
def Dev.unitNamed (d : Dev) (p : Nat) : Option Nat × Nat :=
  let w := d.ctlWord p
  (nearFrame (d.pFrame p) (d.pA p (bitsOf w 57 54)), bitsOf w 46 32)

/-- Whether a fill unit of frame f is in the Insole (R136). A unit that a swap the island has still to make will discard
does not count (R58, R137). -/
def Dev.unitPresent (d : Dev) (k f u : Nat) : Bool :=
  let x := d.isl k
  x.units.any (fun e => e.frame == f && e.num == u && e.full) &&
    !(x.commits.any fun c => c.kind == 2 && c.f ≤ f && d.islFrame k < c.f)

def Dev.waitu (d : Dev) (p : Nat) : Dev :=
  d.control p 0x13 fun d =>
    match d.unitNamed p with
    | (some f, u) => if d.unitPresent (p / 8) f u then .done d else .wait false
    | (none, _) => .wait false

/-- RELU (R154, R236): the panel releases a unit; one that the filler has not begun is released once it is there. -/
def Dev.relu (d : Dev) (p : Nat) : Dev :=
  d.control p 0x14 fun d =>
    match d.unitNamed p with
    | (some f, u) =>
      let mark (e : UnitSt) : UnitSt := if e.frame = f && e.num = u && !e.relu.contains p then { e with relu := e.relu ++ [p] } else e
      let ahead := fun (x : IslSt) => x.nextFill.1 < f || (x.nextFill.1 == f && x.nextFill.2 ≤ u)
      .done ((d.updIsl (p / 8) fun x =>
        { x with units := x.units.map mark
                 released := if ahead x && !x.released.contains (f, u, p) then x.released ++ [(f, u, p)] else x.released }).purgeUnits (p / 8))
    | (none, _) => .done d

/-- FMARK (R159, R160, R182, R184, R193): the close point if one is still due, the wait for the frame marker, and
PNL_nn.FRAME becoming F. -/
def Dev.fmark (d : Dev) (p : Nat) : Dev :=
  d.control p 0x15 fun d =>
    let k := p / 8
    if d.closeHeld p then .hold
    else
      let d := d.closePoint p
      let f := d.pFrame p + 1
      match (d.isl k).marked with
      | none => .wait false
      | some m =>
        if m < f then .wait false
        else
          let d := if d.get (F.PNL_CFG_PHASE p) = 1 then d.phaseLoad p f else d
          let closes := d.closesAt p f
          let d := d.put (F.PNL_FRAME_FRAME p) f
          let d := d.updPanel p fun x => { x with closing := if closes then some f else none, marked := true }
          .done (d.frameMoved k)

def Dev.svcret (d : Dev) (p : Nat) : Dev :=
  d.control p 0x16 fun d =>
    match (d.panel p).svc with
    | none => .fault 3
    | some s =>
      if s.kind = 3 && d.closeHeld p then .hold
      else .done (d.updPanel p fun x => { x with ret := true })

/-- HALT (R154, R163): the panel stops in HALTED. The array syllable of its word does not issue (DESIGN CHOICE 109). -/
def Dev.pnlHalt (d : Dev) (p : Nat) : Dev :=
  d.control p 0x17 fun d => .stop ((d.flag (F.PNL_EVENTS_HALTED p)).panelStop p pHalted)

/-- The first frame of the integration that a dropped operation's block was due to feed (R165): a block that OPEN or LOADW would have bound
after FMARK F belongs to the integration that starts at F. -/
def Dev.droppedFeeds (d : Dev) (p : Nat) : Nat :=
  match (d.panel p).closing with
  | some f => if d.cop p = 0x08 || d.cop p = 0x0D then f else d.pStart p
  | none => d.pStart p

/-- SLOT_WAIT_EXPIRE (R164 to R166): the slot operation of panel p that has been held for SLOT_WAIT cycles is dropped; its word
issues with its control syllable taken as NOP. -/
def Dev.slotWaitExpire (d : Dev) (p : Nat) : Dev :=
  let x := d.panel p
  let due := match x.hold with | some (n, l) => decide (l ≤ n) | none => false
  if !d.canIssue p || x.ctrl || !due then d
  else
    let w := d.ctlWord p
    let s := ctlSlot w
    let v := x.slot s
    let d := (d.flag (F.PNL_EVENTS_SLOT_CONFLICT p)).bump (F.PNL_CONFLICT_CNT_COUNT p) 1
    let d := ((d.put (F.PNL_CONFLICT_INFO_OP p) (d.cop p)).put (F.PNL_CONFLICT_INFO_SLOT p) s).put (F.PNL_CONFLICT_INFO_TAG p) (ctlTag w)
    let owner := match v.bind with | some b => [b.tag] | none => []
    let d := d.event (F.PNL_EVENTS_SLOT_CONFLICT p) p ([p, s, d.cop p, ctlTag w] ++ owner)
    let d := match v.bind with
      | some b => d.setSlot p s { v with bind := some { b with conflict := true } }
      | none => d
    (d.occBlock p (d.droppedFeeds p) (ctlTag w)).wordIssue p

end Sys2Proof.Machine
end

