-- ==== Sys2Proof/Machine/Array.lean ====
section
/-! DEFINITION. The array syllables (R155): correlation and retraction (R141, R156), lags (R167), and voltage and detected
beams (R216 to R228). -/
namespace Sys2Proof.Machine

/-- What an array syllable does: it faults with a code, or takes effect. -/
inductive Arr where
  | fault (code : Nat)
  | done (d : Dev)

/-- Issues the array syllable of the word at PC of panel p, whose control syllable has taken effect, if it is the named
one (R155): a reserved AOP faults, a LOADING slot or a held close point makes it wait, and the panel's close point is
reached by its first operation (R158, R182, R184). INC advances TI, or RI for RETR. -/
def Dev.array (d : Dev) (p aop : Nat) (f : Dev → Arr) : Dev :=
  if !d.canIssue p || !(d.panel p).ctrl then d
  else if 6 < d.aop p then (d.tick p).panelFault p 1
  else if d.aop p ≠ aop then d
  else
    let inc := fun (e : Dev) => if bitOf (d.arrWord p) 22 then e.updPanel p fun x =>
      if aop = 2 then { x with ri := (x.ri + 1) % 65536 } else { x with ti := (x.ti + 1) % 65536 } else e
    if aop = 0 then (inc d).advance p
    else
      let d := d.phaseFor p
      if d.arrayLoading p then (d.flag (F.PNL_EVENTS_LOAD_WAIT p)).wordWait p false
      else if d.closeHeld p then (d.flag F.MEM_SPILL_STATUS_HOLD).wordWait p false
      else match f (d.closePoint p) with
        | .fault code => (d.tick p).panelFault p code
        | .done d => (inc (d.bump (F.PNL_ARRAY_CYCLES_COUNT p) 1)).advance p

/-- The slot and the second slot that the array syllable names. -/
def Dev.arrSlot (d : Dev) (p : Nat) : Nat := bitsOf (d.arrWord p) 27 23

/-- An array operation on a free slot changes no slot, and is counted (R164). -/
def Dev.unbound (d : Dev) (p : Nat) : Dev := (d.bump (F.PNL_UNBOUND_CNT_COUNT p) 1).flag (F.PNL_EVENTS_UNBOUND p)

def Dev.arrayNop (d : Dev) (p : Nat) : Dev := d.array p 0 fun d => .done d

/-- Adds or subtracts the products of one cycle in slot s, counting the operations of a compatibility slot (R170, R176). -/
def Dev.correlate (d : Dev) (p s : Nat) (b : Bind) (sign : Int) (prod : Nat → Int × Int) : Dev :=
  let gang := d.pGang p
  let v := (d.panel p).slot s
  let plane := planeAdd (d.accLim p) (planeWords gang) v.plane fun q => (sign * (prod q).1, sign * (prod q).2)
  let ops := b.ops + 1
  let past := d.is (F.PNL_CFG_ACC_FMT p) && decide (4096 < ops)
  let d := d.setSlot p s { bind := some { b with ops := ops, allSat := b.allSat || past, limitHit := b.limitHit || past }, plane := plane }
  if past then
    let d := d.flag (F.PNL_ACC_EVENTS_PROMO_LIMIT p)
    if b.limitHit then d else d.event (F.PNL_ACC_EVENTS_PROMO_LIMIT p) p [p, s]
  else d

/-- An upset of Insole bytes: each reads as given from now on and fails parity (R347). What an ACC found bad before the upset reads
differently from what it read (R208). -/
def Dev.upset (d : Dev) (k : Nat) (bad : List (Nat × Byte)) : Dev :=
  let bad := bad.filter fun b => b.1 < insoleSize
  let offs := bad.map (·.1)
  let d := if bad.isEmpty then d else d.forL (panelsOf k) fun d p => d.updPanel p fun x => { x with seen := x.seen.filter fun e => !offs.contains e.2.2.2 }
  (bad.foldl (fun d b => d.wrByte (insoleAddr k b.1) b.2) d).spoil k offs

/-- In P mode a missing phase entry is shown on the panel (R193). -/
def Dev.phaseMiss (d : Dev) (p n : Nat) : Dev :=
  let g := bitsOf (d.pA p 10) 7 0
  if d.get (F.PNL_CFG_PHASE p) = 1 && !((d.isl (p / 8)).phase.any fun e => e.1 == n && e.2.1 == g && e.2.2.isSome) then
    d.flag (F.PNL_ACC_EVENTS_PHASE_MISS p)
  else d

/-- Bytes with bad parity that an ACC of frame n on the operands at ro and co has fetched: panel p accumulated them as they stand, and
their granules are posted (R208). -/
def Dev.paritySeen (d : Dev) (p n ro co : Nat) (offs : List Nat) : Dev :=
  (if offs.isEmpty then d else d.updPanel p fun y => { y with seen := y.seen ++ offs.map fun o => (n, ro, co, o) }).parityVerdicts (p / 8) offs

/-- Bytes with bad parity that a RETR of frame n has fetched: one that the panel's ACC on the same operands did not find so, as it
stands now, reads differently, and marks the granule (R206, R208). -/
def Dev.parityAgain (d : Dev) (p n ro co : Nat) (kept : List Nat) : Dev :=
  let d := d.parityCount kept.length
  if kept.any fun o => !(d.panel p).seen.contains (n, ro, co, o) then
    d.updPanel p fun y => { y with svc := y.svc.map fun v => { v with parity := true } }
  else d

/-- ACC (R141, R144 to R146, R170, R191, R208). `bad` are Insole bytes upset before its fetch. A shape that R145 does not allow faults here
and in RETR, not at OPEN (DESIGN CHOICE 109). -/
def Dev.acc (d : Dev) (p : Nat) (bad : List (Nat × Byte)) : Dev :=
  d.array p 1 fun d =>
    let k := p / 8
    let x := d.panel p
    let s := d.arrSlot p
    if d.slotLimit p ≤ s then .fault 1
    else
      let n := d.pFrame p + x.ti / 4096
      let d := if d.get (F.PNL_CFG_PHASE p) = 1 then d.phaseMiss p n else d
      match d.target p s n (x.ti % 4096) with
      | none => .done d
      | some s =>
        if d.slotLimit p ≤ s then .fault 1
        else match (x.slot s).bind with
          | none => .done (d.unbound p)
          | some b =>
            let gang := d.pGang p
            match vecLengths b.shape gang with
            | none => .fault 5
            | some (nr, nc) =>
              let ro := b.rowOff + x.ti * x.ts
              let co := b.colOff + x.ti * x.ts
              if !inInsole ro gang nr || !inInsole co gang nc then .fault 4
              else
                let d := d.upset k bad
                let rows := d.fetchVec k ro gang nr
                let cols := d.fetchVec k co gang nc
                let hit := d.badIn k ro gang nr (fun _ => true) ++ d.badIn k co gang nc fun _ => true
                let rg := d.vecGroups k ro gang nr
                let cg := d.vecGroups k co gang nc
                let c := if b.shape = 3 then d.crossFree gang (crossesAt 3 gang rg cg rg cg) (productAt 3 gang rows cols rows cols)
                  else d.crossFree gang (crossesAt b.shape gang rg [] cg []) (productAt b.shape gang rows [] cols [])
                .done ((c.1.correlate p s b 1 c.2).paritySeen p n ro co hit)

/-- RETR (R144, R156, R191, R206, R208). `bad` are Insole bytes upset before its fetch. A byte with bad parity that the
panel's ACC did not find so reads differently from what the ACC read. -/
def Dev.retr (d : Dev) (p : Nat) (bad : List (Nat × Byte)) : Dev :=
  d.array p 2 fun d =>
    let k := p / 8
    let x := d.panel p
    let w := d.arrWord p
    let s := d.arrSlot p
    if d.slotLimit p ≤ s then .fault 1
    else
      let n := d.retrFrame p
      let d := if d.get (F.PNL_CFG_PHASE p) = 1 then d.phaseMiss p n else d
      match d.target p s n x.ri with
      | none => .done d
      | some s =>
        if d.slotLimit p ≤ s then .fault 1
        else match (x.slot s).bind with
          | none => .done (d.unbound p)
          | some b =>
            let gang := d.pGang p
            match vecLengths b.shape gang with
            | none => .fault 5
            | some (nr, nc) =>
              let ro := x.prr + x.ri * x.ts
              let co := x.prc + x.ri * x.ts
              if !inInsole ro gang nr || !inInsole co gang nc then .fault 4
              else
                let d := d.upset k bad
                let rows := d.fetchVec k ro gang nr
                let cols := d.fetchVec k co gang nc
                let half := bitsOf w 21 21
                let rm := bitsOf w 20 19
                let rpos := bitsOf w 18 12
                let cm := bitsOf w 11 10
                let cpos := bitsOf w 9 3
                let rg := d.vecGroups k ro gang nr
                let cg := d.vecGroups k co gang nc
                let c :=
                  if b.shape = 3 then
                    if half = 0 then
                      d.crossFree gang (crossesAt 3 gang (maskGroups rm rpos rg) [] (maskGroups cm cpos rg) [])
                        (productAt 3 gang (maskVec rm rpos rows) [] (maskVec cm cpos rows) [])
                    else
                      d.crossFree gang (crossesAt 3 gang [] (maskGroups rm rpos cg) [] (maskGroups cm cpos cg))
                        (productAt 3 gang [] (maskVec rm rpos cols) [] (maskVec cm cpos cols))
                  else
                    d.crossFree gang (crossesAt b.shape gang (maskGroups rm rpos rg) [] (maskGroups cm cpos cg) [])
                      (productAt b.shape gang (maskVec rm rpos rows) [] (maskVec cm cpos cols) [])
                let kept :=
                  if b.shape = 3 then
                    let keeps (i : Nat) : Bool := maskKeeps rm rpos i || maskKeeps cm cpos i
                    if half = 0 then d.badIn k ro gang nr keeps else d.badIn k co gang nc keeps
                  else d.badIn k ro gang nr (maskKeeps rm rpos) ++ d.badIn k co gang nc (maskKeeps cm cpos)
                .done ((c.1.correlate p s b (-1) c.2).parityAgain p n ro co kept)

/-- Shifts a lag chain: position 0 takes a sample, every other position that of its predecessor (R167). -/
def chainShift {α : Type} [DecidableEq α] (zero : α) (n : Nat) (t : Tab α) (y : α) : Tab α :=
  t.foldl (fun u e => if e.1 + 1 < n then Tab.set zero u (e.1 + 1) e.2 else u) (Tab.set zero [] 0 y)

/-- The lag operation of ZACC and ZSHIFT (R144, R167): clear, shift, and accumulate every lag; a row or column sample beyond the Insole
stops the panel. A lag whose chain sample belongs to another group than the row sample is undefined (R42). -/
def Dev.lag (d : Dev) (p : Nat) (clr shift mac : Bool) : Arr :=
  let k := p / 8
  let x := d.panel p
  let s := d.arrSlot p
  if d.slotLimit p ≤ s then .fault 1
  else match (x.slot s).bind with
    | none => .done (d.unbound p)
    | some b =>
      let gang := d.pGang p
      let n := planeWords gang
      let ro := b.rowOff + x.ti * x.ts
      let co := b.colOff + x.ti * x.ts
      if !inInsole ro gang 1 || !inInsole co gang 1 then .fault 4
      else
        let ch := if clr then [] else x.chain
        let ch := if shift then chainShift (0, 0) n ch ((d.fetchVec k co gang 1).getD 0 (0, 0)) else ch
        let grp := if clr then [] else x.chainGrp
        let grp := if shift then chainShift none n grp ((d.vecGroups k co gang 1).getD 0 none) else grp
        let hit := (if shift then d.badIn k co gang 1 fun _ => true else []) ++ (if mac then d.badIn k ro gang 1 fun _ => true else [])
        let used := ((if mac then [ro] else []) ++ if shift then [co] else []).filterMap fun o => (d.granuleAt k o).map (·.u)
        let d := d.setPanel p { x with chain := ch, chainGrp := grp, zsig := (x.zsig ++ used).eraseDups }
        let d := if mac then
          let v := (d.fetchVec k ro gang 1).getD 0 (0, 0)
          let rg := (d.vecGroups k ro gang 1).getD 0 none
          let c := d.crossFree gang (fun q => groupsDiffer rg (Tab.get none grp q)) fun q => mulConj v (Tab.get (0, 0) ch q)
          c.1.correlate p s b 1 c.2
          else d
        .done (d.parityVerdicts k hit)

def Dev.zacc (d : Dev) (p : Nat) : Dev := d.array p 3 fun d => let w := d.arrWord p; d.lag p (bitOf w 20) (bitOf w 21) true
def Dev.zshift (d : Dev) (p : Nat) : Dev := d.array p 4 fun d => d.lag p (bitOf (d.arrWord p) 20) true false

/-- The column sums of a beam operation (R147, R216). -/
def columnSums (n : Nat) (x : List (Int × Int)) (plane : Tab Cell) : Tab (Int × Int) :=
  (List.range n).foldl (fun t c =>
    let s := x.zipIdx.foldl (fun (a : Int × Int) e =>
      let w := Tab.get Cell.zero plane (e.2 * n + c)
      let m := mulPlain e.1 (sext 8 (ofInt 8 w.re), sext 8 (ofInt 8 w.im))
      (a.1 + m.1, a.2 + m.2)) (0, 0)
    Tab.set (0, 0) t c s) []

/-- A part of BA: the exact sum where its 32 bits hold it; the spec states no result beyond (R218, R219), nor for a beam of two
alignment groups (R42). -/
def baPart (mixed : Bool) (free : Nat) (v : Int) : Int :=
  if !mixed && -2147483648 ≤ v && v ≤ 2147483647 then v else sext 32 (ofInt 32 (Config.beamSum free))

/-- The detected power of a part pair (R226). -/
def detected (shift : Nat) (v : Int × Int) : Nat :=
  let s := (v.1 * v.1 + v.2 * v.2).toNat
  if shift = 0 then s else (s + 2 ^ (shift - 1)) / 2 ^ shift

/-- EMIT advances A11, whether or not an emission leaves (R164, R218). -/
def Dev.emitStep (d : Dev) (p : Nat) : Dev :=
  if bitOf (d.pA p 9) 1 then d.setA p 11 ((d.pA p 11 + 1) % 2 ^ 32) else d

/-- BEAMV and BEAMD (R216 to R220, R226 to R228); `slot2` is the slot that takes detected power. -/
def Dev.beamOp (d : Dev) (p : Nat) (slot2 : Option Nat) : Arr :=
  let k := p / 8
  let x := d.panel p
  let s := d.arrSlot p
  if d.slotLimit p ≤ s || (match slot2 with | some t => decide (d.slotLimit p ≤ t) | none => false) then .fault 1
  else match (x.slot s).bind with
    | none => .done ((d.unbound p).emitStep p)
    | some b =>
      if (match slot2 with | some t => ((x.slot t).bind).isNone | none => false) then .done ((d.unbound p).emitStep p)
      else
        let gang := d.pGang p
        let n := planeSide gang
        let ro := b.rowOff + x.ti * x.ts
        if !inInsole ro gang n then .fault 4
        else
          let hit := d.badIn k ro gang n fun _ => true
          let sums := columnSums n (d.fetchVec k ro gang n) (x.slot s).plane
          let a9 := d.pA p 9
          let ch := d.pA p 10 % 4096
          let a11 := d.pA p 11
          let fb := d.pFrame p + bitsOf a11 14 12
          let start := bitOf a9 0
          let sum := if start then sums else sumsAdd x.ba sums
          let free := d.free
          let grp := ((if start then [] else x.baGrp) ++ d.vecGroups k ro gang n).eraseDups
          let mixed := mixedGroups grp
          let ba := sum.foldl (fun (t : Tab (Int × Int)) e => Tab.set (0, 0) t e.1 (baPart mixed (free + 2 * e.1) e.2.1, baPart mixed (free + 2 * e.1 + 1) e.2.2)) []
          let bad := b.bad || (!start && x.baBad)
          let d := { d with free := free + 2 * n }.setPanel p { x with ba := ba, baBad := bad, baGrp := grp }
          let d := match slot2 with
            | none => d
            | some t =>
              let shift := d.icfg k fb (F.ISL_BEAM_TAB_DSHIFT k b.bb)
              let pw := (List.range n).map fun c => detected shift (Tab.get (0, 0) ba c)
              let d := if d.get (F.ISL_RED_CFG_SRC k) = 2 then
                d.forL pw.zipIdx fun d (e : Nat × Nat) => d.redOffer k (RedVal.mk (min e.1 (2 ^ 48 - 1)) fb (d.chFirst fb k + ch) (beamNumber gang b.bb e.2)) else d
              let v := (d.panel p).slot t
              let plane := pw.zipIdx.foldl (fun (u : Tab Cell) (e : Nat × Nat) =>
                Tab.upd Cell.zero u (n * (ch % n) + e.2) fun c => c.add limNative ((e.1 : Int), 1)) v.plane
              d.setSlot p t { v with plane := plane }
          let d := if bitOf a9 1 then
            d.updIsl k fun i => { i with emissions := i.emissions ++ [Emission.mk b.bb fb ch (a11 % 4096) bad grp ba] } else d
          .done ((d.emitStep p).parityVerdicts k hit)

def Dev.beamv (d : Dev) (p : Nat) : Dev := d.array p 5 fun d => d.beamOp p none
def Dev.beamd (d : Dev) (p : Nat) : Dev := d.array p 6 fun d => d.beamOp p (some (bitsOf (d.arrWord p) 21 17))

end Sys2Proof.Machine
end

