-- ==== Sys2Proof/Machine/AwlCore.lean ====
section
/-! DEFINITION. The Awl signal cores: registers (R291, R292), the word at PC and its faults (R293 to R296, R303), issue,
branches, loops and repeats (R300 to R302), exceptions and interrupts (R304 to R308), local I/O (R310), posts (R311) and the
queue of the transfer engine (R313). The commands of a word's syllables come in the order slot A, slot B, compute; each reads
the registers as they were before the word. -/
namespace Sys2Proof.Machine

/-! ### Registers -/

/-- Codes of AWL.STATUS.STATE. -/
def awlHalted : Nat := 0
def awlRunning : Nat := 1
def awlWaiting : Nat := 2
def awlFault : Nat := 3

/-- Numbers of the special registers (R291). -/
def spP (k : Nat) : Nat := k
def spB (k : Nat) : Nat := 8 + k
def spL (k : Nat) : Nat := 16 + k
def spLC (i : Nat) : Nat := 0x18 + 3 * i
def spLS (i : Nat) : Nat := 0x19 + 3 * i
def spLE (i : Nat) : Nat := 0x1A + 3 * i
def spRot : Nat := 0x1E
def spIdx : Nat := 0x1F
def spIx (a : Nat) : Nat := 0x20 + a
def spStat : Nat := 0x24
def spEstat : Nat := 0x25
def spEpc : Nat := 0x26
def spLink : Nat := 0x27
def spEcause : Nat := 0x28
def spEaddr : Nat := 0x29

/-- The bits of a special register (R291). -/
def specBits (i : Nat) : Nat :=
  if i < 8 then 24 else if i < 0x18 then 17
  else if i = 0x18 || i = 0x1B then 24 else if i < 0x1E then 13 else if i = 0x1E then 5
  else if i < 0x24 then 24 else if i = 0x24 || i = 0x25 then 24 else if i = 0x26 || i = 0x27 then 13
  else if i = 0x28 then 5 else 24

def Dev.awlState (d : Dev) (n : Nat) : Nat := d.get (F.AWL_STATUS_STATE n)
def Dev.setAwlState (d : Dev) (n st : Nat) : Dev := d.put (F.AWL_STATUS_STATE n) st
def Dev.awlPc (d : Dev) (n : Nat) : Nat := d.get (F.AWL_STATUS_PC n)
def Dev.setAwlPc (d : Dev) (n pc : Nat) : Dev := d.put (F.AWL_STATUS_PC n) pc

/-- A special register now, and as it was before the word in progress (R294). -/
def Dev.spec (d : Dev) (n i : Nat) : Nat := d.get (F.AWL_SPEC_VALUE n i)
def Dev.specOld (d : Dev) (n i : Nat) : Nat :=
  match (d.awl1 n).snap with
  | some t => bitsOf (Tab.get 0 t (R.AWL_SPEC n i).addr).toNat 23 0
  | none => d.spec n i

/-- Sets a special register; STATUS shows H and LV of STAT. -/
def Dev.setSpec (d : Dev) (n i v : Nat) : Dev :=
  let d := d.put (F.AWL_SPEC_VALUE n i) (v % 2 ^ specBits i)
  if i = spStat then
    let v := v % 2 ^ 14
    ((d.put (F.AWL_SPEC_VALUE n i) v).put (F.AWL_STATUS_H n) (bitsOf v 5 5)).put (F.AWL_STATUS_LV n) (bitsOf v 7 6)
  else d

/-- STAT, and one of its fields replaced. -/
def Dev.stat (d : Dev) (n : Nat) : Nat := d.spec n spStat
def Dev.setStatBits (d : Dev) (n hi lo v : Nat) : Dev :=
  d.setSpec n spStat (insertField (BitVec.ofNat 64 (d.stat n)) hi lo v).toNat
def Dev.loopLevels (d : Dev) (n : Nat) : Nat := bitsOf (d.stat n) 7 6
def Dev.handler (d : Dev) (n : Nat) : Bool := bitOf (d.stat n) 5

/-- The physical data register of logical register k under a rotation base (R292). -/
def xPhys (rot k : Nat) : Nat := if k < 8 then k else 8 + (k - 8 + rot) % 24

/-- Data register k before the word: its code, and its signed value. -/
def Dev.xOld (d : Dev) (n k : Nat) : Nat :=
  let f := F.AWL_XREG_VALUE n (xPhys (d.specOld n spRot) k)
  match (d.awl1 n).snap with
  | some t => bitsOf (Tab.get 0 t f.reg.addr).toNat 23 0
  | none => d.get f
def Dev.xSigned (d : Dev) (n k : Nat) : Int := sext 24 (d.xOld n k)

/-- Writes data register k, modulo 2^24. -/
def Dev.setX (d : Dev) (n k : Nat) (v : Int) : Dev := d.put (F.AWL_XREG_VALUE n (xPhys (d.specOld n spRot) k)) (ofInt 24 v)

/-- Accumulator a before the word. -/
def Dev.acOld (d : Dev) (n a : Nat) : Int :=
  match (d.awl1 n).snap with
  | some t => sext 56 (Tab.get 0 t (R.AWL_ACC n a).addr).toNat
  | none => sext 56 (d.rdReg (R.AWL_ACC n a)).toNat

/-- Writes an accumulator modulo 2^56; AWL.ACC shows it sign-extended. -/
def Dev.setAc (d : Dev) (n a : Nat) (x : Int) : Dev := d.wrReg (R.AWL_ACC n a) (BitVec.ofInt 64 (sext 56 (ofInt 56 x)))

/-- Writes an accumulator with saturation: one that clamps sets its OV (R298). -/
def Dev.setAcSat (d : Dev) (n a : Nat) (x : Int) : Dev :=
  let lo : Int := -(2 ^ 55)
  let hi : Int := 2 ^ 55 - 1
  let d := d.setAc n a (clampI lo hi x)
  if x < lo || hi < x then d.setStatBits n (10 + a) (10 + a) 1 else d

/-! ### Interrupts and points (R305, R308) -/

/-- The island and the number within it of core n. -/
def awlIsl (n : Nat) : Nat := n / 2
def awlJ (n : Nat) : Nat := n % 2

/-- IPEND of core n (R308). -/
def Dev.awlIpend (d : Dev) (n : Nat) : Nat :=
  let x := d.awl1 n
  x.ipend ||| b2n (x.level != 0 && decide (x.level ≤ d.statUsed (awlIsl n) (awlJ n)))

/-- An enabled source is pending. -/
def Dev.awlWakes (d : Dev) (n : Nat) : Bool := d.awlIpend n &&& bitsOf (d.stat n) 4 1 != 0

/-- An interrupt is to be taken at an interruptible point. -/
def Dev.awlIrqDue (d : Dev) (n : Nat) : Bool := d.awlWakes n && bitOf (d.stat n) 0 && !d.handler n

/-- The point before the word at PC is interruptible. -/
def AwlSt.point (x : AwlSt) : Bool := x.br.isNone && x.rep.isNone && x.snap.isNone

/-- A HALT request is honoured at an interruptible point (R305, R315). -/
def Dev.awlHaltSettle (d : Dev) (n : Nat) : Dev :=
  let x := d.awl1 n
  if x.halt && x.point && (d.awlState n = awlRunning || d.awlState n = awlWaiting) then
    ((d.setAwl n { x with halt := false }).setAwlState n awlHalted).flag (F.AWL_EVENTS_HALTED n)
  else d

/-- The core enters FAULT (R307). -/
def Dev.awlDouble (d : Dev) (n : Nat) : Dev :=
  (((d.updAwl n fun x => { x with fault := none, br := none, rep := none }).setAwlState n awlFault).flag (F.AWL_EVENTS_DOUBLE n)).event
    (F.AWL_EVENTS_DOUBLE n) n []

/-- An exception is taken (R306): STAT, EPC, ECAUSE and EADDR are set, no loop is active, and the core goes to the vector. -/
def Dev.awlEnter (d : Dev) (n cause eaddr : Nat) (deferred : Bool) : Dev :=
  let st := d.stat n
  let pc := d.awlPc n
  let d := ((d.setSpec n spEstat st).setSpec n spEpc pc).setSpec n spEcause (cause + 16 * b2n deferred)
  let d := d.setSpec n spEaddr eaddr
  let d := ((d.put (F.AWL_ECAUSE_CAUSE n) cause).put (F.AWL_ECAUSE_DEFERRED n) (b2n deferred)).put (F.AWL_EPC_EPC n) pc
  let d := d.put (F.AWL_EADDR_EADDR n) eaddr
  let d := d.setSpec n spStat ((BitVec.ofNat 64 st &&& ~~~(0x3C1 : Word)) ||| 0x20).toNat
  let d := ((d.setAwlPc n (8 * cause)).setAwlState n awlRunning).flag (F.AWL_EVENTS_EXCEPTION n)
  if cause = 1 || cause = 2 then d.event (F.AWL_EVENTS_EXCEPTION n) n [n, eaddr] else d

/-- AWL_EXCEPTION_ENTRY (R306 to R308): at an interruptible point the core takes a fault, else an interrupt that is due. -/
def Dev.awlExceptionEntry (d : Dev) (n : Nat) : Dev :=
  let x := d.awl1 n
  if d.awlState n ≠ awlRunning || !x.point then d
  else match x.fault with
    | some (cause, eaddr, deferred) =>
      if d.handler n then d.awlDouble n
      else ((d.setAwl n { x with fault := none }).awlEnter n cause eaddr deferred).awlHaltSettle n
    | none =>
      if d.awlIrqDue n then ((d.awlEnter n 7 (Config.awlEaddr d.free) false).fresh).awlHaltSettle n else d

/-- AWL_WAIT_WAKE (R308): in WAIT an enabled source has become pending; the interrupt is taken, or issue goes on. -/
def Dev.awlWaitWake (d : Dev) (n : Nat) : Dev :=
  if d.awlState n = awlWaiting && d.awlWakes n then
    let d := d.setAwlState n awlRunning
    if d.awlIrqDue n then (d.awlEnter n 7 (Config.awlEaddr d.free) false).fresh else d
  else d

/-! ### The word at PC -/

def wOp (w : Nat) : Nat := bitsOf w 63 58
def wF1 (w : Nat) : Nat := bitsOf w 57 53
def wF2 (w : Nat) : Nat := bitsOf w 52 48
def wF3 (w : Nat) : Nat := bitsOf w 47 43
def wAcd (w : Nat) : Nat := bitsOf w 42 41
def wAcs (w : Nat) : Nat := bitsOf w 44 43
def wM (w : Nat) : Bool := bitOf w 40
def wTarget (w : Nat) : Nat := bitsOf w 52 40
def wSpec (w : Nat) : Nat := bitsOf w 52 47
def wIo (w : Nat) : Nat := bitsOf w 52 43

/-- Move slot A (0) or B (1) of a word, and its fields (R295). -/
def wSlot (w s : Nat) : Nat := if s = 0 then bitsOf w 39 20 else bitsOf w 19 0
def sKind (m : Nat) : Nat := bitsOf m 19 17
def sX (m : Nat) : Nat := bitsOf m 16 12
def sPtr (m : Nat) : Nat := bitsOf m 11 9
def sCirc (m : Nat) : Bool := bitOf m 8
def sStep (m : Nat) : Int := sext 8 (bitsOf m 7 0)

/-- The OPs of R297. -/
def opKnown (op : Nat) : Bool := op ≤ 0x0D || (0x10 ≤ op && op ≤ 0x1E) || (0x20 ≤ op && op ≤ 0x32)

/-- The operations that R303 keeps out of delay slots. -/
def opFlow (op : Nat) : Bool := (0x20 ≤ op && op ≤ 0x2A) || op = 0x30 || op = 0x31 || op = 0x32

/-- Whether the word at PC stands at LE of an active loop. -/
def Dev.atLoopEnd (d : Dev) (n : Nat) : Bool :=
  (List.range (min 2 (d.loopLevels n))).any fun i => d.spec n (spLE i) == d.awlPc n

/-- The word is ILLEGAL (R291, R295, R297, R301). -/
def Dev.awlIllegal (d : Dev) (n w : Nat) : Bool :=
  let op := wOp w
  let a := sKind (wSlot w 0)
  let b := sKind (wSlot w 1)
  !opKnown op || 5 < a || 5 < b || ((a = 4 || a = 5) && (b = 4 || b = 5))
    || ((op = 0x1D || op = 0x1E) && 0x29 < wSpec w)
    || ((op = 0x27 || op = 0x28) && (2 ≤ d.loopLevels n || wTarget w ≤ d.awlPc n))

/-- The word stands where its operation is not allowed (R303). -/
def Dev.awlMisplaced (d : Dev) (n w : Nat) : Bool :=
  let op := wOp w
  let x := d.awl1 n
  (x.br.isSome && opFlow op) || (x.rep.isSome && (opFlow op || op = 0x2F))
    || (d.atLoopEnd n && ((opFlow op && op ≠ 0x32) || op = 0x2F || x.br.isSome))

/-- A move slot's access is out of data memory or misaligned (R295). -/
def Dev.slotAccess (d : Dev) (n m : Nat) : Bool :=
  let p := d.spec n (spP (sPtr m))
  sKind m ≠ 0 && (2 ^ 17 ≤ p || ((sKind m = 1 || sKind m = 4) && p % 2 = 1))

/-- What a load slot reads: the value it loads, and whether it met an uncorrectable byte. -/
def Dev.slotLoad (d : Dev) (n m : Nat) : Dev × Nat × Bool :=
  let off := 2 * d.spec n (spP (sPtr m))
  match sKind m with
  | 1 => let r := d.awlDataRead n off 4; (r.1, ofBytes (r.2.1.take 3), r.2.2)
  | 2 => let r := d.awlDataRead n off 2; (r.1, ofBytes r.2.1, r.2.2)
  | 3 => let r := d.awlDataRead n off 2; (r.1, ofInt 24 (sext 16 (ofBytes r.2.1)), r.2.2)
  | _ => (d, 0, false)

/-! ### Advancing (R300 to R302, R305) -/

/-- ROT steps back by one at the iteration end of a rotating level (R292). -/
def Dev.rotate (d : Dev) (n i : Nat) : Dev :=
  if bitOf (d.stat n) (8 + i) then d.setSpec n spRot ((d.spec n spRot + 23) % 24) else d

/-- The check of level i at the word at pc (R301): the next word, and whether the level ended. -/
def Dev.levelEnd (d : Dev) (n i pc : Nat) : Dev × Nat × Bool :=
  if d.spec n (spLE i) ≠ pc then (d, (pc + 1) % 8192, false)
  else
    let lc := d.spec n (spLC i)
    let d := d.rotate n i
    if 1 < lc then (d.setSpec n (spLC i) (lc - 1), d.spec n (spLS i), false)
    else ((d.setStatBits n 7 6 i).setStatBits n (8 + i) (8 + i) 0, (pc + 1) % 8192, true)

/-- The loop-end checks after the word at pc (R301). -/
def Dev.loopEnd (d : Dev) (n pc : Nat) : Dev × Nat :=
  match d.loopLevels n with
  | 0 => (d, (pc + 1) % 8192)
  | 1 => let r := d.levelEnd n 0 pc; (r.1, r.2.1)
  | _ =>
    let r := d.levelEnd n 1 pc
    if r.2.2 then let q := r.1.levelEnd n 0 pc; (q.1, q.2.1) else (r.1, r.2.1)

/-- A branch takes effect (R300): loops that do not contain the target end; RTE restores STAT and PC (R306). -/
def Dev.branchTake (d : Dev) (n : Nat) (g : AwlGo) : Dev :=
  match g with
  | .on => d
  | .rte => (d.setSpec n spStat (d.spec n spEstat)).setAwlPc n (d.spec n spEpc)
  | .goTo t =>
    let inside := fun (i : Nat) => decide (d.spec n (spLS i) ≤ t) && decide (t ≤ d.spec n (spLE i))
    let lv := min 2 (d.loopLevels n)
    let keep := if 1 ≤ lv && !inside 0 then 0 else if lv = 2 && !inside 1 then 1 else lv
    let d := if keep = lv then d else d.setStatBits n 7 6 keep
    let d := if keep < 1 && 1 ≤ lv then d.setStatBits n 8 8 0 else d
    let d := if keep < 2 && 2 ≤ lv then d.setStatBits n 9 9 0 else d
    d.setAwlPc n t

/-- The word at PC has issued: a repeated word issues again, else the loop-end check, a pending branch and a HALT request
follow. `br` and `rep` are as they stood before the word; `jump` is where a LOOP of count 0 goes on. -/
def Dev.awlAdvance (d : Dev) (n : Nat) (br : Option (Nat × AwlGo)) (rep : Option Nat) (jump : Option Nat) : Dev :=
  let pc := d.awlPc n
  let d := d.bump (F.AWL_CYCLES_COUNT n) 1
  let d := d.updAwl n fun x => { x with snap := none, slots := 0, word := 0 }
  let again := match rep with | some k => decide (1 < k) | none => false
  let d :=
    if again then d.updAwl n fun x => { x with rep := rep.map (· - 1) }
    else
      let d := if rep.isSome then d.updAwl n fun x => { x with rep := none } else d
      let r := match jump with | some j => (d, j % 8192) | none => d.loopEnd n pc
      match br with
      | some (1, g) => ((r.1.updAwl n fun x => { x with br := none }).setAwlPc n r.2).branchTake n g
      | some (k, g) => (r.1.updAwl n fun x => { x with br := some (k - 1, g) }).setAwlPc n r.2
      | none => r.1.setAwlPc n r.2
  d.awlHaltSettle n

/-- A word faults (R307): at once, or deferred in a delay slot or a repetition, where it issues without effect. -/
def Dev.awlRaise (d : Dev) (n cause eaddr : Nat) : Dev :=
  let x := d.awl1 n
  if x.br.isSome || x.rep.isSome then
    (d.setAwl n { x with fault := if x.fault.isSome then x.fault else some (cause, eaddr, true) }).awlAdvance n x.br x.rep none
  else if d.handler n then d.awlDouble n
  else d.setAwl n { x with fault := some (cause, eaddr, false) }

/-- The start of a word: the core does not issue, the word faults, or its operands have been read. -/
inductive AwlIssue where
  | idle
  | faulted (d : Dev)
  | ready (d : Dev)

/-- Starts the word at PC of core n (R294, R304, R307, R308, R311); `irq` says that an interrupt that is due comes first, as it does
but in a single step. -/
def Dev.awlBegin (d : Dev) (n : Nat) (irq : Bool) : AwlIssue :=
  let x := d.awl1 n
  if d.awlState n ≠ awlRunning then .idle
  else if x.snap.isSome then .ready d
  else if x.point && (x.fault.isSome || (irq && d.awlIrqDue n)) then .idle
  else
    let pc := d.awlPc n
    let r := d.onchipRead (0x30 + n) (awlInstrAddr n 0) (awlInstrAddr n (8 * pc)) 8
    let w := ofBytes r.2.1
    let d := r.1
    if r.2.2 then .faulted (d.awlRaise n 1 pc)
    else if d.awlIllegal n w then .faulted (d.awlRaise n 3 pc)
    else if d.awlMisplaced n w then .faulted (d.awlRaise n 5 pc)
    else if d.slotAccess n (wSlot w 0) || d.slotAccess n (wSlot w 1) then .faulted (d.awlRaise n 4 pc)
    else if wOp w = 0x31 then .faulted (d.awlRaise n 6 (wTarget w))
    else if wOp w = 0x2F && 16 ≤ ((Tab.get [] d.posts (awlIsl n)).filter fun e => e.1 == n).length then .idle
    else
      let a := d.slotLoad n (wSlot w 0)
      let b := a.1.slotLoad n (wSlot w 1)
      if a.2.2 || b.2.2 then .faulted (b.1.awlRaise n 2 pc)
      else
        let d := b.1
        let base := (R.AWL_CTRL n).addr
        .ready (d.updAwl n fun x =>
          { x with snap := some (d.regs.filter fun e => base + 0x100 ≤ e.1 && e.1 < base + 0x1000), slots := 0, ld := (a.2.1, b.2.1), word := w })

/-- Whether slot s of a word has taken effect or is empty. -/
def slotDone (x : AwlSt) (w s : Nat) : Bool := sKind (wSlot w s) == 0 || bitOf x.slots s

/-- Pk + STEP, within circular buffer k where CIRC is set and Lk is not zero (R296). -/
def Dev.postModify (d : Dev) (n m : Nat) : Nat :=
  let k := sPtr m
  let p : Int := d.spec n (spP k)
  let b : Int := d.specOld n (spB k)
  let l := d.specOld n (spL k)
  if sCirc m && l ≠ 0 then ofInt 24 (b + (p - b + sStep m) % (l : Int)) else ofInt 24 (p + sStep m)

/-- A move slot takes effect and modifies its pointer (R294 to R296). -/
def Dev.slotEffect (d : Dev) (n s m : Nat) : Dev :=
  let x := d.awl1 n
  let off := 2 * d.specOld n (spP (sPtr m))
  let d := match sKind m with
    | 1 | 2 | 3 => d.setX n (sX m) ((if s = 0 then x.ld.1 else x.ld.2 : Nat) : Int)
    | 4 => d.awlDataWrite n off (toBytes 4 (ofInt 32 (d.xSigned n (sX m))))
    | 5 => d.awlDataWrite n off (toBytes 2 (d.xOld n (sX m)))
    | _ => d
  let d := d.setSpec n (spP (sPtr m)) (d.postModify n m)
  d.updAwl n fun x => { x with slots := x.slots ||| 2 ^ s }

/-- Issues move slot s (0 for A, 1 for B) of the word at PC of core n if it is of the given KIND. -/
def Dev.awlSlot (d : Dev) (n s kind : Nat) : Dev :=
  match d.awlBegin n true with
  | .idle => d
  | .faulted d' => d'
  | .ready d' =>
    let x := d'.awl1 n
    let w := x.word
    if sKind (wSlot w s) ≠ kind || bitOf x.slots s || (s = 1 && !slotDone x w 0) then d
    else d'.slotEffect n s (wSlot w s)

/-- What a compute syllable does: the device after it, and where issue goes on after a LOOP of count 0. -/
abbrev AwlEff := Dev → Nat → Nat → Dev × Option Nat

/-- Issues the compute syllable of the word at PC of core n, whose move slots have taken effect, if its OP is the named one. -/
def Dev.awlCompute (d : Dev) (n op : Nat) (f : AwlEff) : Dev :=
  match d.awlBegin n true with
  | .idle => d
  | .faulted d' => d'
  | .ready d' =>
    let x := d'.awl1 n
    let w := x.word
    if wOp w ≠ op || !slotDone x w 0 || !slotDone x w 1 then d
    else
      let r := f d' n w
      r.1.awlAdvance n x.br x.rep r.2

/-! ### Local I/O (R310, R313) -/

/-- XFER_GO (R313): a transfer is queued, or refused with four queued. -/
def Dev.awlXferGo (d : Dev) (n v : Nat) : Dev :=
  d.updAwl n fun x =>
    if 4 ≤ x.xq.length then { x with xref := true }
    else { x with xq := x.xq ++ [⟨bitOf v 0, bitOf v 1, x.xloc, x.xfar, x.xlen⟩] }

/-- A read of local I/O address i (R310). -/
def Dev.ioRead (d : Dev) (n i : Nat) : Nat :=
  let k := awlIsl n
  let j := awlJ n
  let x := d.awl1 n
  match i with
  | 0x000 => (d.rdReg (R.ISL_STAT_WR k j)).toNat
  | 0x001 => (d.rdReg (R.ISL_STAT_RD k j)).toNat
  | 0x002 => (d.rdReg (R.ISL_STAT_RING k j)).toNat
  | 0x003 => (d.rdReg (R.ISL_STAT_DROP k j)).toNat
  | 0x004 => x.level
  | 0x010 => (d.rdReg (R.ISL_FRAME_NO k)).toNat
  | 0x011 => (d.rdReg (R.ISL_MARK_HEAD k)).toNat
  | 0x012 => (d.rdReg (R.ISL_VERDICT_STATUS k)).toNat
  | 0x018 => (d.rdReg (R.ISL_WEIGHT_COMMIT k)).toNat
  | 0x019 => (d.rdReg (R.ISL_WEIGHT_STATUS k)).toNat
  | 0x020 => x.xloc
  | 0x021 => x.xfar
  | 0x022 => x.xlen
  | 0x024 => x.xdone + x.xq.length * 2 ^ 16 + b2n x.xerr * 2 ^ 19 + b2n x.xref * 2 ^ 20
  | 0x030 => d.awlIpend n
  | _ => 0

/-- A write of v to local I/O address i (R310). XFER_LOCAL and XFER_LEN hold every bit written, so that a range beyond data memory
stays one (R313); each register of XFER is taken at its stated multiple (DESIGN CHOICE 64). -/
def Dev.ioWrite (d : Dev) (n i v : Nat) : Dev :=
  let k := awlIsl n
  match i with
  | 0x001 => d.put (F.ISL_STAT_RD_COUNT k (awlJ n)) v
  | 0x004 => d.updAwl n fun x => { x with level := v % 65536 }
  | 0x018 => d.weightCommitPost k v
  | 0x019 =>
    let d := if bitOf v 5 then d.put (F.ISL_WEIGHT_STATUS_APPLIED k) 0 else d
    let d := if bitOf v 4 then d.put (F.ISL_WEIGHT_STATUS_REPLACED k) 0 else d
    if bitOf v 3 then d.put (F.ISL_WEIGHT_STATUS_LATE k) 0 else d
  | 0x020 => d.updAwl n fun x => { x with xloc := v / 32 * 32 }
  | 0x021 => d.updAwl n fun x => { x with xfar := v % 2 ^ 40 / 64 * 64 }
  | 0x022 => d.updAwl n fun x => { x with xlen := v / 64 * 64 }
  | 0x023 => d.awlXferGo n v
  | 0x024 => d.updAwl n fun x => { x with xerr := x.xerr && !bitOf v 19, xref := x.xref && !bitOf v 20 }
  | 0x030 => d.updAwl n fun x => { x with ipend := x.ipend &&& ((14 ^^^ v) &&& 14) }
  | 0x038 => (d.put (F.AWL_HOST_SIG_VALUE n) v).flag (F.AWL_EVENTS_SIGNAL n)
  | _ => d

/-- POSTV (R311): the verdict enters the post queue of the core. -/
def Dev.awlPost (d : Dev) (n v : Nat) : Dev := { d with posts := Tab.upd [] d.posts (awlIsl n) (· ++ [(n, v)]) }

/-! ### Control (R290, R315) -/

/-- AWL_RUN (R290, R315): a HALTED core starts at STATUS.PC. -/
def Dev.awlRun (d : Dev) (n : Nat) : Dev := if d.awlState n = awlHalted then d.setAwlState n awlRunning else d

/-- AWL_CTRL_HALT (R305, R315): at the next interruptible point, at once in WAIT. -/
def Dev.awlHalt (d : Dev) (n : Nat) : Dev :=
  if d.awlState n = awlRunning || d.awlState n = awlWaiting then (d.updAwl n fun x => { x with halt := true }).awlHaltSettle n else d

/-- AWL_RESET (R290): the core is HALTED with PC 0, every register and local I/O zero; the memories (R288) and the counters CYCLES and
STALLS (R315) stay. -/
def Dev.awlReset (d : Dev) (n : Nat) : Dev :=
  let base := (R.AWL_CTRL n).addr
  let d := { d with
    regs := d.regs.filter fun e => !(base ≤ e.1 && e.1 < base + 0x1000) || (base + 0x20 ≤ e.1 && e.1 < base + 0x30)
    posts := Tab.upd [] d.posts (awlIsl n) fun l => l.filter fun e => e.1 != n }
  d.setAwl n AwlSt.init

/-- DOORBELL_RING (R308). -/
def Dev.doorbellRing (d : Dev) (n : Nat) : Dev := d.awlPend n 3

end Sys2Proof.Machine
end

