-- ==== Sys2Proof/Machine/Awl.lean ====
section
/-! DEFINITION. The compute operations of the Awl cores (R297 to R303), one definition each, and single steps (R315). -/
namespace Sys2Proof.Machine

/-! ### Accumulators (R297, R298) -/

/-- The exact product of X[F2] and X[F3] (R298). -/
def Dev.xProduct (d : Dev) (n w : Nat) : Int := d.xSigned n (wF2 w) * d.xSigned n (wF3 w)

def opNop : AwlEff := fun d _ _ => (d, none)
def opMac : AwlEff := fun d n w => (d.setAcSat n (wAcd w) (d.acOld n (wAcd w) + d.xProduct n w), none)
def opMsu : AwlEff := fun d n w => (d.setAcSat n (wAcd w) (d.acOld n (wAcd w) - d.xProduct n w), none)
def opMpy : AwlEff := fun d n w => (d.setAc n (wAcd w) (d.xProduct n w), none)
def opMova : AwlEff := fun d n w => (d.setAc n (wAcd w) (d.xSigned n (wF2 w)), none)
def opAdda : AwlEff := fun d n w => (d.setAcSat n (wAcd w) (d.acOld n (wAcd w) + d.xSigned n (wF2 w)), none)
def opInsh : AwlEff := fun d n w => (d.setAc n (wAcd w) (d.acOld n (wAcd w) * 2 ^ 16 + (d.xOld n (wF2 w) % 2 ^ 16 : Nat)), none)
def opIns24 : AwlEff := fun d n w => (d.setAc n (wAcd w) (d.acOld n (wAcd w) * 2 ^ 24 + (d.xOld n (wF2 w) : Nat)), none)

/-- SHA: a left shift saturates, a right shift is arithmetic. -/
def opSha : AwlEff := fun d n w =>
  let s := sext 6 (bitsOf w 52 47)
  let x := d.acOld n (wAcd w)
  if 0 ≤ s then (d.setAcSat n (wAcd w) (x * 2 ^ s.toNat), none) else (d.setAc n (wAcd w) (x / 2 ^ (-s).toNat), none)

/-- The rounded, shifted and clamped value of MOVX (R298). -/
def movxValue (ac : Int) (s : Nat) : Int :=
  let q := if s = 0 then ac else (ac + 2 ^ (s - 1)) / 2 ^ s
  clampI (-(2 ^ 23)) (2 ^ 23 - 1) q

def opMovx : AwlEff := fun d n w => (d.setX n (wF1 w) (movxValue (d.acOld n (wAcd w)) (wF3 w)), none)
def opMovxl : AwlEff := fun d n w => (d.setX n (wF1 w) (bitsOf (ofInt 56 (d.acOld n (wAcd w))) 23 0 : Nat), none)
def opMovxm : AwlEff := fun d n w => (d.setX n (wF1 w) (bitsOf (ofInt 56 (d.acOld n (wAcd w))) 47 24 : Nat), none)
def opMovxh : AwlEff := fun d n w => (d.setX n (wF1 w) (sext 8 (bitsOf (ofInt 56 (d.acOld n (wAcd w))) 55 48)), none)
def opAddac : AwlEff := fun d n w => (d.setAcSat n (wAcd w) (d.acOld n (wAcd w) + d.acOld n (wAcs w)), none)

/-! ### Data registers (R297) -/

def opAdd : AwlEff := fun d n w => (d.setX n (wF1 w) (d.xOld n (wF2 w) + d.xOld n (wF3 w) : Nat), none)
def opSub : AwlEff := fun d n w => (d.setX n (wF1 w) ((d.xOld n (wF2 w) : Int) - d.xOld n (wF3 w)), none)
def opAnd : AwlEff := fun d n w => (d.setX n (wF1 w) (d.xOld n (wF2 w) &&& d.xOld n (wF3 w) : Nat), none)
def opOr : AwlEff := fun d n w => (d.setX n (wF1 w) (d.xOld n (wF2 w) ||| d.xOld n (wF3 w) : Nat), none)
def opXor : AwlEff := fun d n w => (d.setX n (wF1 w) (d.xOld n (wF2 w) ^^^ d.xOld n (wF3 w) : Nat), none)
def opAddi : AwlEff := fun d n w => (d.setX n (wF1 w) ((d.xOld n (wF2 w) : Int) + sext 8 (bitsOf w 47 40)), none)

/-- SHI: modulo 2^24 to the left, arithmetic to the right. -/
def opShi : AwlEff := fun d n w =>
  let s := sext 5 (wF3 w)
  let x := d.xSigned n (wF2 w)
  (d.setX n (wF1 w) (if 0 ≤ s then x * 2 ^ s.toNat else x / 2 ^ (-s).toNat), none)

def opLi : AwlEff := fun d n w => (d.setX n (wF1 w) (sext 13 (wTarget w)), none)
def opLui : AwlEff := fun d n w => (d.setX n (wF1 w) (bitsOf w 50 40 * 2 ^ 13 + d.xOld n (wF1 w) % 2 ^ 13 : Nat), none)

/-! ### Searches (R299) -/

/-- A search step: accumulator ACD takes v if it is better, with IX; M then advances IDX. -/
def Dev.search (d : Dev) (n w : Nat) (better : Bool) (v : Int) : Dev :=
  let a := wAcd w
  let idx := d.specOld n spIdx
  let d := if better then (d.setAc n a v).setSpec n (spIx a) idx else d
  if wM w then d.setSpec n spIdx (idx + 1) else d

def opMaxx : AwlEff := fun d n w => (d.search n w (d.acOld n (wAcd w) < d.xSigned n (wF2 w)) (d.xSigned n (wF2 w)), none)
def opMinx : AwlEff := fun d n w => (d.search n w (d.xSigned n (wF2 w) < d.acOld n (wAcd w)) (d.xSigned n (wF2 w)), none)
def opMaxa : AwlEff := fun d n w => (d.search n w (d.acOld n (wAcd w) < d.acOld n (wAcs w)) (d.acOld n (wAcs w)), none)
def opMina : AwlEff := fun d n w => (d.search n w (d.acOld n (wAcs w) < d.acOld n (wAcd w)) (d.acOld n (wAcs w)), none)

/-! ### Special registers (R291) -/

def opMovs : AwlEff := fun d n w => (d.setX n (wF1 w) (d.specOld n (wSpec w) : Nat), none)

/-- MOVTS: ECAUSE and EADDR ignore it, ROT takes the value modulo 24. -/
def opMovts : AwlEff := fun d n w =>
  let v := d.xOld n (wF1 w)
  if wSpec w = spEcause || wSpec w = spEaddr then (d, none)
  else (d.setSpec n (wSpec w) (if wSpec w = spRot then v % 24 else v), none)

/-! ### Flow (R300 to R302, R306, R308) -/

/-- What a branch leads to follows two delay slots, whether it is taken or not. -/
def Dev.branchTo (d : Dev) (n : Nat) (g : AwlGo) : Dev := d.updAwl n fun x => { x with br := some (2, g) }

/-- A conditional branch: taken, the target follows the delay slots, else the word after them. -/
def branchIf (c : Bool) (w : Nat) : AwlGo := if c then .goTo (wTarget w) else .on

def opBr : AwlEff := fun d n w => (d.branchTo n (.goTo (wTarget w)), none)
def opBeqz : AwlEff := fun d n w => (d.branchTo n (branchIf (d.xOld n (wF1 w) == 0) w), none)
def opBnez : AwlEff := fun d n w => (d.branchTo n (branchIf (d.xOld n (wF1 w) != 0) w), none)
def opBltz : AwlEff := fun d n w => (d.branchTo n (branchIf (d.xSigned n (wF1 w) < 0) w), none)
def opBgez : AwlEff := fun d n w => (d.branchTo n (branchIf (0 ≤ d.xSigned n (wF1 w)) w), none)
def opCall : AwlEff := fun d n w => ((d.setSpec n spLink (d.awlPc n + 3)).branchTo n (.goTo (wTarget w)), none)
def opRet : AwlEff := fun d n _ => (d.branchTo n (.goTo (d.specOld n spLink)), none)

/-- LOOP and LOOPR start a loop at the lowest free level; a count of 0 skips it (R301). -/
def Dev.startLoop (d : Dev) (n w : Nat) (rot : Bool) : Dev × Option Nat :=
  let i := d.loopLevels n
  let lc := d.xOld n (wF1 w)
  let d := ((d.setSpec n (spLS i) (d.awlPc n + 1)).setSpec n (spLE i) (wTarget w)).setSpec n (spLC i) lc
  if lc = 0 then (d, some (wTarget w + 1))
  else ((d.setStatBits n 7 6 (i + 1)).setStatBits n (8 + i) (8 + i) (b2n rot), none)

def opLoop : AwlEff := fun d n w => d.startLoop n w false
def opLoopr : AwlEff := fun d n w => d.startLoop n w true
def opRep : AwlEff := fun d n w => (d.updAwl n fun x => { x with rep := some (bitsOf w 51 40 + 1) }, none)
def opRte : AwlEff := fun d n _ => (d.branchTo n .rte, none)

/-- WAIT: the core waits unless an enabled source is already pending. -/
def opWait : AwlEff := fun d n _ => (if d.awlWakes n then d else d.setAwlState n awlWaiting, none)

def opHalt : AwlEff := fun d n _ => (d.updAwl n fun x => { x with halt := true }, none)

/-- TRAP raises its exception before its word takes effect (awlBegin); nothing is left for the syllable. -/
def opTrap : AwlEff := fun d _ _ => (d, none)

/-! ### Local I/O and posts (R310, R311) -/

def opIor : AwlEff := fun d n w => (d.setX n (wF1 w) (d.ioRead n (wIo w) % 2 ^ 24 : Nat), none)
def opIow : AwlEff := fun d n w => (d.ioWrite n (wIo w) (d.xOld n (wF1 w)), none)
def opIora : AwlEff := fun d n w => (d.setAc n (wAcd w) (d.ioRead n (wIo w) : Nat), none)
def opIowa : AwlEff := fun d n w => (d.ioWrite n (wIo w) (ofInt 56 (d.acOld n (wAcd w))), none)

/-- POSTV: AC[55:0] as a verdict word, its SOURCE (R200) forced to 0. -/
def opPostv : AwlEff := fun d n w =>
  (d.awlPost n (insertField (BitVec.ofNat 64 (ofInt 56 (d.acOld n (wAcd w)))) 49 48 0).toNat, none)

/-! ### Single steps (R315) -/

/-- The effect of an OP (R297). -/
def awlEff (op : Nat) : AwlEff :=
  match op with
  | 0x01 => opMac | 0x02 => opMsu | 0x03 => opMpy | 0x04 => opMova | 0x05 => opAdda | 0x06 => opInsh | 0x07 => opIns24
  | 0x08 => opSha | 0x09 => opMovx | 0x0A => opMovxl | 0x0B => opMovxm | 0x0C => opMovxh | 0x0D => opAddac
  | 0x10 => opAdd | 0x11 => opSub | 0x12 => opAnd | 0x13 => opOr | 0x14 => opXor | 0x15 => opAddi | 0x16 => opShi
  | 0x17 => opLi | 0x18 => opLui | 0x19 => opMaxx | 0x1A => opMinx | 0x1B => opMaxa | 0x1C => opMina | 0x1D => opMovs
  | 0x1E => opMovts | 0x20 => opBr | 0x21 => opBeqz | 0x22 => opBnez | 0x23 => opBltz | 0x24 => opBgez | 0x25 => opCall
  | 0x26 => opRet | 0x27 => opLoop | 0x28 => opLoopr | 0x29 => opRep | 0x2A => opRte | 0x2B => opIor | 0x2C => opIow
  | 0x2D => opIora | 0x2E => opIowa | 0x2F => opPostv | 0x30 => opWait | 0x31 => opTrap | 0x32 => opHalt | _ => opNop

/-- The whole word at PC issues: slot A, slot B, compute. -/
def Dev.awlIssueWord (d : Dev) (n : Nat) : Dev :=
  match d.awlBegin n false with
  | .idle => d
  | .faulted d' => d'
  | .ready d' =>
    let x := d'.awl1 n
    let w := x.word
    let d' := if slotDone x w 0 then d' else d'.slotEffect n 0 (wSlot w 0)
    let d' := if slotDone x w 1 then d' else d'.slotEffect n 1 (wSlot w 1)
    let r := awlEff (wOp w) d' n w
    r.1.awlAdvance n x.br x.rep r.2

/-- AWL_STEP (R315): while HALTED the core issues one word; a fault that it raises is taken at once. -/
def Dev.awlStep (d : Dev) (n : Nat) : Dev :=
  if d.awlState n ≠ awlHalted then d
  else
    let d := d.setAwlState n awlRunning
    let d := if (d.awl1 n).fault.isSome && (d.awl1 n).point then d else d.awlIssueWord n
    let d := if (d.awl1 n).fault.isSome && (d.awl1 n).point then d.awlExceptionEntry n else d
    if d.awlState n = awlFault then d else (d.updAwl n fun x => { x with halt := false }).setAwlState n awlHalted

end Sys2Proof.Machine
end

