-- ==== Sys2Proof/Machine/Island.lean ====
section
/-! DEFINITION. What reaches a compute island: frame markers and commits (R57, R32), statistics records (R130, R140), Insole
fill units (R135 to R137, R349), and holding it in reset (R32, R33). -/
namespace Sys2Proof.Machine

/-- Takes the head item off the Ingest to ISL_k crossing. -/
def Dev.popIsl (d : Dev) (k : Nat) : Dev := { d with ing := { d.ing with toIsl := Tab.upd [] d.ing.toIsl k (·.tail) } }

/-- ISLAND_RESUME (R31 to R33): the first marker after release; the island takes the boundary f, with what is committed for it, panels
start at word 0 and the grid restarts at f. -/
def Dev.islResume (d : Dev) (k f : Nat) : Dev :=
  let d := d.updIsl k fun x => { x with nextFill := (f, 0), commits := x.commits.filter fun c => f ≤ c.f }
  let d := d.boundary k f
  let was := d.islLive k
  let d := (d.forL (panelsOf k) fun d p => if d.pLive p then d else d.startPanel p f).islStart k f was
  let d := (panelsOf k).foldl (fun (d : Dev) p =>
    if d.pMode p = 0 then d
    else
      let lm := (Tab.get (0, 0) d.pat.grids p).2
      { d with pat := { d.pat with grids := Tab.set (0, 0) d.pat.grids p (f, lm) } }) d
  d

/-- FRAME_MARKER_ARRIVE (R57, R132, R159): the marker at the head of the crossing to island k arrives. An island without
a live panel reaches the boundary at once. -/
def Dev.frameMarkerArrive (d : Dev) (k : Nat) : Dev :=
  match Tab.get [] d.ing.toIsl k with
  | .marker f :: _ =>
    let d := d.popIsl k
    let first := (d.isl k).marked.isNone && d.active && (panelsOf k).all (fun p => d.pState p == pOff)
      && (panelsOf k).any fun p => d.pMode p != 0
    let d := ((d.updIsl k fun x => { x with marked := some f }).put (F.ISL_MARK_HEAD_FRAME k) f).weightMark k f
    if first then d.islResume k f
    else if d.islLive k then d
    else (d.boundary k f).stopSeal k
  | _ => d

/-- COMMIT_ARRIVE (R57, R160): the commit at the head of the crossing to island k arrives. -/
def Dev.commitArrive (d : Dev) (k : Nat) : Dev :=
  let add (d : Dev) (c : IslCommit) : Dev :=
    let d := (d.popIsl k).updIsl k fun x =>
      { x with commits := if x.commits.contains c then x.commits else x.commits ++ [c] }
    d.forL (d.livePanels k) Dev.showPend
  match Tab.get [] d.ing.toIsl k with
  | .mask f changed :: _ => add d ⟨0, f, changed⟩
  | .drain f :: _ => add d ⟨1, f, false⟩
  | .swap f stop :: _ => add d ⟨2, f, stop⟩
  | _ => d

/-! ### Statistics records (R129, R130, R140) -/

/-- The 16 bytes of a statistics record (R129). -/
def StatRec.bytes (r : StatRec) : List Nat :=
  toBytes 2 (r.n % 8192 + 8192 * b2n r.masked + 16384 * b2n r.out + 32768 * b2n r.bad) ++ toBytes 4 r.s1 ++ toBytes 6 r.s2
    ++ toBytes 2 r.stream ++ toBytes 2 (r.chan % 4096 + 4096 * (r.frame % 16))

/-- Writes a granule unit to its ring, or drops it whole and counts it (STAT_RING_DROP, R130). -/
def Dev.statUnit (d : Dev) (k j n : Nat) (unit : List StatRec) : Dev :=
  let len := d.icfg k n (F.ISL_STAT_RING_LEN k j)
  let base := d.icfg k n (F.ISL_STAT_RING_BASE k j)
  if d.statUsed k j + unit.length ≤ len then
    let w := d.get (F.ISL_STAT_WR_COUNT k j)
    let d := d.forL unit.zipIdx fun d (e : StatRec × Nat) =>
      d.awlDataWrite (2 * k + j) ((base + (w + e.2) % 2 ^ 32 % max 1 len) % 16384 * 16) e.1.bytes
    d.bump (F.ISL_STAT_WR_COUNT k j) unit.length
  else d.bump (F.ISL_STAT_DROP_COUNT k j) 1

/-- Records cut into granule units: runs of one stream and one channel group. -/
def granuleUnits (l : List StatRec) : List (List StatRec) :=
  l.foldl (fun us r =>
    match us.getLast? with
    | some (q :: rest) =>
      if q.stream = r.stream && q.chan / 16 = r.chan / 16 then us.dropLast ++ [q :: rest ++ [r]] else us ++ [[r]]
    | _ => us ++ [[r]]) []

/-- STAT_RECORD_DELIVER (R130, R194, R210): the records of a frame at the head of the crossing reach island k: valid counts,
then the reduction unit, then the rings. -/
def Dev.statRecordDeliver (d : Dev) (k : Nat) : Dev :=
  match Tab.get [] d.ing.toIsl k with
  | .stat n recs :: _ =>
    let d := d.popIsl k
    let d := d.forL recs fun d r =>
      let d := if d.occOpen k n then d.updIsl k fun x => { x with valid := Tab.set 0 x.valid (validKey n r.ct r.chan) r.n } else d
      if d.get (F.ISL_RED_CFG_SRC k) = 1 && d.get (F.ISL_RED_CFG_MIN_N k) ≤ r.n then
        d.redOffer k ⟨r.s1, n, r.chan, r.stream⟩ else d
    d.forL (granuleUnits recs) fun d u =>
      match u with
      | [] => d
      | r :: _ => d.statUnit k (r.chan / 16 % 2) n u
  | _ => d

/-! ### Insole fill (R135 to R137) -/

/-- Whether two byte ranges overlap. -/
def overlaps (a n b m : Nat) : Bool := a < b + m && b < a + n

/-- Moves the filler past a unit. -/
def Dev.fillNext (d : Dev) (k n u : Nat) : Dev :=
  let next := if u + 1 < (d.planFor k n).length then (n, u + 1) else (n + 1, 0)
  (d.updIsl k fun x => { x with nextFill := next }).relHolds k

/-- The filler of island k goes on to the frame after n, past an outgoing plan without units at once. -/
def Dev.fillFrame (d : Dev) (k n : Nat) : Dev :=
  (d.updIsl k fun x =>
    { x with nextFill := match x.outgoing.reverse.find? fun e => decide (n + 1 < e.1) with | some (b, _, []) => (b, 0) | _ => (n + 1, 0) }).relHolds k

/-- FILL_UNIT_READ (R133, R136): the filler of island k begins the next unit of its plan. Units of a frame that was
withdrawn are entered as zeros, or not at all where the panels have passed it. -/
def Dev.fillUnitRead (d : Dev) (k : Nat) : Dev :=
  let d := d.purgeUnits k
  let x := d.isl k
  let n := x.nextFill.1
  let u := x.nextFill.2
  match (d.planFor k n)[u]? with
  | none => if (d.planFor k n).isEmpty && (d.planFor k (n + 1)).isEmpty && (d.isl k).plan.isEmpty then d else d.fillFrame k n
  | some fu =>
    let b := d.sampleBytes n
    let lost := d.lostFrame k n
    if !d.islLive k || !d.active || d.islFrame k + d.icfg k n (F.ISL_FILL_CFG_RUN_AHEAD k) < n then d
    else if lost = some 2 then d.fillFrame k n
    else if d.get F.ING_FRAME_TAIL_TAIL ≤ n || (match x.marked with | none => true | some m => decide (m < n)) then d
    else if x.units.any fun e => overlaps fu.dest (fu.size b) e.fu.dest (e.fu.size (d.sampleBytes e.frame)) then d
    else
      let relu := (x.released.filter fun r => r.1 == n && r.2.1 == u).map (·.2.2)
      let d := d.updIsl k fun x => { x with released := x.released.filter fun r => !(r.1 == n && r.2.1 == u) }
      let e : UnitSt := { frame := n, num := u, fu := fu, zero := lost.isSome, full := false, drop := false, relu := relu }
      let d := if lost.isSome then
        let d := d.insoleWrite k fu.dest (List.replicate (fu.size b) 0)
        d.updIsl k fun x => { x with units := x.units ++ [{ e with full := true }] }
        else d.updIsl k fun x => { x with units := x.units ++ [e] }
      d.fillNext k n u

/-- The samples of a fill unit, in Insole order (R135): offset from DEST, channel, time and corner-turn index. -/
def FillUnit.samples (u : FillUnit) (b : Nat) : List (Nat × Nat × Nat × Nat) :=
  (List.range (u.nc * u.nt * u.ns)).map fun i =>
    (i * b, u.c0 + i / u.ns / u.nt, u.t0 + i / u.ns % u.nt, u.s0 + i % u.ns)

/-- FILL_UNIT_COMPLETE (R135, R136, R347, R349): the oldest unit in flight of island k has been read and is written with
parity. What could not be read is entered as zeros, and its granules get a verdict with SOURCE 3. -/
def Dev.fillUnitComplete (d : Dev) (k : Nat) : Dev :=
  match (d.isl k).units.find? fun e => !e.full with
  | none => d
  | some e =>
    if e.drop then (d.updIsl k fun x => { x with units := x.units.filter fun y => y != e }).relHolds k
    else
      let n := e.frame
      let b := d.sampleBytes n
      if !e.zero && (e.fu.samples b).any fun s => d.memBusy (d.ctAddr n s.2.2.2 k s.2.2.1 s.2.1) b then d else
      let reads := if e.zero then [] else (e.fu.samples b).map fun s => (s, d.memRead (d.ctAddr n s.2.2.2 k s.2.2.1 s.2.1) b)
      let d := if e.zero then d.insoleWrite k e.fu.dest (List.replicate (e.fu.size b) 0) else d
      let d := d.forL reads fun d r =>
        d.insoleWrite k (e.fu.dest + r.1.1) (if r.2.err || !r.2.ue.isEmpty then List.replicate b 0 else r.2.bytes)
      let beats := ((reads.map fun r => r.2.ue).flatten).eraseDups
      let d := d.forL ((reads.map fun r => r.2.addr / 256).eraseDups) fun d (g : Nat) =>
        let mine := (reads.filter fun r => r.2.addr / 256 == g).map fun r => r.2.addr
        d.memPost (1 + k) 1 false (mine.foldl min (256 * g + 255)) (mine.length * b)
      let d := (d.forL beats fun d a => d.memUncorrectable a (1 + k)).forL ((reads.map fun r => r.2.ce).flatten).eraseDups
        fun d a => d.corrected (F.MEM_CH_CNT_COUNT (d.chanOf a).1 3) 1
      let d := (d.updIsl k fun x => { x with units := x.units.map fun y => if y = e then { y with full := true } else y }).relHolds k
      let bad := ((reads.filter fun r => r.2.err || !r.2.ue.isEmpty).map fun r => Granule.mk n r.1.2.2.2 (r.1.2.1 / 16)).eraseDups
      d.forL bad fun d gr => d.verdictCheck k gr.u gr.g gr.frame

/-! ### Islands in reset (R32, R33) -/

/-- Whether an address is a field of island k that the pattern loads, its programs and clock included (R33). -/
def islKeeps (k a : Nat) : Bool :=
  (match patternReg a with | some _ => true | none => false)
    || a == (R.ISL_FILL_CFG k).addr || a == (R.ISL_CLK k).addr
    || (panelsOf k).any fun p => (R.PNL_UCODE p 0).addr ≤ a && a < (R.PNL_UCODE p 0).addr + 0x8000

/-- The counters of an island and its panels that only power-on reset clears (R139, R169, R198, R215, R237), some of them fields. -/
def islCounters (k : Nat) : List RF :=
  [F.ISL_FILL_DISCARD_COUNT k, F.ISL_STAT_DROP_COUNT k 0, F.ISL_STAT_DROP_COUNT k 1, F.ISL_PHASE_MISS_CNT_COUNT k, F.ISL_RED_LATE_COUNT k]
    ++ (List.range 6).map (F.ISL_VERDICT_CNT_COUNT k) ++ (List.range 5).map (F.ISL_BEAM_CNT_COUNT k)
    ++ ((panelsOf k).map fun p =>
      [F.PNL_UNBOUND_CNT_COUNT p, F.PNL_CONFLICT_CNT_COUNT p, F.PNL_ARRAY_CYCLES_COUNT p, F.PNL_HELD_CYCLES_COUNT p, F.PNL_SAT_CNT_COUNT p,
       F.PNL_RETR_CNT_UNSERVED p, F.PNL_RETR_CNT_SERVED p]).flatten

/-- An island that is held while a swap is in progress takes the incoming pattern, in its own registers and in every panel's (R33). -/
def Dev.holdSwap (d : Dev) (k : Nat) : Dev :=
  let had := (d.isl k).outgoing.head?.map (·.1)
  let d := d.forL (if d.pat.cold then d.pat.next.drop 1 else d.pat.next) fun d (e : Nat × Option PatBank) =>
    if had.any fun g => decide (e.1 ≤ g) then d else d.installIsl k e.1 e.2
  match d.pat.next.getLast? with
  | none => d
  | some (_, b) => (d.forL (panelsOf k) fun d p => d.installPanel b p).clockMove k

/-- Compute island k is held in reset (R33): what it held is lost and its registers read their power-on values, but for what the pattern
loads and for counters. -/
def Dev.islHold (d : Dev) (k : Nat) : Dev :=
  let x := d.isl k
  let keep := { IslSt.init with held := true, plan := x.plan, outgoing := x.outgoing, clockDue := x.clockDue, toMem := x.toMem, toEgr := x.toEgr }
  let kept := (islCounters k).map fun f => f.reg.addr
  let d := { d with
    regs := d.regs.filter fun e => !(islBase k ≤ e.1 && e.1 < islBase k + 0x100000 && !islKeeps k e.1 && !kept.contains e.1)
    ing := { d.ing with toIsl := Tab.erase d.ing.toIsl k }
    panels := d.panels.filter fun e => e.1 / 8 ≠ k }
  let d := { d with
    mem := d.mem.filter fun c => !(insoleAddr k 0 ≤ c.1 && c.1 < insoleAddr k insoleSize)
    insoleBad := d.insoleBad.filter fun a => !(insoleAddr k 0 ≤ a && a < insoleAddr k insoleSize) }
  (d.setIsl k keep).holdSwap k

/-- Compute island k is released: it resumes at the next frame marker (R33). -/
def Dev.islRelease (d : Dev) (k : Nat) : Dev := d.updIsl k fun x => { x with held := false }

end Sys2Proof.Machine
end

