-- ==== Sys2Proof/Machine/Spill.lean ====
section
/-! DEFINITION. The spill adder (R180, R181, R345, R346, R349), close markers and dump reads (R183, R185), and drains (R186,
R190). -/
namespace Sys2Proof.Machine

/-! ### Records with their check bytes (R345, R346) -/

/-- The address of the check byte of the spill word at address a, for an integration that starts at frame n (R345). -/
def Dev.chkAddr (d : Dev) (n a : Nat) : Nat :=
  d.cfg n F.ECC_SPILL_CHK_BASE * 8192 + (a - d.cfg n F.MEM_SPILL_BASE_BASE * 65536) / 8

/-- Whether a record of the given layout at address a may be written: a multiple of 512, wholly inside the spill region
(R181, R346). -/
def Dev.recordFits (d : Dev) (n a kind : Nat) : Bool :=
  a % 512 == 0 && d.cfg n F.MEM_SPILL_BASE_BASE * 65536 ≤ a && a + 8 * layoutWords kind ≤ d.cfg n F.MEM_SPILL_LIMIT_LIMIT * 65536

/-- Writes a record as whole 512-byte lines with its check bytes (R346). A write to an OFFLINE channel is lost (R350). -/
def Dev.writeRecord (d : Dev) (n a kind : Nat) (words : Tab Nat) : Dev :=
  let ws := tabulate (ceilDiv (layoutWords kind) 64 * 64) fun i => if i < layoutWords kind then Tab.get 0 words i else 0
  let d := (d.memStore 9 a (ws.map (toBytes 8)).flatten).1
  (d.memStore 9 (d.chkAddr n a) (ws.map spillCheck)).1

/-- A record or its check bytes reach a channel that is TRAINING (R335). -/
def Dev.recordBusy (d : Dev) (n a kind : Nat) : Bool :=
  let len := ceilDiv (layoutWords kind) 64 * 512
  d.memBusy a len || d.memBusy (d.chkAddr n a) (len / 8)

/-- What a read of a record's words gives: each word as corrected, or none where it is uncorrectable; how many were
corrected, and how many the check code found uncorrectable. -/
structure RecordRead where
  words : List (Option Nat)
  ce : Nat
  ue : List Nat
deriving DecidableEq, Repr

/-- One word of a record as read (R345, R348): none where its beat, or that of its check byte, could not be read or was
reported uncorrected. -/
def Dev.spillWord (d : Dev) (n a : Nat) : Option Nat × Nat × List Nat :=
  let c := d.chkAddr n a
  let w := d.memRead a 8
  let k := d.memRead c 1
  if w.err || k.err || !w.ue.isEmpty || !k.ue.isEmpty then (none, 0, [])
  else
    let v := ofBytes w.bytes
    let chk := ofBytes k.bytes
    match spillDecode v chk with
    | some x => (some x, b2n (spillCheck v != chk), [])
    | none => (none, 0, [a])

/-- Reads the words of a record at address a (R345, R348). -/
def Dev.spillRead (d : Dev) (n a kind : Nat) : RecordRead :=
  (List.range (layoutWords kind)).foldr (fun i (r : RecordRead) =>
    let x := d.spillWord n (a + 8 * i)
    { words := x.1 :: r.words, ce := r.ce + x.2.1, ue := x.2.2 ++ r.ue }) ⟨[], 0, []⟩

/-- The counts and records that a record read leaves (R349, R353): beats reported uncorrected, and words that the check
code found so. The consumer is memory port 9, and dump reads are of class Slate (R341). -/
def Dev.spillReport (d : Dev) (n a kind cls : Nat) (r : RecordRead) : Dev :=
  let len := 8 * layoutWords kind
  let d := d.memReportAs (d.memRead a len) 9 cls
  let d := d.memReportAs (d.memRead (d.chkAddr n a) (len / 8)) 9 cls
  let d := if r.ce = 0 then d else d.corrected (F.ECC_CNT_COUNT 2) r.ce
  d.forL r.ue fun d a =>
    let d := d.bump (F.ECC_CNT_COUNT 3) 1
    let d := (d.put F.ECC_LAST_UE_ADDR a).put F.ECC_LAST_UE_MEM_ID 0xFF
    (d.flag F.ECC_EVENTS_UE_SDRAM).event F.ECC_EVENTS_UE_SDRAM 0 [a, 9]

/-! ### Planes (R180, R181) -/

/-- Takes the head item off the ISL_k to Memory crossing, and beam samples behind it (R28). -/
def Dev.popMem (d : Dev) (k : Nat) : Dev := (d.updIsl k fun x => { x with toMem := x.toMem.tail }).memFlush k (d.isl k).toMem.length

/-- The sum of a record as read and a plane (R180, R349); an uncorrectable word is taken as the mark. Gives also whether
the adder produced a mark itself. -/
def addRecord (old : List (Option Nat)) (words : Tab Nat) : Tab Nat × Bool :=
  old.zipIdx.foldl (fun (x : Tab Nat × Bool) (e : Option Nat × Nat) =>
    let s := match e.1 with
      | some w => wordSum w (Tab.get 0 words e.2)
      | none => (markWord, true)
    (Tab.set 0 x.1 e.2 s.1, x.2 || s.2)) ([], false)

/-- The parity of panel p's integration that starts at `start`: as the marker on its way says, else as the panel shows (R182). -/
def Dev.planeParity (d : Dev) (p start : Nat) : Nat :=
  let mem := (d.isl (p / 8)).toMem.findSome? fun i => match i with
    | .mark q _ par st => if q == p && st == start then some par else none
    | _ => none
  let port := (d.panel p).port.findSome? fun i => match i with
    | .mark _ par st => if st == start then some par else none
    | _ => none
  match mem, port with
  | some par, _ => par
  | none, some par => par
  | none, none => d.get (F.PNL_INT_START_PARITY p)

/-- Whether a plane of panel p goes where R185 and R202 have it go: onto a record of its integration's parity in the panel's
spill list, CLOSE_TAKE of its integration being 0. Else the record's sum is undefined (R284). -/
def Dev.recordPlaced (d : Dev) (p start a : Nat) : Bool :=
  let par := d.planeParity p start
  d.icfg (p / 8) start (F.PNL_RETR_CFG_CLOSE_TAKE p) == 0 && (List.range (d.cfg start (F.MEM_SPILL_LIST_COUNT p))).any fun j =>
    64 * ofBytes (d.sdBytes (d.cfg start (F.MEM_SPILL_LIST_BASE p) * 16 + 16 * j + (if par = 0 then 0 else 4)) 4) == a

/-- What the adder writes as a record, and whether it set a mark, from what R180 gives. -/
def Dev.recordSum (d : Dev) (p start a kind : Nat) (r : Tab Nat × Bool) : Dev × Tab Nat × Bool :=
  if d.recordPlaced p start a then (d, r)
  else
    let n := layoutWords kind
    (d.fresh, (List.range n).foldl (fun (t : Tab Nat) i => Tab.set 0 t i (Config.recordWord d.free i % 2 ^ 64)) [],
      decide (Config.recordWord d.free n % 2 = 1))

/-- SPILL_PLANE_ARRIVE (R180, R181, R346): the plane at the head of the crossing from island k reaches the spill adder. -/
def Dev.spillPlaneArrive (d : Dev) (k : Nat) : Dev :=
  match (d.isl k).toMem with
  | .plane panel tag a kind init words start frame :: _ =>
    if d.recordFits start a kind && d.recordBusy start a kind then d else
    let d := d.popMem k
    if !d.recordFits start a kind then
      ((d.occBlock panel start tag).flag F.MEM_SPILL_STATUS_RANGE).event F.MEM_SPILL_STATUS_RANGE 0 [panel, a]
    else
      let d := { d with spill := { d.spill with writes := d.spill.writes ++ [(panel, frame)] } }
      if init then
        let s := d.recordSum panel start a kind (words, false)
        s.1.writeRecord start a kind s.2.1
      else
        let r := d.spillRead start a kind
        let s := d.recordSum panel start a kind (addRecord r.words words)
        let d := (s.1.spillReport start a kind 1 r).writeRecord start a kind s.2.1
        if s.2.2 then d.flag F.MEM_SPILL_STATUS_SAT else d
  | _ => d

/-- SPILL_WRITE_DONE (R180, R189): the adder's oldest outstanding write for panel p completes. -/
def Dev.spillWriteDone (d : Dev) (p : Nat) : Dev :=
  match d.spill.writes.find? fun w => w.1 == p with
  | none => d
  | some w => { d with spill := { d.spill with writes := d.spill.writes.erase w } }.bump F.MEM_SPILL_ADDS_COUNT 1

/-! ### Close markers and dump reads (R183, R185) -/

/-- Puts an item on the Memory to Egress crossing; one for egress held in reset is discarded (R32). -/
def Dev.memToEgr (d : Dev) (i : EgrItem) : Dev :=
  if d.egrHeld then d else { d with spill := { d.spill with toEgr := d.spill.toEgr ++ [i] } }

/-- The memory island's close notice for panel p goes to egress (R248). -/
def Dev.memNotice (d : Dev) (p f : Nat) : Dev := d.memToEgr (.notice p f true)

def Dev.setDumpBusy (d : Dev) (p : Nat) (on : Bool) : Dev :=
  let m := d.get F.MEM_DUMP_BUSY_BUSY
  d.put F.MEM_DUMP_BUSY_BUSY (if on then m ||| 2 ^ p else if bitOf m p then m - 2 ^ p else m)

/-- CLOSE_MARKER_ARRIVE (R183): the close marker at the head of the crossing from island k is taken once every earlier
plane of its panel is complete; its spill list is then read, and an empty list ends at once. -/
def Dev.closeMarkerArrive (d : Dev) (k : Nat) : Dev :=
  match (d.isl k).toMem with
  | .mark p f parity start :: _ =>
    if d.spill.writes.any (fun w => w.1 == p) || d.dumpBusy p then d
    else
      let d := d.popMem k
      if d.cfg start (F.MEM_SPILL_LIST_COUNT p) = 0 then d.memNotice p f
      else { d with spill := { d.spill with dumps := d.spill.dumps ++ [DumpRead.mk p parity f start 0] } }.setDumpBusy p true
  | _ => d

/-- A spill-list entry (R185): record address, routing key and layout; none where it could not be read (R349). -/
def Dev.listEntry (d : Dev) (x : DumpRead) : Option (Nat × Nat × Nat) :=
  let r := d.memRead (d.cfg x.start (F.MEM_SPILL_LIST_BASE x.panel) * 16 + 16 * x.entry) 16
  if r.err || !r.ue.isEmpty then none
  else
    let at4 := fun o => ofBytes ((r.bytes.drop o).take 4)
    some (64 * (if x.parity = 0 then at4 0 else at4 4), at4 8, at4 12 % 4)

/-- A record of the panel is still at the Memory to Egress crossing, on it or held there by a full queue: the dump read keeps the pace
egress accepts (R183, R252). -/
def Dev.memCrossingFull (d : Dev) (p : Nat) : Bool :=
  (d.spill.toEgr.any fun i => match i with | .plane u => u.panel == p | _ => false) || d.planeHeld 8 p

/-- DUMP_READ_COMPLETE (R183, R248, R252): the last record of a dump read has left the crossing; DUMP_BUSY clears and the notice is sent. -/
def Dev.dumpFinish (d : Dev) (x : DumpRead) : Dev :=
  if d.cfg x.start (F.MEM_SPILL_LIST_COUNT x.panel) ≤ x.entry && !d.memCrossingFull x.panel then
    ({ d with spill := { d.spill with dumps := d.spill.dumps.filter fun y => y != x } }.setDumpBusy x.panel false).memNotice x.panel x.f
  else d

/-- Ends the dump reads whose last record has left. -/
def Dev.dumpSettle (d : Dev) : Dev := d.forL d.spill.dumps Dev.dumpFinish

/-- Moves a dump read past an entry. -/
def Dev.dumpAdvance (d : Dev) (x : DumpRead) : Dev :=
  { d with spill := { d.spill with dumps := { x with entry := x.entry + 1 } :: d.spill.dumps.filter fun y => y != x } }.dumpSettle

/-- DUMP_READ_RECORD (R183, R349): the next record of the dump read of panel p is read and sent to egress. The record of an
entry that could not be read is not sent. -/
def Dev.dumpReadRecord (d : Dev) (p : Nat) : Dev :=
  match d.spill.dumps.find? fun x => x.panel == p with
  | none => d
  | some x =>
    if d.memCrossingFull p || d.cfg x.start (F.MEM_SPILL_LIST_COUNT p) ≤ x.entry then d
    else
      let a := d.cfg x.start (F.MEM_SPILL_LIST_BASE p) * 16 + 16 * x.entry
      if d.memBusy a 16 || (match d.listEntry x with | some e => d.recordBusy x.start e.1 e.2.2 | none => false) then d else
      let d := d.memReportAs (d.memRead a 16) 9 1
      match d.listEntry x with
      | none => d.dumpAdvance x
      | some (rec, key, kind) =>
        let r := d.spillRead x.start rec kind
        let d := d.spillReport x.start rec kind 2 r
        let words := r.words.zipIdx.foldl (fun (t : Tab Nat) (e : Option Nat × Nat) => Tab.set 0 t e.2 (e.1.getD markWord)) []
        let u : PlaneUnit := ⟨p, key, kind, words, x.start, some x.f⟩
        (d.memToEgr (.plane u)).dumpAdvance x

/-! ### Drains (R186, R190) -/

def Dev.showDrains (d : Dev) : Dev := d.put F.DEV_DRAIN_STATUS_PENDING d.spill.drainsAt.length

/-- DRAIN_POST (R56, R59, R186): a whole-width write of `v` to DEV.DRAIN_AT. A refused post sets LATE with its event record; one made
without a pattern is refused and sets DISCARDED too. -/
def Dev.drainPost (d : Dev) (v : Nat) : Dev :=
  let f := bitsOf v 47 0
  let mask := bitsOf v 55 48
  let d := (d.put F.DEV_DRAIN_AT_AT_FRAME f).put F.DEV_DRAIN_AT_ISL_MASK mask
  if d.ingHeld then d
  else if !d.active || f ≤ d.get F.ING_FRAME_HEAD_HEAD then
    let d := (d.flag F.DEV_DRAIN_STATUS_LATE).event F.DEV_DRAIN_STATUS_LATE 0 [f]
    if d.active then d else d.flag F.DEV_DRAIN_STATUS_DISCARDED
  else
    let others := d.spill.drainsAt.filter fun x => x.1 ≠ f
    if 4 ≤ others.length then (d.flag F.DEV_DRAIN_STATUS_FULL).event F.DEV_DRAIN_STATUS_FULL 0 [f]
    else ({ d with spill := { d.spill with drainsAt := sortBy (·.1) (others ++ [(f, mask)]) } }).showDrains

/-- Whether panel p no longer keeps the drain at f waiting (R189, R190): it has stopped or its island is held, or it has
passed its close point and every product of a frame before f has retired. -/
def Dev.drainPassed (d : Dev) (p f : Nat) : Bool :=
  let k := p / 8
  if !d.pLive p || (d.isl k).held then true
  else
    f ≤ d.pStart p && (d.loose p fun b => !b.weight && decide (b.frame < f)).isEmpty
      && !((d.panel p).port.any fun i => match i with
        | .queued op => decide (op.frame < f)
        | .plane op _ _ _ _ _ => decide (op.frame < f)
        | _ => false)
      && !((d.isl k).toMem.any fun i => match i with | .plane q _ _ _ _ _ _ n => q == p && decide (n < f) | _ => false)
      && !(d.spill.writes.any fun w => w.1 == p && decide (w.2 < f))

/-- The panels of the islands that a mask selects. -/
def maskPanels (mask : Nat) : List Nat := (List.range 64).filter fun p => bitOf mask (p / 8)

/-- DRAIN_COMPLETE (R190): the oldest delivered drain is complete once every affected panel has passed it. -/
def Dev.drainComplete (d : Dev) : Dev :=
  match d.spill.drains with
  | [] => d
  | (f, mask) :: rest =>
    if (maskPanels mask).all fun p => d.drainPassed p f then
      ({ d with spill := { d.spill with drains := rest } }.flag F.DEV_DRAIN_STATUS_DONE).put F.DEV_DRAIN_DONE_AT_FRAME f
    else d

end Sys2Proof.Machine
end

