-- ==== Sys2Proof/Machine/Output.lean ====
section
/-! DEFINITION. Output words and headers: the words an ORDER selects (R242), output formats (R243), detected planes (R244,
R229), the FSTART bytes of PRODUCT and BEAM frames (R103, R104), and dump-end payloads (R249). -/
namespace Sys2Proof.Machine

/-! ### Words (R242, R243) -/

/-- The record words that ORDER selects, in order (R242). TRANSPOSE sends the transpose of the first n² words (DEDUCED 53). -/
def wordOrder (order kind : Nat) : List Nat :=
  let n := layoutSide kind
  let all := List.range (layoutWords kind)
  match order with
  | 1 => ((List.range n).map fun c => (List.range n).map fun r => n * r + c).flatten ++ all.drop (n * n)
  | 2 => if kind % 2 = 1 then ((List.range n).map fun r => (List.range (r + 1)).map fun c => n * r + c).flatten else all
  | _ => all

/-- The binary32 code of an integer times 2^(-s), ties to even (R243). -/
def toBinary32 (v : Int) (s : Nat) : Nat :=
  let m := v.natAbs
  if m = 0 then 0
  else
    let e := Nat.log2 m
    let sign := if v < 0 then 2 ^ 31 else 0
    if e ≤ 23 then sign + (e + 127 - s) * 2 ^ 23 + (m * 2 ^ (23 - e) - 2 ^ 23)
    else
      let k := e - 23
      let q := m / 2 ^ k
      let r := m % 2 ^ k
      let half := 2 ^ (k - 1)
      let q := if half < r || (r = half && q % 2 = 1) then q + 1 else q
      sign + (e + 127 - s) * 2 ^ 23 + (q - 2 ^ 23)

/-- An int16 part with scale shift, and whether it clipped (R243). -/
def toInt16 (v : Int) (s : Nat) : Int × Bool :=
  let q := if s = 0 then v else (v + (2 ^ (s - 1) : Nat)) / ((2 ^ s : Nat) : Int)
  if 32767 < q then (32767, true) else if q < -32767 then (-32767, true) else (q, false)

/-- A record word in an output format, and whether a part clipped (R243). -/
def outWord (fmt s w : Nat) : List Nat × Bool :=
  match fmt with
  | 1 => match wordParts w with
    | none => (toBytes 4 0x7FC00000 ++ toBytes 4 0x7FC00000, false)
    | some p => (toBytes 4 (toBinary32 p.1 s) ++ toBytes 4 (toBinary32 p.2 s), false)
  | 2 => match wordParts w with
    | none => (toBytes 2 0x8000 ++ toBytes 2 0x8000, false)
    | some p =>
      let a := toInt16 p.1 s
      let b := toInt16 p.2 s
      (toBytes 2 (ofInt 16 a.1) ++ toBytes 2 (ofInt 16 b.1), a.2 || b.2)
  | _ => (toBytes 8 w, false)

/-- The converted bytes of a product plane, and how many words clipped (R242, R243). -/
def outPlane (order fmt s kind : Nat) (words : Tab Nat) : List Nat × Nat :=
  let ws := (wordOrder order kind).map fun i => outWord fmt s (Tab.get 0 words i)
  ((ws.map (·.1)).flatten, (ws.filter (·.2)).length)

/-- Bytes of one unit of an entry of KIND PLANE: U of R246. -/
def unitBytes (order fmt kind : Nat) : Nat := (wordOrder order kind).length * (if fmt = 2 then 4 else 8)

/-! ### Frame headers (R100, R103, R104): FSTART bytes 0 to 27 with SEQ and LEN_BLK zero -/

/-- The header of a PRODUCT frame (R103). -/
def productHdr (queue seq f entry off fmt : Nat) : List Nat :=
  padTo 28 0 ([0x10, 1, 0, 0, 0] ++ toBytes 2 queue ++ toBytes 4 seq ++ toBytes 6 f ++ toBytes 2 entry ++ toBytes 4 off ++ [fmt % 4])

/-- The header of a BEAM frame (R104). -/
def beamHdr (beam type fmt cnt firstCh nch valid : Nat) : List Nat :=
  padTo 28 0 ([0x10, 2, 0, 0, 0] ++ toBytes 2 (beam % 1024 + 1024 * type + 8192 * fmt) ++ toBytes 8 cnt ++ toBytes 2 firstCh
    ++ toBytes 2 (nch - 1) ++ toBytes 4 valid)

/-- Bytes as 32-byte payloads. -/
def blocksOf (bs : List Nat) : List Payload :=
  (List.range (ceilDiv bs.length 32)).map fun i => payloadOf ((bs.drop (32 * i)).take 32)

/-- The sample counter of time index t of frame n in group g (R41). -/
def Dev.sampleCnt (d : Dev) (g n t : Nat) : Nat := (d.epoch g + 4096 * n + t) % 2 ^ 64

/-! ### Detected planes (R229, R244) -/

/-- The rows of a detected plane as its output: one part of PRODUCT data, or a BEAM frame of TYPE 1 for each column. -/
def detectedParts (order n rows bb chFirst fmt cnt : Nat) (words : Tab Nat) : List EgrPart :=
  let w := fun (r c : Nat) => toBytes 8 (Tab.get 0 words (r * n + c))
  if order = 1 then
    (List.range n).map fun c =>
      { off := 0, hdr := beamHdr (bb * n + c) 1 fmt cnt chFirst rows (2 ^ (rows / 4) - 1)
        bytes := ((List.range rows).map fun r => w r c).flatten }
  else [{ off := 0, hdr := [], bytes := ((List.range rows).map fun r => ((List.range n).map fun c => w r c).flatten).flatten }]

/-! ### Window words (R258) -/

/-- The window words of a plane of channel offset c: index and value. -/
def winWords (kind c : Nat) (words : Tab Nat) : List (Nat × Nat) :=
  if kind % 2 = 0 then []
  else
    let n := layoutSide kind
    let val := fun (i : Nat) => match wordParts (Tab.get 0 words i) with
      | none => 3 * 2 ^ 62
      | some p => 2 ^ 63 + (if p.1 < 0 then Config.windowNegative p.1 else p.1.toNat) % 2 ^ 32
    (((List.range n).map fun r => (c * 2 * n + r, val (r * n + r)))
      ++ (List.range n).map fun r => (c * 2 * n + n + r, val (n * n + r))).filter fun e => e.1 < 4096

end Sys2Proof.Machine
end

