-- ==== Sys2Proof/Machine/Egress.lean ====
section
/-! DEFINITION. The egress island: units and their routing (R238 to R241), dump numbers and completion (R247 to R249), queues
and policies (R250, R252, R488), lane groups (R251, R74, R485, R486), rings (R254 to R256), windows (R258 to R260) and
voltage-beam frames (R224, R225). -/
namespace Sys2Proof.Machine

/-! ### Dumps: numbers, counts, completion (R247 to R249) -/

/-- Units sent and dropped of the dump at f on queue q. -/
def Dev.dumpCounts (d : Dev) (q f : Nat) : Nat × Nat :=
  ((d.egr.counts.find? fun c => c.1 == q && c.2.1 == f).map (·.2.2)).getD (0, 0)

/-- Counts units of a dump on a queue. -/
def Dev.countDump (d : Dev) (q f sent dropped : Nat) : Dev :=
  let c := d.dumpCounts q f
  d.updEgr fun e => { e with counts := (q, f, c.1 + sent, c.2 + dropped) :: e.counts.filter fun x => !(x.1 == q && x.2.1 == f) }

/-- A unit is discarded and counted in DROPPED of its dump end (R241, R252, R256). -/
def Dev.countDropped (d : Dev) (u : EgrUnit) : Dev :=
  match u.f with
  | some f => if u.kind = 4 then d else d.countDump u.queue f 0 1
  | none => d

/-- The enabled routing entries in force for frame n, ascending (R240). -/
def Dev.prtOn (d : Dev) (n : Nat) : List Nat :=
  let t := (outgoingAt d.ing.outgoing n).getD d.regs
  (t.filterMap fun e => if 0xF000C00000 ≤ e.1 && e.1 < 0xF000C40000 then some ((e.1 - 0xF000C00000) / 8) else none).filter
    fun e => d.cfg n (F.PRT_ENTRY_EN e) == 1

/-- The enabled entries that route to queue q (R248). -/
def Dev.entriesTo (d : Dev) (n q : Nat) : List Nat := (d.prtOn n).filter fun e => d.cfg n (F.PRT_ENTRY_QUEUE e) == q

/-- The queues that an enabled entry names. -/
def Dev.dumpQueues (d : Dev) (n : Nat) : List Nat := ((d.prtOn n).map fun e => d.cfg n (F.PRT_ENTRY_QUEUE e)).eraseDups

/-- Whether a stopped panel has nothing more on its way to egress for the dump at f: a dump end follows every other unit
(R163, R248). -/
def Dev.panelQuiet (d : Dev) (p f : Nat) : Bool :=
  let own (i : EgrItem) : Bool := match i with
    | .plane u => u.panel == p && decide (u.start < f)
    | .notice q g _ => q == p && decide (g ≤ f)
    | .fix q g => q == p && decide (g ≤ f)
    | _ => false
  !((d.panel p).port.any fun i => match i with
      | .queued op => op.dump && decide (op.start < f)
      | .plane op _ _ _ _ _ => op.dump && decide (op.start < f)
      | .mark g _ _ => decide (g ≤ f)
      | .fix g => decide (g ≤ f))
    && !((d.isl (p / 8)).toEgr.any own)
    && !((d.isl (p / 8)).toMem.any fun i => match i with | .mark q g _ _ => q == p && decide (g ≤ f) | _ => false)
    && !(d.spill.dumps.any fun x => x.panel == p && decide (x.f ≤ f))
    && !(d.spill.toEgr.any own)

/-- Whether the dump at f is complete on queue q (R248). -/
def Dev.dumpDone (d : Dev) (q f : Nat) : Bool :=
  let n := f - 1
  (d.entriesTo n q).all (fun e =>
    let p := d.cfg n (F.PRT_ENTRY_PANEL e)
    let x := Tab.get (0, 0) d.egr.notices p
    (!d.pLive p && d.panelQuiet p f) || (f < x.1 && f < x.2))
  && (d.egr.exact.filter fun x => x.2 == f).all fun x =>
    let e := d.icfg x.1 n (F.ISL_OCC_ROUTE_ROUTE x.1) % 32768
    !(d.cfg n (F.PRT_ENTRY_EN e) == 1 && d.cfg n (F.PRT_ENTRY_QUEUE e) == q) || d.egr.tables.contains x

/-- A unit of no part yet. -/
def EgrUnit.blank : EgrUnit :=
  { kind := 0, src := 10, queue := 0, entry := 0, fmt := 0, panel := 0, start := 0, cfg := 0, f := none, room := 0, parts := [],
    win := none, drop := false, txn := 0 }

/-- The 32-byte payload of a dump end (R249). -/
def Dev.endPayload (d : Dev) (q f : Nat) : List Nat :=
  let c := d.dumpCounts q f
  padTo 32 0 (toBytes 4 c.1 ++ toBytes 4 c.2 ++ toBytes 4 (d.entriesTo (f - 1) q).length)

/-! ### Windows (R258 to R260) -/

def Dev.win (d : Dev) (w : Nat) : WinSt := Tab.get WinSt.init d.egr.wins w
def Dev.setWin (d : Dev) (w : Nat) (x : WinSt) : Dev := d.updEgr fun e => { e with wins := Tab.set WinSt.init e.wins w x }

/-- The words of a unit of dump f are copied into window w's filling buffer. A later dump replaces an earlier fill, which is
counted; words of an earlier dump than the fill's are not written (R259). -/
def Dev.winFill (d : Dev) (w f q : Nat) (ws : List (Nat × Nat)) : Dev :=
  let x := d.win w
  let put := fun (t : Tab Word) => ws.foldl (fun (t : Tab Word) (e : Nat × Nat) => Tab.set 0 t e.1 (BitVec.ofNat 64 e.2)) t
  match x.fill with
  | none => d.setWin w { x with fill := some (f, q, false), words := put [] }
  | some (g, _, done) =>
    if g = f then d.setWin w { x with words := put x.words }
    else if f < g then d
    else
      let d := if done then d.put (F.EGR_WIN_CTRL_WAITING w) 0 else d
      (d.bump (F.EGR_WIN_CTRL_SKIPPED w) 1).setWin w { x with fill := some (f, q, false), words := put [] }

/-- A completed fill is presented (R259). -/
def Dev.winShow (d : Dev) (w f : Nat) : Dev :=
  let x := d.win w
  let d := d.setWin w { shown := x.words, on := true, fill := none, words := [] }
  let d := ((d.flag (F.EGR_WIN_HDR_VALID w)).put (F.EGR_WIN_HDR_FRAME w) f).put (F.EGR_WIN_CTRL_WAITING w) 0
  d.put (F.EGR_WIN_SEQ_DUMP_SEQ w) ((d.dumpSeq f).getD 0)

/-- WIN_FILL_COMPLETE (R259): the dump at f is complete on queue q. -/
def Dev.winComplete (d : Dev) (q f : Nat) : Dev :=
  d.forN 16 fun d w =>
    let x := d.win w
    if x.fill = some (f, q, false) then
      if x.on then (d.setWin w { x with fill := some (f, q, true) }).flag (F.EGR_WIN_CTRL_WAITING w) else d.winShow w f
    else d

/-- WIN_RELEASE (R260): RELEASE of window w is written with 1. -/
def Dev.winRelease (d : Dev) (w : Nat) : Dev :=
  let x := d.win w
  if !x.on then d
  else
    let d := (d.setWin w { x with shown := [], on := false }).wrReg (R.EGR_WIN_HDR w) 0
    match x.fill with
    | some (f, _, true) => d.winShow w f
    | _ => d

/-! ### Dump ends (DUMP_END_SEND, R248, R249) -/

/-- The dump end of queue q is formed and waits behind the dump's other units. -/
def Dev.endDump (d : Dev) (q f : Nat) : Dev :=
  let u : EgrUnit := { EgrUnit.blank with kind := 4, queue := q, cfg := f - 1, f := some f, room := 32,
                                          parts := [{ off := 0xFFFFFFFF, hdr := [], bytes := List.replicate 32 0 }] }
  (d.updEgr fun e => { e with wait := e.wait ++ [u], ended := (q, f) :: e.ended }).winComplete q f

/-- Every dump that is complete on a queue ends there; a dump that has ended everywhere and of which no unit or table is left or due gives
up its number. -/
def Dev.checkDumps (d : Dev) : Dev :=
  let d := d.forL d.egr.numbers fun d (n : Nat × Nat) =>
    d.forL (d.dumpQueues (n.1 - 1)) fun d q =>
      if !d.egr.ended.contains (q, n.1) && d.dumpDone q n.1 then d.endDump q n.1 else d
  let due := fun (f : Nat) => (List.range 8).any fun k =>
    (d.isl k).tabs.any (fun t => t.close == f) || (d.isl k).toEgr.any fun i => match i with | .table _ g _ _ _ => g == f | _ => false
  let gone := d.egr.numbers.filter fun n =>
    !due n.1 && (d.dumpQueues (n.1 - 1)).all (fun q => d.egr.ended.contains (q, n.1))
      && !(d.egr.wait.any fun u => u.f == some n.1) && !(d.egr.queues.any fun e => e.2.any fun u => u.f == some n.1)
      && !(d.egr.wins.any fun w => match w.2.fill with | some (f, _, _) => f == n.1 | none => false)
  if gone.isEmpty then d
  else
    let old := fun (f : Nat) => gone.any fun n => n.1 == f
    d.updEgr fun e =>
      { e with
        numbers := e.numbers.filter fun n => !old n.1
        counts := e.counts.filter fun c => !old c.2.1
        ended := e.ended.filter fun x => !old x.2
        exact := e.exact.filter fun x => !old x.2
        tables := e.tables.filter fun x => !old x.2 }

/-- The dump at f takes the number in EGR.DUMP_SEQ.NEXT, which advances modulo 2^32 (R247). -/
def Dev.dumpNumber (d : Dev) (f : Nat) : Dev :=
  let n := d.get F.EGR_DUMP_SEQ_NEXT
  let d := (d.put F.EGR_DUMP_SEQ_NEXT (n + 1)).put F.EGR_DUMP_LAST_F_FRAME f
  (d.updEgr fun e => { e with numbers := e.numbers ++ [(f, n)] }).checkDumps

/-! ### Arrival and routing (R238 to R241, R257) -/

/-- The item at the head of a crossing into egress: islands 0 to 7, the memory island 8. -/
def Dev.egrItems (d : Dev) (src : Nat) : List EgrItem := if src < 8 then (d.isl src).toEgr else d.spill.toEgr
def Dev.popEgr (d : Dev) (src : Nat) : Dev :=
  if src < 8 then d.updIsl src fun x => { x with toEgr := x.toEgr.tail } else { d with spill := { d.spill with toEgr := d.spill.toEgr.tail } }

/-- Units of panel p whose close is not known belong to the close at f (R238); their window words are copied (R258). -/
def Dev.resolve (d : Dev) (p f : Nat) : Dev :=
  let mine := d.egr.wait.filter fun u => u.kind ≤ 1 && u.src < 8 && u.panel == p && u.f.isNone
  let d := d.updEgr fun e =>
    { e with wait := (e.wait.map fun u => if u.kind ≤ 1 && u.src < 8 && u.panel = p && u.f.isNone then { u with f := some f } else u).filter
                       fun u => !(u.drop && u.f.isSome) }
  d.forL mine fun d u =>
    if u.drop then d.countDropped { u with f := some f }
    else match u.win with | some (w, ws) => d.winFill w f u.queue ws | none => d

/-- A stopped panel's planes take their close from the item that follows them (R163). -/
def Dev.settleFix (d : Dev) (src : Nat) : Nat → Dev
  | 0 => d
  | fuel + 1 =>
    match d.egrItems src with
    | .fix p f :: _ => (((d.popEgr src).resolve p f).checkDumps).settleFix src fuel
    | _ => d

/-- A unit that fails R240 is discarded whole (R241); if its entry is enabled, its dump end counts it. -/
def Dev.routeErr (d : Dev) (n key who : Nat) (u : EgrUnit) : Dev :=
  let e := key % 32768
  let d := (d.bump F.EGR_ROUTE_ERR_CNT_COUNT 1).flag F.EGR_EVENTS_ROUTE_ERR
  let d := d.event F.EGR_EVENTS_ROUTE_ERR 0 [key, who]
  if d.cfg n (F.PRT_ENTRY_EN e) = 1 then
    let u := { u with queue := d.cfg n (F.PRT_ENTRY_QUEUE e), drop := true }
    match u.f with
    | some _ => d.countDropped u
    | none => d.updEgr fun x => { x with wait := x.wait ++ [u] }
  else d

/-- A plane reaches egress (R240 to R244, R246, R258). -/
def Dev.planeArrive (d : Dev) (src : Nat) (u : PlaneUnit) : Dev :=
  let n := u.start
  let e := u.key % 32768
  let ch := u.key / 65536 % 4096
  let kind := d.cfg n (F.PRT_ENTRY_KIND e)
  let first := d.cfg n (F.PRT_ENTRY_CH_FIRST e)
  let m1 := d.cfg n (F.PRT_ENTRY_CH_COUNT_M1 e)
  let side := layoutSide u.layout
  let base : EgrUnit := { EgrUnit.blank with kind := if kind = 1 then 1 else 0, src := src, entry := e, panel := u.panel, start := n, cfg := n, f := u.close }
  let ok := d.cfg n (F.PRT_ENTRY_EN e) = 1 && kind ≤ 1 && d.cfg n (F.PRT_ENTRY_LAYOUT e) = u.layout
    && (if kind = 0 then first ≤ ch && ch ≤ first + m1 else ch = first && (m1 + 1) % 4 = 0 && m1 + 1 ≤ side)
  if d.onchipBad 3 (8 * e) 8 then (d.onchipUe 3 (R.PRT_ENTRY e).addr).routeErr n u.key u.panel base
  else if !ok then d.routeErr n u.key u.panel base
  else
    let q := d.cfg n (F.PRT_ENTRY_QUEUE e)
    let order := d.cfg n (F.PRT_ENTRY_ORDER e)
    if kind = 0 then
      let fmt := d.cfg n (F.PRT_ENTRY_FMT e)
      let x := outPlane order fmt (d.cfg n (F.PRT_ENTRY_SHIFT e)) u.layout u.words
      let d := if x.2 = 0 then d else (d.bump F.EGR_CLIP_CNT_COUNT x.2).flag F.EGR_EVENTS_CLIP
      let win := if d.cfg n (F.PRT_ENTRY_WIN_EN e) = 1 && u.layout % 2 = 1 then
        some (d.cfg n (F.PRT_ENTRY_WIN e), winWords u.layout (ch - first) u.words) else none
      let out : EgrUnit := { base with queue := q, fmt := if fmt = 3 then 0 else fmt, room := x.1.length, win := win
                                       parts := [{ off := (ch - first) * unitBytes order fmt u.layout, hdr := [], bytes := x.1 }] }
      let d := d.updEgr fun s => { s with wait := s.wait ++ [out] }
      match u.close, win with
      | some f, some (w, ws) => d.winFill w f q ws
      | _, _ => d
    else
      let bb := d.cfg n (F.PRT_ENTRY_WIN e) + 16 * d.cfg n (F.PRT_ENTRY_WIN_EN e)
      let k := u.panel / 8
      let cnt := d.sampleCnt (d.icfg k n (F.ISL_BEAM_TAB_AG k bb)) n 0
      let ps := detectedParts order side (m1 + 1) bb first (d.cfg n F.ING_CT_CFG_FMT) cnt u.words
      d.updEgr fun s => { s with wait := s.wait ++ ps.map fun p => { base with queue := q, room := p.bytes.length, parts := [p] } }

/-- An occupancy table reaches egress (R240, R245, R349): a table that could not be read whole is sent with OVERFLOW set. -/
def Dev.tableArrive (d : Dev) (src k f start addr len : Nat) : Dev :=
  let n := f - 1
  let key := d.icfg k n (F.ISL_OCC_ROUTE_ROUTE k)
  let e := key % 32768
  let base : EgrUnit := { EgrUnit.blank with kind := 2, src := src, entry := e, panel := k, start := start, cfg := n, f := some f }
  let d := d.updEgr fun s => { s with tables := s.tables ++ [(k, f)] }
  if d.onchipBad 3 (8 * e) 8 then (d.onchipUe 3 (R.PRT_ENTRY e).addr).routeErr n key k base
  else if !(d.cfg n (F.PRT_ENTRY_EN e) = 1 && d.cfg n (F.PRT_ENTRY_KIND e) = 2) then d.routeErr n key k base
  else
    let r := d.memRead addr len
    let d := d.memReport r 10
    let bs := if r.err || !r.ue.isEmpty then setAt r.bytes 13 (r.bytes.getD 13 0 ||| 1) else r.bytes
    let bs := padTo (ceilDiv len 32 * 32) 0 bs
    d.updEgr fun s =>
      { s with wait := s.wait ++ [{ base with queue := d.cfg n (F.PRT_ENTRY_QUEUE e), room := bs.length, parts := [{ off := 0, hdr := [], bytes := bs }] }] }

/-! ### Queues (R250, R252, R488) -/

/-- EGRESS_UNIT_ARRIVE (R240): the plane or table at the head of a crossing reaches egress. -/
def Dev.egressUnitArrive (d : Dev) (src : Nat) : Dev :=
  if d.egrBlocked src then d
  else
    let d := d.settleFix src 64
    match d.egrItems src with
    | .plane u :: _ => ((d.popEgr src).planeArrive src u).dumpSettle
    | .table k f start addr len :: _ => if d.memBusy addr len then d else ((d.popEgr src).tableArrive src k f start addr len).checkDumps
    | _ => d

/-- CLOSE_NOTICE_ARRIVE (R248): the close notice at the head of a crossing reaches egress. -/
def Dev.closeNoticeArrive (d : Dev) (src : Nat) : Dev :=
  if d.egrBlocked src then d
  else
    let d := d.settleFix src 64
    match d.egrItems src with
    | .notice p f mem :: _ =>
      let d := d.popEgr src
      let d := if mem then d.updEgr fun e => { e with notices := Tab.upd (0, 0) e.notices p fun x => (x.1, max x.2 (f + 1)) }
        else (d.updEgr fun e =>
          { e with
            notices := Tab.upd (0, 0) e.notices p fun x => (max x.1 (f + 1), x.2)
            exact := if e.exact.contains (p / 8, f) then e.exact else e.exact ++ [(p / 8, f)] }).resolve p f
      d.checkDumps
    | _ => d

/-- A unit is dropped at its queue (R250, R252): counted by the queue and in its dump end, and a ring shows a gap. -/
def Dev.dropUnit (d : Dev) (u : EgrUnit) : Dev :=
  let d := (d.bump (F.EGR_Q_DROP_COUNT u.queue) 1).flag F.EGR_EVENTS_Q_DROP
  let d := d.countDropped u
  if d.qcfg u (F.EGR_QUEUE_DEST u.queue) = 2 then
    d.updEgr fun e => { e with rings := Tab.upd RingSt.init e.rings u.queue fun r => { r with gap := true } }
  else d

/-! ### Rings (R254 to R256) -/

def Dev.ring (d : Dev) (q : Nat) : RingSt := Tab.get RingSt.init d.egr.rings q
def Dev.setRing (d : Dev) (q : Nat) (r : RingSt) : Dev := d.updEgr fun e => { e with rings := Tab.set RingSt.init e.rings q r }

/-- The unit that the ring writer of q is writing. -/
def Dev.ringUnit (d : Dev) (q : Nat) : EgrUnit := ((d.queue q).head?).getD EgrUnit.blank

/-- The address of the writer's descriptor (R254). -/
def Dev.descAddr (d : Dev) (q : Nat) : Nat := d.qcfg (d.ringUnit q) (F.EGR_RING_CFG_BASE q) * 64 + 64 * d.get (F.EGR_RING_PTR_INDEX q)

/-- The part of a unit that is written next. A dump end's payload is formed as it starts (R249). -/
def Dev.nextPart (d : Dev) (u : EgrUnit) : EgrPart :=
  match u.parts with
  | p :: _ => if u.kind = 4 then { p with bytes := d.endPayload u.queue (u.f.getD 0) } else p
  | [] => { off := 0, hdr := [], bytes := [] }

/-- The header bytes 0 to 27 of a unit's data from a part on (R254). -/
def Dev.partHdr (d : Dev) (u : EgrUnit) (p : EgrPart) : List Nat :=
  if p.hdr.isEmpty then
    let f := u.f.getD 0
    productHdr u.queue ((d.dumpSeq f).getD 0) f (if u.kind = 4 then 0 else u.entry) p.off u.fmt
  else p.hdr

/-- The writer reads its descriptor: with OWN it writes data into the buffer, else it waits; a descriptor that cannot be
read halts the ring (R255, R256, R349). -/
def Dev.ringRead (d : Dev) (q : Nat) : Dev :=
  let a := d.descAddr q
  let r := d.memRead a 16
  let d := d.memReport r 10
  let x := d.ring q
  if r.err || !r.ue.isEmpty then (d.setRing q { x with phase := 5 }).put (F.EGR_RING_PTR_WAITING q) 0
  else if bitOf (r.bytes.getD 12 0) 0 then
    let buf := ofBytes (r.bytes.take 8) % 2 ^ 40
    let len := ofBytes ((r.bytes.drop 8).take 4) % 2 ^ 21
    let u := d.ringUnit q
    let bs := (d.nextPart u).bytes.take len
    let w := d.memStore 10 buf bs
    (w.1.setRing q { x with phase := 2, bad := w.2, polls := 0, buf := buf, len := bs.length, err := false }).put (F.EGR_RING_PTR_WAITING q) 0
  else (d.setRing q { x with phase := 1 }).flag (F.EGR_RING_PTR_WAITING q)

/-- An idle writer takes up the unit at the head of its queue; a ring whose BASE or LOG_N has changed restarts at INDEX 0
(R257). -/
def Dev.ringStart (d : Dev) (q : Nat) : Dev :=
  match d.queue q with
  | u :: _ =>
    if (d.ring q).phase = 0 && d.qcfg u (F.EGR_QUEUE_DEST q) = 2 && d.storeBad 4 then
      ((d.storeUe 4).countDropped u).setQueue q (d.queue q).tail
    else if (d.ring q).phase = 0 && d.qcfg u (F.EGR_QUEUE_DEST q) = 2 && !d.memBusy (d.descAddr q) 64 then
      let c := (d.qcfg u (F.EGR_RING_CFG_BASE q), d.qcfg u (F.EGR_RING_CFG_LOG_N q))
      let d := if (d.ring q).last = c then d else d.put (F.EGR_RING_PTR_INDEX q) 0
      (d.setRing q { d.ring q with polls := 0, last := c }).ringRead q
    else d
  | [] => d

/-- The descriptor that ring q is at reaches a channel that is TRAINING (R335). -/
def Dev.ringBusy (d : Dev) (q : Nat) : Bool := d.memBusy (d.descAddr q) 64

/-- RING_DESC_POLL (R256): 256 egress cycles later a waiting writer rereads its descriptor; a wait of more than 65,536
cycles is flagged. An idle writer that its memory held back starts. -/
def Dev.ringPoll (d : Dev) (q : Nat) : Dev :=
  let x := d.ring q
  if d.ringBusy q then d
  else if x.phase = 0 then d.ringStart q
  else if x.phase = 1 then
    let d := (d.setRing q { x with polls := x.polls + 1 }).ringRead q
    if x.polls + 1 = 256 && (d.ring q).phase = 1 then d.flag F.EGR_EVENTS_RING_WAIT else d
  else d

/-- RING_KICK (R256): a waiting writer rereads its descriptor at once; a halted one goes on with the unit at the head of its queue. -/
def Dev.ringKick (d : Dev) (q : Nat) : Dev :=
  let x := d.ring q
  if x.phase = 1 then (if d.ringBusy q then d else d.ringRead q)
  else if x.phase = 5 then (d.setRing q { x with phase := 0 }).ringStart q
  else d

/-- The unit has written `len` more bytes; what is left of it. -/
def EgrUnit.advance (u : EgrUnit) (len : Nat) : EgrUnit :=
  match u.parts with
  | [] => u
  | p :: rest =>
    let b := p.bytes.drop len
    { u with parts := if b.isEmpty then rest else { p with off := p.off + len, bytes := b } :: rest }

/-- Bytes 12 to 15 of a descriptor (R254): UNIT, GAP, ERR and CONT, with OWN clear. -/
def descStatus (kind : Nat) (gap err cont : Bool) : Nat := kind * 16 + b2n gap * 8 + b2n err * 4 + b2n cont * 2

/-- A write of ring q at address a met an error response (R256): it is flagged and recorded, and the rest of the unit is discarded,
which its first error counts. -/
def Dev.ringError (d : Dev) (q a : Nat) (first : Bool) : Dev :=
  let d := (d.flag F.EGR_EVENTS_RING_ERR).event F.EGR_EVENTS_RING_ERR 0 [q, a]
  if first then d.countDropped (d.ringUnit q) else d

/-- RING_WRITE_RESPONSE (R255, R256): the write outstanding in ring q receives its response. -/
def Dev.ringResponse (d : Dev) (q : Nat) : Dev :=
  let x := d.ring q
  let a := d.descAddr q
  let u := d.ringUnit q
  let p := d.nextPart u
  if d.ringBusy q then d
  else if x.phase = 2 then
    let d := if x.bad then d.ringError q x.buf true else d
    let w := d.memStore 10 (a + 16) (toBytes 4 x.len ++ d.partHdr u p ++ List.replicate 16 0)
    w.1.setRing q { x with phase := 3, bad := w.2, err := x.bad }
  else if x.phase = 3 then
    let d := if x.bad then d.ringError q (a + 16) (!x.err) else d
    let err := x.err || x.bad
    let rest := u.advance x.len
    let st := descStatus u.kind x.gap err (!err && !rest.parts.isEmpty)
    let w := d.memStore 10 (a + 12) (toBytes 4 st)
    w.1.setRing q { x with phase := 4, bad := w.2, err := err, gap := false }
  else if x.phase = 4 then
    if x.bad then
      let d := d.ringError q (a + 12) (!x.err)
      let d := d.setRing q { x with phase := 5, bad := false, gap := true }
      d.setQueue q (d.queue q).tail
    else
      let logn := d.qcfg u (F.EGR_RING_CFG_LOG_N q)
      let d := d.put (F.EGR_RING_PTR_INDEX q) ((d.get (F.EGR_RING_PTR_INDEX q) + 1) % 2 ^ logn)
      let d := d.setRing q { RingSt.init with last := x.last, gap := x.gap }
      let rest := u.advance x.len
      let d := if x.err || rest.parts.isEmpty then
          let d := d.setQueue q (d.queue q).tail
          match u.f with
          | some f => if x.err || u.kind = 4 then d else d.countDump q f 1 0
          | none => d
        else d.setQueue q (rest :: (d.queue q).tail)
      (d.ringStart q).checkDumps
  else d

/-! ### Entering a queue -/

/-- A unit enters its queue. -/
def Dev.enqueue (d : Dev) (u : EgrUnit) : Dev := (d.setQueue u.queue (d.queue u.queue ++ [u])).ringStart u.queue

/-- A voltage-beam sample of a frame before b for queue q is on its way to egress or being packed. -/
def Dev.beamOwes (d : Dev) (q b : Nat) : Bool :=
  let owes (k bb fb : Nat) : Bool := decide (fb < b) && d.icfg k fb (F.ISL_BEAM_TAB_QUEUE k bb) == q
  d.egr.packs.any (fun x => owes x.k x.bb x.fb)
    || (List.range 8).any fun k => (d.isl k).toEgr.any fun i => match i with | .beam _ bb fb _ _ _ _ => owes k bb fb | _ => false

/-- A unit under the outgoing configuration of a swap at b, of a dump or of a beam, has still to enter queue q (R257). -/
def Dev.queueOwes (d : Dev) (q b : Nat) : Bool :=
  d.egr.wait.any (fun u => u.queue == q && decide (u.cfg < b))
    || d.egr.numbers.any (fun n => decide (n.1 ≤ b) && !d.egr.ended.contains (q, n.1) && (d.dumpQueues (n.1 - 1)).contains q)
    || d.relay.any (fun i => match i with | .dump f => decide (f ≤ b) && (d.dumpQueues (f - 1)).contains q | _ => false)
    || d.beamOwes q b

/-- A unit may be the next to enter its queue: a queue whose configuration a swap changes takes every unit under its outgoing
configuration first (R257). -/
def Dev.unitDue (d : Dev) (u : EgrUnit) : Bool :=
  d.ing.outgoing.all fun (b, t) =>
    let new := (outgoingAt d.ing.outgoing b).getD d.regs
    let same := fun (r : Reg) => Tab.get 0 t r.addr == Tab.get 0 new r.addr
    u.cfg < b || (same (R.EGR_QUEUE u.queue) && same (R.EGR_RING_CFG u.queue)) || !d.queueOwes u.queue b

/-- QUEUE_ENTRY (R250, R252, R257, R488): the oldest ready unit that is due for queue q enters it, is held, dropped or suppressed. -/
def Dev.queueEntry (d : Dev) (q : Nat) : Dev :=
  match d.egr.wait.find? fun u => u.queue == q && d.unitReady u && d.unitDue u with
  | none => d
  | some u =>
    let out := d.updEgr fun e => { e with wait := e.wait.erase u }
    let dest := d.qcfg u (F.EGR_QUEUE_DEST q)
    if d.suppressed u then ((out.bump F.FO_SUPP_CNT_COUNT 1).checkDumps).dumpSettle
    else if dest ≠ 1 && dest ≠ 2 then ((out.dropUnit u).checkDumps).dumpSettle
    else if d.unitFits u then ((out.enqueue u).checkDumps).dumpSettle
    else if d.qcfg u (F.EGR_QUEUE_POLICY q) = 1 then ((out.dropUnit u).checkDumps).dumpSettle
    else d

/-! ### Lane groups (R74, R251, R485, R486) -/

/-- The transmit buffer of 32 blocks can take a frame (R65, R251): the frames that wait there leave room for it, or none waits. A frame of
up to 34 blocks passes through an empty buffer as it is sent (DESIGN CHOICE 27). -/
def LaneTx.takes (t : LaneTx) (blocks : Nat) : Bool :=
  t.queue.isEmpty || decide (sumN (t.queue.map fun f => f.data.length + 2) + blocks ≤ 32)

/-- The lanes of group g that are UP, unpaused and whose transmit buffer can take a frame of the given blocks (R251). -/
def Dev.groupLanes (d : Dev) (g blocks : Nat) : List Nat :=
  (List.range 96).filter fun n =>
    let t := (d.lane n).tx
    (d.laneRole n == roleEgress || d.laneRole n == roleC2C) && d.laneGroup n == g && d.laneUp n && t.pause.isNone && t.takes blocks

/-- The first item after `last` in ascending order, else the first of all. -/
def nextAfter (last : Nat) (l : List Nat) : Option Nat :=
  match l.find? fun n => last < n + 1 with
  | some n => some n
  | none => l.head?

/-- The queue that group g serves next and the frames left in its turn (R251). -/
def Dev.turnOf (d : Dev) (g : Nat) : Option (Nat × Nat) :=
  let heads := d.egr.queues.filterMap fun e => match e.2 with
    | u :: _ => if d.qcfg u (F.EGR_QUEUE_DEST e.1) = 1 && d.qcfg u (F.EGR_QUEUE_GROUP e.1) = g then some e.1 else none
    | [] => none
  let t := Tab.get (0, 0, 0) d.egr.turn g
  if t.2.1 ≠ 0 && heads.contains (t.1 - 1) then some (t.1 - 1, t.2.1)
  else (nextAfter t.1 heads).map fun q => (q, d.qcfg (d.ringUnit q) (F.EGR_QUEUE_WEIGHT_M1 q) + 1)

/-- Records a frame dealt of a transaction (R485). -/
def Dev.txnDealt (d : Dev) (id g q : Nat) (f : Option Nat) (last : Bool) : Dev :=
  d.updEgr fun e =>
    if e.txns.any fun t => t.id == id then
      { e with txns := e.txns.map fun t => if t.id = id then { t with dealt := t.dealt + 1, left := t.left + 1, all := last } else t }
    else { e with txns := e.txns ++ [Txn.mk id g q f 1 1 last] }

/-- EGRESS_FRAME_DEAL (R251): group g deals the next whole frame to a lane; a unit that cannot be read from the staging store
is discarded (R351). -/
def Dev.egressFrameDeal (d : Dev) (g : Nat) : Dev :=
  match d.turnOf g with
  | none => d
  | some (q, left) =>
    let u := d.ringUnit q
    if u.txn = 0 && d.storeBad 4 then (((d.storeUe 4).countDropped u).setQueue q (d.queue q).tail).checkDumps else
    let p := d.nextPart u
    let bs := p.bytes.take 1024
    let lanes := d.groupLanes g (ceilDiv bs.length 32 + 2)
    let t := Tab.get (0, 0, 0) d.egr.turn g
    match nextAfter t.2.2 lanes with
    | none => d
    | some n =>
      let id := if u.txn = 0 then d.egr.nextTxn else u.txn
      let d := if u.txn = 0 then d.updEgr fun e => { e with nextTxn := e.nextTxn + 1 } else d
      let rest := { u.advance 1024 with txn := id }
      let fr : TxFrame := { hdr := payloadOf (d.partHdr u p), data := blocksOf bs, unit := id, seq := 0, sends := 0, first := 0, sent := false }
      let d := d.updTx n fun t => { t with queue := t.queue ++ [fr] }
      let done : Bool := rest.parts.isEmpty
      let d : Dev := if d.replays n then d.txnDealt id g q (if u.kind = 4 then none else u.f) done else d
      let d : Dev := d.updEgr fun e => { e with turn := Tab.set (0, 0, 0) e.turn g (q + 1, left - 1, n + 1) }
      let d : Dev := if done then d.setQueue q (d.queue q).tail else d.setQueue q (rest :: (d.queue q).tail)
      let d : Dev := match u.f with
        | some f => if done && u.kind ≠ 4 then d.countDump q f 1 0 else d
        | none => d
      d.checkDumps

/-- Frames of lane n have been acknowledged: a transaction all of whose frames are is complete (R485). -/
def Dev.framesAcked (d : Dev) (fs : List TxFrame) : Dev :=
  d.forL fs fun d f => d.updEgr fun e =>
    { e with txns := (e.txns.map fun t => if t.id = f.unit then { t with left := t.left - 1 } else t).filter fun t => !(t.all && t.left == 0) }

/-- Lanes of a group. -/
def Dev.lanesOf (d : Dev) (g : Nat) : List Nat :=
  (List.range 96).filter fun n => (d.laneRole n == roleEgress || d.laneRole n == roleC2C) && d.laneGroup n == g

/-- The outstanding transactions of group g, of which `lanes` are lanes (R485): a frame has been acknowledged, or has been started and
is still buffered. -/
def Dev.txnsOut (d : Dev) (g : Nat) (lanes : List Nat) : List Txn :=
  d.egr.txns.filter fun t => t.group == g && (t.left < t.dealt || lanes.any fun n => (d.lane n).tx.replay.any fun f => f.unit == t.id)

/-- LINK_FAIL of group g, of which `lanes` are lanes (R486): every outstanding transaction ends once, with an error; its frames are not
sent, and the replay buffers are emptied. Gives also how many ended. -/
def Dev.linkFail (d : Dev) (g : Nat) (lanes : List Nat) : Dev × Nat :=
  let ids := d.txnsOut g lanes
  let has := fun (id : Nat) => ids.any fun t => t.id == id
  let d := d.put F.EGR_LINK_FAIL_GROUP (d.get F.EGR_LINK_FAIL_GROUP ||| 2 ^ g)
  let d := d.forL lanes fun d n =>
    d.updTx n fun t => { t with replay := [], resend := [], queue := t.queue.filter fun f => !has f.unit }
  let d := d.forL ids fun d t => match t.f with
    | some f =>
      let c := d.dumpCounts t.queue f
      if t.all && c.1 ≠ 0 then d.updEgr fun e =>
        { e with counts := (t.queue, f, c.1 - 1, c.2 + 1) :: e.counts.filter fun x => !(x.1 == t.queue && x.2.1 == f) }
      else d.countDump t.queue f 0 1
    | none => d
  let d := d.updEgr fun e =>
    { e with
      txns := e.txns.filter fun t => !has t.id
      queues := e.queues.filterMap fun x => match x.2.filter fun u => !(u.txn != 0 && has u.txn) with | [] => none | l => some (x.1, l) }
  (d.checkDumps, ids.length)

/-- The frame of a transmit half whose replay is exhausted (R112): the next one to resend, where it would be sent a tenth time, else the
oldest buffered frame that has been transmitted, whose 2 µs are over. -/
def LaneTx.exhausted (t : LaneTx) : Option TxFrame :=
  match t.resend with
  | f :: _ => if 9 ≤ f.sends then some f else t.replay.find? fun f => 0 < f.sends
  | [] => t.replay.find? fun f => 0 < f.sends

/-- REPLAY_EXHAUSTED (R112, R113, R486): a buffered frame of lane n is exhausted. -/
def Dev.replayExhausted (d : Dev) (n : Nat) : Dev :=
  match (d.lane n).tx.exhausted with
  | none => d
  | some f =>
    if !d.replays n || !d.laneUp n || (d.lane n).tx.pause.isSome then d
    else
      let g := d.laneGroup n
      let x := d.linkFail g (d.lanesOf g)
      let d := x.1.laneDown n
      let d := d.updLane n fun l => { l with rotDue := none, tx := { l.tx with cur := none } }
      let cycles := (d.ticks - f.first) * 12 / 5
      d.append ⟨5, R.EGR_LINK_FAIL.block, n, .bytes (toBytes 6 (d.get F.ING_FRAME_HEAD_HEAD) ++ [g, n] ++ toBytes 2 f.seq
        ++ [f.sends - 1, 0] ++ toBytes 4 cycles ++ toBytes 4 x.2), false⟩

/-- LANE_ROTATION_REMOVE (R74, R113): lane n, which left UP, leaves the rotation of its group g at a frame boundary. A lane that is UP
again by then stays (DESIGN CHOICE 106). -/
def Dev.laneRotationRemove (d : Dev) (n : Nat) : Dev :=
  match (d.lane n).rotDue with
  | none => d
  | some g =>
    let t := (d.lane n).tx
    let d := d.updLane n fun l => { l with rotDue := none }
    if d.laneUp n then d
    else if d.is (F.EGR_GROUP_CFG_REPLAY g) then
      let others := (d.lanesOf g).filter fun m => m != n && d.laneUp m
      let frames := (t.replay ++ t.queue).map fun f => { f with seq := 0, sends := 0, first := 0, sent := false }
      match others with
      | [] => if (d.txnsOut g (n :: d.lanesOf g)).isEmpty then d else (d.linkFail g (n :: d.lanesOf g)).1.updTx n fun t => { t with cur := none }
      | _ =>
        let d := d.updTx n fun t => { t with replay := [], resend := [], queue := [], cur := none }
        d.forL frames.zipIdx fun d (e : TxFrame × Nat) =>
          d.updTx (others.getD (e.2 % others.length) 0) fun t => { t with queue := t.queue ++ [e.1] }
    else
      let lost := t.queue.length + b2n t.cur.isSome
      (d.updTx n fun t => { t with queue := [], cur := none }).bump (F.EGR_GROUP_LOST_COUNT g) lost

/-! ### Voltage beams (R224, R225) -/

/-- T_F: time indices in a BEAM frame of island k for frame n (R224). -/
def Dev.beamTimes (d : Dev) (k n : Nat) : Nat :=
  max 1 (16 * (d.icfg k n (F.ISL_BEAM_CFG_LEN_BLK k) + 1) / max 1 (d.chCount n k))

/-- Whether T_F is a whole number that divides 4,096 (R224). -/
def Dev.beamTimesOk (d : Dev) (k n : Nat) : Bool :=
  let cells := 16 * (d.icfg k n (F.ISL_BEAM_CFG_LEN_BLK k) + 1)
  let c := max 1 (d.chCount n k)
  cells % c == 0 && 4096 % max 1 (cells / c) == 0

/-- A full pack becomes one BEAM frame for each beam of its block (R104, R224, R225). -/
def Dev.packDone (d : Dev) (x : BeamPack) : Dev :=
  let n := x.fb
  let k := x.k
  let gang := d.cfg n F.ING_CT_CFG_FMT
  let count := d.chCount n k
  let cells := count * d.beamTimes k n
  let units := ceilDiv cells 16
  let bad := (List.range units).filter fun j => x.bad.any fun i => i / 16 == j
  let valid := 2 ^ units - 1 - sumN (bad.map fun j => 2 ^ j)
  let cnt := d.sampleCnt (d.icfg k n (F.ISL_BEAM_TAB_AG k x.bb)) n x.t0
  d.forN (planeSide gang) fun d c =>
    let ok := d.beamTimesOk k n
    let bs := ((List.range cells).map fun i => toBytes 2 ((Tab.get [] x.codes i).getD c 0)).flatten
    let bs := if ok then bs else (List.range bs.length).map fun i => Config.beamByte d.free i % 256
    let cnt := if ok then cnt else Config.beamByte d.free bs.length
    let valid := if ok then valid else Config.beamByte d.free (bs.length + 1)
    let d := if ok then d else d.fresh
    let u : EgrUnit := { EgrUnit.blank with
      kind := 3, src := k, queue := d.icfg k n (F.ISL_BEAM_TAB_QUEUE k x.bb), panel := k, start := n, cfg := n, room := bs.length
      parts := [{ off := 0, hdr := beamHdr (beamNumber gang x.bb c) 0 1 cnt (d.chFirst n k) count valid, bytes := bs }] }
    (d.updEgr fun e => { e with wait := e.wait ++ [u] }).bump (F.ISL_BEAM_CNT_COUNT k 4) (16 * bad.length)

/-- Each output of the monitor whose source is a beam of the block takes its sample as egress receives it (R453). -/
def Dev.monBeam (d : Dev) (k bb fb ch t : Nat) (bad : Bool) (samples : List (Nat × Nat)) : Dev :=
  let gang := d.cfg fb F.ING_CT_CFG_FMT
  let cnt := d.sampleCnt (d.icfg k fb (F.ISL_BEAM_TAB_AG k bb)) fb t
  d.forN 2 fun d o =>
    let beam := d.get (F.MON_SRC_INDEX o)
    let c := beam - beamNumber gang bb 0
    if d.active && d.is (F.MON_SRC_KIND o) && d.get (F.MON_SRC_CHANNEL o) = d.chFirst fb k + ch && beamNumber gang bb 0 ≤ beam && c < planeSide gang then
      let v : Int × Int := match samples[c]? with
        | some s => if bad then (0, 0) else (sext 8 s.1, sext 8 s.2)
        | none => (0, 0)
      let x := Tab.get MonSt.init d.mon o
      let m : MonSrc := { cnt := cnt, left := 1, at_ := 0, codes := [(0, v)] }
      { d with mon := Tab.set MonSt.init d.mon o { x with src := x.src ++ [m] } }
    else d

/-- BEAM_SAMPLE_ARRIVE (R224): the samples of one beam block, channel and time at the head of island k's crossing are packed. -/
def Dev.beamSampleArrive (d : Dev) (k : Nat) : Dev :=
  if d.egrBlocked k then d
  else
    let d := d.settleFix k 64
    match d.egrItems k with
    | .beam _ bb fb ch t bad samples :: _ =>
      let d := (d.popEgr k).monBeam k bb fb ch t bad samples
      let tf := d.beamTimes k fb
      let t0 := t / tf * tf
      let i := (t - t0) * d.chCount fb k + ch
      let same := fun (x : BeamPack) => x.k == k && x.bb == bb && x.fb == fb && x.t0 == t0
      let x := (d.egr.packs.find? same).getD { k := k, bb := bb, fb := fb, t0 := t0, seen := [], codes := [], bad := [] }
      let x := { x with
        seen := if x.seen.contains i then x.seen else x.seen ++ [i]
        codes := Tab.set [] x.codes i (samples.map fun s => s.1 + 256 * s.2)
        bad := if bad && !x.bad.contains i then x.bad ++ [i] else x.bad }
      let rest := d.egr.packs.filter fun y => !same y
      if d.chCount fb k * tf ≤ x.seen.length then (d.updEgr fun e => { e with packs := rest }).packDone x
      else d.updEgr fun e => { e with packs := rest ++ [x] }
    | _ => d

end Sys2Proof.Machine
end

