-- ==== Sys2Proof/Machine/Boundary.lean ====
section
/-! DEFINITION. Frame boundaries at ingest (R55 to R59): slot-mask commits (R125, R126), drains (R186), swaps and stops (R278 to
R281), dump markers (R247), and what is told of a frame that has completed (R316, R453). -/
namespace Sys2Proof.Machine

/-- Between its first and last HANDOVER a chip starts no frame on its EGRESS lanes (R116). -/
def Dev.inGap (d : Dev) : Bool := match d.fo.gap with | some g => g.sent | none => false

/-- From the start of a switchover the lanes of GROUPS complete the frame in progress and start none before the first HANDOVER (R489). -/
def Dev.switching (d : Dev) (n : Nat) : Bool :=
  d.fo.gap.isSome && (d.laneRole n == roleEgress || d.laneRole n == roleC2C) && bitOf (d.get F.FO_CFG_GROUPS) (d.laneGroup n)

/-! ### Banks read before they are installed -/

/-- A field in a table of registers. -/
def fieldIn (t : Tab Word) (f : RF) : Nat := bitsOf (Tab.get 0 t f.reg.addr ^^^ BitVec.ofNat 64 f.reg.reset).toNat f.hi f.lo

/-- A 32-bit word of a register as a bank gives it: what the image writes, else the reset value's (R270). -/
def PatBank.word (b : PatBank) (r : Reg) (off : Nat) : Nat :=
  match b.words.find? fun e => e.1 == r.addr + off with
  | some e => e.2
  | none => r.reset / 2 ^ (8 * off) % 2 ^ 32

/-- A pattern-loaded field as a bank gives it. -/
def PatBank.field (b : PatBank) (f : RF) : Nat := bitsOf (b.word f.reg 0 + 2 ^ 32 * b.word f.reg 4) f.hi f.lo

/-- The SDRAM regions of a bank as (kind, first, end), those that it gives a size: the corner turn, the spill region with its
check region, the capture ring, each island's weight, phase and occupancy tables, and the descriptor rings (R284). -/
def PatBank.regions (b : PatBank) : List (Nat × Nat × Nat) :=
  let ct := b.field F.ING_CT_BASE_BASE * 4096
  let size := b.field F.ING_CT_CFG_DEPTH * b.field F.ING_CT_CFG_STREAMS * 4096 * b.field F.ING_CT_CFG_NUM_CH * (b.field F.ING_CT_CFG_FMT + 1)
  let lo := b.field F.MEM_SPILL_BASE_BASE * 65536
  let hi := b.field F.MEM_SPILL_LIMIT_LIMIT * 65536
  let chk := b.field F.ECC_SPILL_CHK_BASE * 8192
  let ring := b.field (F.CAP_RING_BASE_BASE 0) * 64
  let cap := b.field F.CAP_CFG_EN * b.field (F.CAP_RING_GEOM_SEGS 0) * b.field (F.CAP_RING_GEOM_SEG_UNITS 0) * 64
  let isl := (List.range 8).map fun k =>
    let w := b.field (F.ISL_WEIGHT_BASE_BASE k) * 64
    let ph := b.field (F.ISL_PHASE_BASE_BASE k) * 32
    let oc := b.field (F.ISL_OCC_BASE_BASE k) * 64
    [(8 + k, w, w + 2 * 64 * b.field (F.ISL_WEIGHT_CFG_BANK_STRIDE k)),
     (16 + k, ph, ph + (if b.field (F.ISL_PHASE_CFG_NBINS k) = 0 then 0 else 4 * 32 * ceilDiv (b.field (F.ING_CH_BLOCK_COUNT k)) 16)),
     (24 + k, oc, oc + 4 * 64 * b.field (F.ISL_OCC_CFG_SIZE k))]
  let rings := (b.words.filter fun e => (R.EGR_RING_CFG 0).addr ≤ e.1 && e.1 < (R.EGR_RING_CFG 4096).addr && e.1 % 16 == 0).map fun e =>
    let q := (e.1 - (R.EGR_RING_CFG 0).addr) / 16
    let a := b.field (F.EGR_RING_CFG_BASE q) * 64
    (32 + q, a, a + 64 * 2 ^ b.field (F.EGR_RING_CFG_LOG_N q))
  ([(0, ct, ct + size), (1, lo, hi), (2, chk, chk + (hi - lo) / 8), (3, ring, ring + cap)] ++ isl.flatten ++ rings).filter fun r => r.2.1 < r.2.2

/-- The range that two regions share, if they do. -/
def sharedRange (a b : Nat × Nat × Nat) : Option (Nat × Nat) :=
  let lo := max a.2.1 b.2.1
  let hi := min a.2.2 b.2.2
  if lo < hi then some (lo, hi) else none

/-- The ranges that regions of a pattern share with one another, or with other regions of the outgoing pattern (R134, R284). -/
def clashes (old new : List (Nat × Nat × Nat)) : List (Nat × Nat) :=
  (new.zipIdx.map fun e => (new.drop (e.2 + 1)).filterMap (sharedRange e.1)).flatten
    ++ (new.map fun x => (old.filter (· != x)).filterMap (sharedRange x)).flatten

/-- Ingest's grid copies under a bank whose grids start at frame a: (a, frames per integration) of every panel that is not
OFF (R43, R247). -/
def bankGrids (b : Option PatBank) (a : Nat) : Tab (Nat × Nat) :=
  match b with
  | none => []
  | some b => (List.range 64).filterMap fun p =>
    if b.field (F.PNL_CFG_MODE p) = 0 then none
    else
      let lm := max 1 (b.field (F.PNL_INT_CFG_RUN_FRAMES p)) * max 1 (b.field (F.PNL_INT_CFG_RUNS p))
      some (p, (a, lm))

/-! ### Live slot masks (R125, R126) -/

/-- The live masks that ING.SLOT_MASK holds, as complements by input group. -/
def Dev.maskRegs (d : Dev) : Tab Word :=
  d.regs.filterMap fun e =>
    if 0xF000A01800 ≤ e.1 && e.1 < 0xF000A01800 + 128 * 8 then some ((e.1 - 0xF000A01800) / 8, e.2) else none

/-- Whether the live bit of a slot that holds a stream for frame n differs between two sets of masks (R58 step 7). -/
def Dev.masksDiffer (d : Dev) (n : Nat) (a b : Tab Word) : Bool :=
  (d.mapped n).any fun s =>
    let ig := d.cfg n (F.ING_SIG_ENTRY_IG s)
    let k := d.cfg n (F.ING_SIG_ENTRY_SLOT s)
    bitOf (Tab.get 0 a ig).toNat k != bitOf (Tab.get 0 b ig).toNat k

/-- The slot-mask commit due at n is latched (SLOT_MASK_LATCH, R126) and sent to every island. -/
def Dev.latchMasks (d : Dev) (n : Nat) : Dev :=
  match d.ing.slotAt with
  | none => d
  | some f =>
    if n < f then d
    else
      let old := inForce [] d.ing.masks n
      let new : Tab Word := (List.range 128).filterMap fun ig =>
        let m := ~~~(d.rdReg (R.ING_SLOT_MASK_SH ig))
        if m = 0 then none else some (ig, m)
      let d := { d with ing := { d.ing with slotAt := none, masks := (n, new) :: d.ing.masks } }
      let d := d.forN 128 fun d ig => d.wrReg (R.ING_SLOT_MASK ig) (~~~(Tab.get 0 new ig))
      let d := (d.put F.ING_SLOT_STATUS_PENDING 0).flag F.ING_SLOT_STATUS_APPLIED
      let changed := d.masksDiffer n old new
      d.forN 8 fun d k => d.sendIsl k (.mask n changed)

/-! ### Capture across swaps and stops (R325) -/

/-- The region's state, and whether it is in use. -/
def Dev.rgnState (d : Dev) (r : Nat) : Nat := d.get (F.CAP_RGN_CTRL_STATE r)

/-- Region r ends as at a stop at f: END is lowered to 16f − 1 and it becomes FROZEN (R325). -/
def Dev.rgnEndAt (d : Dev) (r f : Nat) : Dev :=
  if d.rgnState r = 1 then
    let e := d.get (F.CAP_RGN_END_SEQ r)
    let d := if 16 * f ≤ e then (d.put (F.CAP_RGN_END_SEQ r) (16 * f - 1)).flag (F.CAP_RGN_CTRL_SHORT r) else d
    (d.put (F.CAP_RGN_CTRL_STATE r) 2).flag F.CAP_EVENTS_FROZEN
  else d

/-- What a swap or stop at f does to the capture ring, the outgoing registers being `old` (R325). -/
def Dev.capSwap (d : Dev) (f : Nat) (old : Tab Word) : Dev :=
  let same := fun (x : RF) => fieldIn old x == d.get x
  let keep1 := (d.wrReg (R.CAP_RING_BASE 1) (Tab.get 0 old (R.CAP_RING_BASE 1).addr)).wrReg (R.CAP_RING_GEOM 1) (Tab.get 0 old (R.CAP_RING_GEOM 1).addr)
  if fieldIn old F.CAP_CFG_EN = 0 then
    if d.is F.CAP_CFG_EN then
      let d := (keep1.put F.CAP_HEAD_SEQ_SEQ (16 * f)).put F.CAP_NEXT_SEQ_SEQ (16 * f)
      { d with cap := { d.cap with frames := f, early := [], heads := [], stopAt := none, switchAt := none, old := [] } }
    else keep1
  else if !d.is F.CAP_CFG_EN then
    let d := keep1.forN 8 fun d r => d.rgnEndAt r f
    { d with cap := { d.cap with stopAt := some f, old := (f, old) :: d.cap.old } }
  else if same (F.CAP_RING_BASE_BASE 0) && same (F.CAP_RING_GEOM_SEGS 0) && same (F.CAP_RING_GEOM_SEG_UNITS 0)
      && same F.CAP_CFG_KIND && same F.CAP_CFG_AG then { keep1 with cap := { keep1.cap with old := (f, old) :: keep1.cap.old } }
  else
    let lost := (List.range 8).filter fun r => d.rgnState r != 0 && d.is (F.CAP_RGN_CTRL_OLD r)
    let d := d.forL lost fun d r => (d.wrReg (R.CAP_RGN_CTRL r) 0).flag (F.CAP_RGN_CTRL_LOST r)
    let d := if lost.isEmpty then d else d.event (F.CAP_RGN_CTRL_LOST (lost.headD 0)) 0 lost
    let d := d.forN 8 fun d r => if d.rgnState r = 0 then d else (d.rgnEndAt r f).flag (F.CAP_RGN_CTRL_OLD r)
    let d := d.wrReg (R.CAP_RING_BASE 1) (Tab.get 0 old (R.CAP_RING_BASE 0).addr)
    let d := d.wrReg (R.CAP_RING_GEOM 1) (Tab.get 0 old (R.CAP_RING_GEOM 0).addr ||| 1)
    let anew := fieldIn old F.CAP_CFG_KIND = 1 && !d.is F.CAP_CFG_KIND
    { d with cap := { d.cap with
        switchAt := some f, old := (f, old) :: d.cap.old, frames := if anew then f else d.cap.frames, early := if anew then [] else d.cap.early } }

/-! ### Swaps and stops (R41, R80, R125, R270, R278 to R281) -/

/-- Installs the registers of ingest and the device-wide bank; a group with members in the outgoing pattern keeps its
epoch (R41). -/
def Dev.installWide (d : Dev) (b : Option PatBank) (had : List Nat) : Dev :=
  let skip := fun (a : Nat) => had.any fun g => (R.ING_AG_EPOCH_SC g).addr ≤ a && a < (R.ING_AG_EPOCH_SC g).addr + 8
  let d := { d with sd := { d.sd with bad := d.sd.bad.filter fun e => e.1 != 2 && e.1 != 3 } }
  (d.installRange b 0xF000000000 0xF002000000 skip).installRange b 0xF002800000 0xF100000000 skip

/-- The DEVICE section of a bank: mode, chip and test generator (R267). -/
def Dev.installMode (d : Dev) (b : PatBank) : Dev :=
  let d := ((d.wrReg R.DEV_MODE 0).put F.DEV_MODE_MODE b.mode).put F.DEV_MODE_CHIP b.chip
  (((d.wrReg R.DEV_TEST_CFG 0).put F.DEV_TEST_CFG_GEN b.gen).put F.DEV_TEST_CFG_RE b.re).put F.DEV_TEST_CFG_IM b.im

/-- Whether the corner-turn layout differs from that of an outgoing pattern's registers: CT_BASE, DEPTH, STREAMS, C, the sample format
and every channel block (R134). -/
def Dev.layoutMoved (d : Dev) (old : Tab Word) : Bool :=
  let same := fun (r : Reg) => Tab.get 0 old r.addr == Tab.get 0 d.regs r.addr
  !(same R.ING_CT_CFG && same R.ING_CT_BASE && (List.range 8).all fun k => same (R.ING_CH_BLOCK k))

/-- Every lane acts as R80 lays down, given the LANE.CFG it had. -/
def Dev.swapLanes (d : Dev) (old : Tab Word) : Dev :=
  d.forN 96 fun d n =>
    let o := (Tab.get 0 old (R.LANE_CFG n).addr ^^^ BitVec.ofNat 64 (R.LANE_CFG n).reset).toNat
    d.laneSwap n o (d.rdReg (R.LANE_CFG n)).toNat

/-- The oldest frame of a group whose deadline has not passed, under its newest map (R48). -/
def Dev.foldNow (d : Dev) (g n : Nat) : Nat :=
  let m := ((d.group g).maps.head?.map (·.2)).getD TimeMap.reset
  (firstFrameAfter m (d.epoch g + 4096 + d.window n g) d.viewIng).getD n

/-- A group starts afresh under a new epoch: it holds no frame and its newest map is in force. -/
def Dev.freshGroup (d : Dev) (g fold : Nat) : Dev :=
  let x := d.group g
  d.setGroup g { x with maps := x.maps.take 1 |>.map fun (e : Nat × TimeMap) => (0, e.2), frames := [], fold := fold }

/-- SWAP_START: at boundary n ingest takes up the incoming bank (none: no pattern, a stop) for frames from n on. -/
def Dev.swapAt (d : Dev) (n : Nat) (b : Option PatBank) : Dev :=
  let old := d.regs
  let had := (List.range 64).filter fun g => (d.mapped n).any fun s => d.sigGroup n s == g
  let d := { d with ing := { d.ing with outgoing := (n, old) :: d.ing.outgoing, stopAt := if b.isNone then some n else none }
                    pat := { d.pat with
                      next := d.pat.next ++ [(n, b)], grids := bankGrids b n
                      regions := match b with | some b => b.regions | none => []
                      clash := match b with | some b => clashes d.pat.regions b.regions | none => d.pat.clash } }
  let d := d.installWide b had
  let d := if b.isSome && d.layoutMoved old then { d with ing := { d.ing with layout := n } } else d
  let d := { d with ing := { d.ing with masks := (n, d.maskRegs) :: d.ing.masks } }
  let d := d.forN 64 fun d g => if had.contains g || (d.members n g).isEmpty then d else d.freshGroup g (max n (d.foldNow g n))
  let d := d.forN 64 fun d g => d.put (F.ING_AG_STATUS_OUT_STREAMS g) ((d.members n g).filter fun s => d.is (F.ING_STREAM_ST_OUT s)).length
  let d := match b with | some b => (d.installMode b).swapLanes old | none => d
  let id := match d.pat.next.dropLast.getLast? with | some (_, some x) => Tab.set 0 old R.PAT_ACTIVE_ID.addr (BitVec.ofNat 64 x.id) | _ => old
  let d := d.capSwap n id
  let d := match b with | some b => if b.broken.contains 8 then d.hwStop else d | none => d
  d.forN 8 fun d k =>
    if (d.isl k).held then (d.installIsl k n b).clockMove k else d.sendIsl k (.swap n b.isNone)

/-- Whether a panel closes an integration at n: on its grid, at a swap or stop, or at a drain of its island (R247). -/
def Dev.dumpBoundary (d : Dev) (n : Nat) (swap : Bool) (mask : Nat) : Bool :=
  d.pat.grids.any fun e => e.2.1 < n && (swap || bitOf mask (e.1 / 8) || (n - e.2.1) % max 1 e.2.2 == 0)

/-- The commits due as ING.FRAME_HEAD reaches n: drains are delivered (DRAIN_DELIVER), a swap or a stop starts, the slot
masks are latched, and a dump marker goes to egress if n is a dump boundary (R57, R58, R186, R247, R277, R281). -/
def Dev.commitsAt (d : Dev) (n : Nat) : Dev :=
  let drain := (d.spill.drainsAt.find? fun x => x.1 == n).map (·.2)
  let stop := d.pat.stop == some n
  let swap := d.pat.armed == some n
  let d := if d.dumpBoundary n (stop || swap) (drain.getD 0) && !d.egrHeld then { d with relay := d.relay ++ [.dump n] } else d
  let d := match drain with
    | none => d
    | some mask =>
      let d := { d with
        spill := { d.spill with drainsAt := d.spill.drainsAt.filter fun x => x.1 ≠ n, drains := d.spill.drains ++ [(n, mask)] }
        pat := { d.pat with grids := d.pat.grids.map fun (e : Nat × Nat × Nat) => if bitOf mask (e.1 / 8) then (e.1, (n, e.2.2)) else e } }
      let d := d.showDrains
      d.forN 8 fun d k => if bitOf mask k then d.sendIsl k (.drain n) else d
  let d :=
    if swap then
      let d := if stop then (d.flag F.PAT_EVENTS_REFUSED).put F.PAT_STATUS_STOP_PEND 0 else d
      let b := d.pat.shadow
      let d := { d with pat := { d.pat with armed := none, shadow := none, stop := if stop then none else d.pat.stop } }
      (d.put F.PAT_STATUS_STATE 4).swapAt n b
    else if stop then
      let d := if d.pat.armed.isSome then (d.put F.PAT_STATUS_STATE 2).flag F.PAT_EVENTS_CANCELLED else d
      let d := { d with pat := { d.pat with armed := none, stop := none } }
      (d.put F.PAT_STATUS_STOP_PEND 0).swapAt n none
    else d
  d.latchMasks n

/-! ### What is told of a completed frame (R316, R319, R453) -/

/-- The monitor output's signal-channel source: the channel's positions as they stand in the corner turn (R453). -/
def Dev.monFrame (d : Dev) (g n o : Nat) : Dev :=
  let s := d.get (F.MON_SRC_INDEX o)
  let c := d.get (F.MON_SRC_CHANNEL o)
  if d.active && !d.is (F.MON_SRC_KIND o) && (d.mapped n).contains s && d.sigGroup n s = g && c < d.numCh n then
    let fmt := d.cfg n F.ING_CT_CFG_FMT
    match d.chOwner n c with
    | none => d
    | some k =>
      let codes : Tab (Int × Int) := (List.range 4096).filterMap fun t =>
        let v := sampleParts fmt (d.ctRead n (d.sigCt n s) k t c)
        let v := if fmt = 0 then (16 * v.1, 16 * v.2) else v
        if v = (0, 0) then none else some (t, v)
      let x := Tab.get MonSt.init d.mon o
      let m : MonSrc := { cnt := d.sampleCnt g n 0, left := 4096, at_ := 0, codes := codes }
      { d with mon := Tab.set MonSt.init d.mon o { x with src := x.src ++ [m] } }
  else d

/-- Frame n of group g has completed: the capture engine and the monitor are told. -/
def Dev.frameDone (d : Dev) (g n : Nat) : Dev :=
  let d := if d.cfg n F.CAP_CFG_EN = 1 && d.cfg n F.CAP_CFG_KIND = 0 && d.cfg n F.CAP_CFG_AG = g then
    { d with cap := { d.cap with items := d.cap.items ++ [CapItem.done n] } } else d
  (d.monFrame g n 0).monFrame g n 1

/-- A signal sample that a tap names goes to the capture engine as it is placed (R316). -/
def Dev.capSig (d : Dev) (n ct c t : Nat) (code : Option Nat) : Dev :=
  if d.cfg n F.CAP_CFG_EN = 1 && d.cfg n F.CAP_CFG_KIND = 0 &&
      (List.range 4096).any (fun i => d.cfg n (F.CAP_TAP_EN i) == 1 && d.cfg n (F.CAP_TAP_INDEX i) == ct && d.cfg n (F.CAP_TAP_CHANNEL i) == c) then
    { d with cap := { d.cap with items := d.cap.items ++ [CapItem.sig n ct c t code] } }
  else d

end Sys2Proof.Machine
end

