-- ==== Sys2Proof/Machine/Ingest.lean ====
section
/-! DEFINITION. The ingest island: opening and completing frames, underrun, frame checks and placement, corner-turn
writes, statistics records, and the posts it checks (chapters 02 and 05, R381, R383). -/
namespace Sys2Proof.Machine

/-! ### Frame tail and statistics -/

/-- The alignment groups in use for frame n: those with member streams (R46). -/
def Dev.groupsInUse (d : Dev) (n : Nat) : List Nat := (List.range 64).filter fun g => (d.mapped n).any fun s => d.sigGroup n s == g

/-- The lowest frame of a group that has not completed, from `n` on, looking at `fuel` frames (R49). -/
def GroupSt.tail (g : GroupSt) : Nat → Nat → Nat
  | 0, n => n
  | fuel + 1, n => if (Tab.get GroupFrame.init g.frames n).done then g.tail fuel (n + 1) else n

/-- The lowest frame of group g that has not completed, if the group is in use for it: the outgoing pattern's groups are in use below its
boundary and the incoming one's from there on (R60, R134). -/
def Dev.groupTail (d : Dev) (g : Nat) : Option Nat :=
  let n := (d.group g).tail 64 (max (d.group g).fold d.ing.first)
  (n :: (d.ing.outgoing.reverse.map (·.1)).filter (n < ·)).find? fun b => !(d.members b g).isEmpty

/-- ING.FRAME_TAIL: the lowest frame, over all groups in use, that has not completed; the boundary of a stop once every frame below it
has (R60). -/
def Dev.updTail (d : Dev) : Dev :=
  if d.ing.opened.isNone then d
  else match (List.range 64).filterMap d.groupTail, d.ing.stopAt with
    | [], none => d
    | [], some f => d.put F.ING_FRAME_TAIL_TAIL f
    | tails, _ => d.put F.ING_FRAME_TAIL_TAIL (tails.foldl min (2 ^ 48 - 1))

/-- The mark of a position that was filled valid and whose corner-turn write failed (R383): no code of 16 bits has it. -/
def posLost : Nat := 65538

/-- Whether a position's mark says that it is filled valid (R122, R130). -/
def posValid (v : Nat) : Bool := 2 ≤ v && v < posLost

/-- Sums N, S1 and S2 of one channel of a stream's frame over its valid positions (R128). -/
def chanSums (fmt c : Nat) (pos : Tab Nat) : Nat × Nat × Nat :=
  pos.foldl (fun x e =>
    if e.1 % 4096 = c && posValid e.2 then
      let p := sampleParts fmt (e.2 - 2)
      let w := (p.1 * p.1 + p.2 * p.2).toNat
      (x.1 + 1, x.2.1 + w, x.2.2 + w * w)
    else x) (0, 0, 0)

/-- The statistics record of stream s, channel c, frame n (R129). -/
def Dev.statRec (d : Dev) (n s c : Nat) : StatRec :=
  let g := d.sigGroup n s
  let f := d.streamFrame g n s
  let x := chanSums (d.cfg n F.ING_CT_CFG_FMT) c f.pos
  let masked := d.maskedFor n s
  { n := if masked then 0 else x.1, masked := masked, out := f.out
    bad := f.pos.any fun e => e.1 % 4096 == c && e.2 == 1
    s1 := if masked then 0 else x.2.1, s2 := if masked then 0 else x.2.2, stream := s, ct := d.sigCt n s, chan := c, frame := n }

/-- The records of frame n for island k in the order of R130: channel group, CT_INDEX, channel. -/
def Dev.statRecs (d : Dev) (n k : Nat) : List StatRec :=
  let first := d.chFirst n k
  let streams := sortBy (fun s => d.sigCt n s) (d.mapped n)
  let groups := (List.range (ceilDiv (d.chCount n k) 16)).map (first / 16 + ·)
  (groups.map fun cg => (streams.map fun s =>
    ((List.range 16).map (cg * 16 + ·)).filterMap fun c =>
      if c < first + d.chCount n k then some (d.statRec n s c) else none).flatten).flatten

/-- The event record that names a frame and the number of its corner-turn writes that were lost (R383). -/
def Dev.dropRecord (d : Dev) (n : Nat) : Dev :=
  let k := Tab.get 0 d.ing.drops n
  if k = 0 then d
  else { d with ing := { d.ing with drops := Tab.erase d.ing.drops n } }.event F.WELT_EVENTS_IND_DROP 0 [n, k]

/-- Sends the statistics records of the next frame once every group has completed it and every corner-turn write of it
has its response (R130); `fuel` bounds the frames sent at once. -/
def Dev.sendStats (d : Dev) : Nat → Dev
  | 0 => d
  | fuel + 1 =>
    let n := max d.ing.statNext d.ing.first
    let busy := (d.ing.staging ++ d.ing.sent).any fun w => w.frame == n
    if n < d.get F.ING_FRAME_TAIL_TAIL && !busy && d.ing.opened.isSome then
      let d := d.dropRecord n
      let d := d.forN 8 fun d k => if d.chCount n k = 0 then d else d.sendIsl k (.stat n (d.statRecs n k))
      let gs := d.ing.groups.map fun e => (e.1, { e.2 with frames := e.2.frames.filter fun f => e.2.fold ≤ f.1 + 1 || n < f.1 + 2 })
      ({ d with ing := { d.ing with statNext := n + 1, groups := gs } }).sendStats fuel
    else d

/-! ### Completing frames (R49, R51, R52, R123) -/

/-- Counts a corner-turn write that was lost (R383, R350). -/
def Dev.indDrop (d : Dev) (n : Nat) : Dev :=
  let d := (d.bump F.WELT_IND_DROP_CNT_COUNT 1).flag F.WELT_EVENTS_IND_DROP
  { d with ing := { d.ing with drops := Tab.upd 0 d.ing.drops n (· + 1) } }

/-- Writes zero to every position of a stream's frame but the valid ones (R123): a request of port 0 for each granule written (R341). A
beat written whole is no longer uncorrectable, and one written is not scrubbed back (R350, R352). A write to a lost channel is counted
as a corner-turn write that failed (R350). -/
def Dev.zeroFill (d : Dev) (g n s : Nat) : Dev :=
  let b := d.sampleBytes n
  let ct := d.sigCt n s
  let size := d.streamSize n
  let base := d.ctStream n ct
  let keep := ((d.streamFrame g n s).pos.filter fun e => posValid e.2).filterMap fun e =>
    (d.chOwner n (e.1 % 4096)).map fun k => d.ctAddr n ct k (e.1 / 4096) (e.1 % 4096)
  let kept := fun (lo hi : Nat) => b * (keep.filter fun a => decide (lo ≤ a) && decide (a < hi)).length
  let d := d.forL (granulesOf base size) fun d (q : Nat) =>
    let lo := max base q
    let hi := min (base + size) (q + 256)
    if hi - lo ≤ kept lo hi then d else if d.beatLost q then d.indDrop n else d.memPost 0 0 true lo (hi - lo)
  let saved := keep.map fun a => (a, d.rdBytes a b)
  let d := d.zeroRange base size
  let d := d.forL saved fun d p => d.wrBytes p.1 p.2
  { d with
    ueBeats := d.ueBeats.filter fun a => !(base ≤ a && a + 64 ≤ base + size && kept a (a + 64) == 0)
    sd := { d.sd with back := d.sd.back.filter fun a => !(base < a + 64 && a < base + size && kept a (a + 64) < 64) } }.sdNote base size

/-- FRAME_FILL_COMPLETE and the completion of R49: the frame's samples are final, unfilled positions are zero, and what
taps the frame is told. -/
def Dev.completeFrame (d : Dev) (g n : Nat) : Dev :=
  if (d.frame g n).done then d
  else
    let ms := d.members n g
    let d := d.forL ms fun d s => if d.outFor s n || d.absent n s then
      let f := d.streamFrame g n s
      d.setStreamFrame g n s { f with out := true } else d
    let d := d.forL ms fun d s => d.zeroFill g n s
    let x := d.frame g n
    let d := d.setFrame g n { x with done := true }
    ((d.frameDone g n).updTail).sendStats 64

/-- Completes every open frame of a group that has nothing left to wait for. -/
def Dev.completeFull (d : Dev) (g : Nat) : Dev :=
  let f := (d.group g).fold
  d.forN (ceilDiv (d.window f g) 4096 + 1) fun d i =>
    if d.frameOpen g (f + i) && d.ing.first ≤ f + i && d.frameFull g (f + i) then d.completeFrame g (f + i) else d

/-- The number of members of a group that are OUT at present (R54). -/
def Dev.updOutCount (d : Dev) (n g : Nat) : Dev :=
  d.put (F.ING_AG_STATUS_OUT_STREAMS g) ((d.members n g).filter fun s => d.get (F.ING_STREAM_ST_OUT s) == 1).length

/-- Marks the members of group g that `p` picks as OUT or not UP in every frame that is open, by the table of that frame (R129, R134). -/
def Dev.markOutWhere (d : Dev) (g : Nat) (p : Nat → Nat → Bool) : Dev :=
  let f := max (d.group g).fold (d.get F.ING_FRAME_TAIL_TAIL)
  d.forN (d.ing.opened.getD 0 + 1 - f) fun d i =>
    if (d.frame g (f + i)).done then d
    else d.forL ((d.members (f + i) g).filter (p (f + i))) fun d s =>
      let x := d.streamFrame g (f + i) s
      d.setStreamFrame g (f + i) s { x with out := true }

/-- Marks every open frame of a stream as one in which it was OUT (R129). -/
def Dev.markOut (d : Dev) (g s : Nat) : Dev := d.markOutWhere g fun _ x => x == s

/-- The stream is IN from frame n on (R53, R124). -/
def Dev.streamIn (d : Dev) (s n : Nat) : Dev := (d.put (F.ING_STREAM_ST_OUT s) 0).setStream s { d.stream s with rejoin := none, inFrom := n }

/-- STREAM_OUT (R52, R54). A frame beyond n that is open and masks the stream takes it out of the OUT state (R124). -/
def Dev.streamOut (d : Dev) (g n s : Nat) : Dev :=
  let d := (d.flag (F.ING_STREAM_ST_OUT s)).setStream s { d.stream s with rejoin := none }
  let d := (d.markOut g s).event (F.ING_AG_STATUS_UNDERRUN g) 0 [0, s, g, n, 1]
  match ((List.range (d.ing.opened.getD 0 - n)).map (n + 1 + ·)).find? fun m => d.maskedFor m s with
  | some m => d.streamIn s m
  | none => d

/-- UNDERRUN of one stream at D(n) (R51, R54, R124): counted unless masked; it becomes OUT if it delivered nothing beyond
frame n. Adds the stream to `inside` if it stays IN. -/
def Dev.underrun (d : Dev) (g n s : Nat) (inside : List Nat) : Dev × List Nat :=
  if d.maskedFor n s || d.streamFull g n s then (d, inside)
  else
    let d := (d.flag (F.ING_STREAM_ST_UNDERRUN s)).flag (F.ING_AG_STATUS_UNDERRUN g)
    let d := d.bump (F.ING_AG_UNDERRUN_CNT_COUNT g) 1
    if d.outFor s n then (d, inside)
    else if (d.stream s).last ≤ d.epoch g + 4096 * (n + 1) then (d.streamOut g n s, inside)
    else (d, inside ++ [s])

/-- STREAM_IN (R53, R58 step 8): OUT streams scheduled for a frame that has opened, in the open range of their group too, become IN. -/
def Dev.streamsIn (d : Dev) : Dev :=
  let due := fun (s r : Nat) =>
    let g := d.sigGroup r s
    let f := (d.group g).fold
    (match d.ing.opened with | some h => decide (r ≤ h) | none => false) && decide (r ≤ f + ceilDiv (d.window f g) 4096)
  let ss := (d.ing.streams.filter fun e => match e.2.rejoin with | some r => due e.1 r | none => false).map (·.1)
  let d := d.forL ss fun d s => d.streamIn s ((d.stream s).rejoin.getD 0)
  if ss.isEmpty then d else d.forN 64 fun d g => d.updOutCount (d.ing.opened.getD 0) g

/-- The deadline of the oldest frame F_old of group g has passed (R49, R51, R54): the frame completes and its underruns are settled. -/
def Dev.deadlinePassed (d : Dev) (g : Nat) : Dev :=
  let n := (d.group g).fold
  let stopped := match d.ing.stopAt with | some f => decide (f ≤ n) | none => false
  let used := d.active && d.ing.first ≤ n && !stopped && decide ((d.members n g).length ≠ 0)
  let d := if used then
      let d := d.completeFrame g n
      let r := (d.members n g).foldl (fun x s => x.1.underrun g n s x.2) (d, [])
      let d := r.1.updOutCount n g
      if r.2.isEmpty then d
      else d.event (F.ING_AG_STATUS_UNDERRUN g) 0 [2, r.2.foldl min 8191, g, n, r.2.length]
    else d
  let x := d.group g
  let d := ((d.setGroup g { x with fold := n + 1 }).applyMap g).streamsIn
  ((d.completeFull g).updTail).sendStats 64

/-- FRAME_DEADLINE (R47): device time in the ingest island reaches the deadline of the oldest frame F_old of group g. -/
def Dev.frameDeadline (d : Dev) (g : Nat) : Dev :=
  if d.viewIng < d.deadline g (d.group g).fold then d else d.deadlinePassed g

/-! ### Opening frames (R45, R53, R57, R126, R132, R133) -/

/-- Streams that are OUT and masked for frame n leave the OUT state as it opens (R124). -/
def Dev.maskedIn (d : Dev) (n : Nat) : Dev :=
  let ss := (d.mapped n).filter fun s => d.is (F.ING_STREAM_ST_OUT s) && d.maskedFor n s
  let d := d.forL ss fun d s => d.streamIn s n
  if ss.isEmpty then d else d.forN 64 fun d g => d.updOutCount n g

/-- Marks streams that are OUT or ABSENT as frame n opens (R129). -/
def Dev.markOpen (d : Dev) (n : Nat) : Dev :=
  d.forL (d.mapped n) fun d s =>
    if d.get (F.ING_STREAM_ST_OUT s) = 1 || d.absent n s then
      let g := d.sigGroup n s
      let x := d.streamFrame g n s
      d.setStreamFrame g n s { x with out := true }
    else d

/-- FRAME_OPEN (R133): ING.FRAME_HEAD first reaches n. The commits due at n are acted on and sent, slots wanted again in the layout of n
are withdrawn (R134), streams rejoin, every island with a live panel holds the frame's slot, and the frame marker follows (R57). -/
def Dev.openFrame (d : Dev) (n : Nat) : Dev :=
  let d := { d with ing := { d.ing with opened := some n } }.put F.ING_FRAME_HEAD_HEAD n
  let d := d.commitsAt n
  let depth := d.cfg n F.ING_CT_CFG_DEPTH
  let d := if d.ing.layout + depth ≤ n then d.forN 8 fun d k => d.withdraw k (n - depth) else d
  let d := d.streamsIn.maskedIn n
  let d := d.markOpen n
  d.forN 8 fun d k =>
    let d := if d.islLive k then
        let x := d.isl k
        d.setIsl k { x with holds := x.holds ++ [n] }
      else d
    d.sendIsl k (.marker n)

/-- Opens every frame up to n that is not open yet. -/
def Dev.openTo (d : Dev) (n : Nat) : Dev :=
  let from_ := match d.ing.opened with | none => d.ing.first | some h => h + 1
  let d := d.forN (n + 1 - from_) fun d i => d.openFrame (from_ + i)
  if n + 1 ≤ from_ then d else d.forL (d.groupsInUse n) fun d g => (d.applyMap g).completeFull g

/-! ### Frame checks and placement (R121, R122) -/

/-- What is gathered while a sample frame's samples are placed: the device, the writes' bytes as
(frame, island, position, address, bytes), and the checks that refused a sample. -/
structure Placing where
  d : Dev
  cells : List (Nat × Nat × Nat × Nat × List Nat)
  refused : List Nat
  touched : List Nat
deriving DecidableEq, Repr

/-- Places one sample position (R122). `code` is none for an invalid one. -/
def Placing.position (p : Placing) (lane g n s t c : Nat) (code : Option Nat) : Placing :=
  let d := p.d
  if d.maskedFor n s then { p with d := d.bump (F.FRM_CNT_COUNT lane 13) 1 }
  else
    let f := d.streamFrame g n s
    let q := t * 4096 + c
    if Tab.get 0 f.pos q ≠ 0 then
      { p with d := (d.bump (F.FRM_CNT_COUNT lane 12) 1).flag (F.ING_STREAM_ST_DUPLICATE s) }
    else
      let d := match code with
        | none => (d.bump (F.FRM_CNT_COUNT lane 14) 1).flag (F.ING_STREAM_ST_BAD s)
        | some _ => d
      let v := match code with | none => 1 | some x => 2 + x
      let d := d.setStreamFrame g n s { f with pos := Tab.set 0 f.pos q v }
      let cells := match d.chOwner n c with
        | none => []
        | some k => [(n, k, q, d.ctAddr n (d.sigCt n s) k t c, toBytes (d.sampleBytes n) (code.getD 0))]
      { p with d := d, cells := p.cells ++ cells }

/-- STREAM_REJOIN_SCHEDULE (R53): sample counter c is the first that an OUT stream delivers. -/
def Dev.scheduleRejoin (d : Dev) (g s c : Nat) : Dev :=
  let x := d.group g
  let r := max d.ing.first (ceilDiv (c - d.epoch g) 4096)
  let past := r < x.fold || (d.frame g r).done
  let r := if past then x.tail 64 x.fold else r
  let y := d.stream s
  let d := (d.setStream s { y with rejoin := some r }).note 0x0A 0 [1, s, g, r, 1]
  d.streamsIn

/-- Discards one sample of a frame outside what may be placed (R41, R48, R53). -/
def Dev.discardSample (d : Dev) (g : Nat) : Dev := (d.bump (F.ING_AG_DISCARD_CNT_COUNT g) 1).flag (F.ING_AG_STATUS_DISCARD g)

/-- The frame of a sample counter of stream s under the newest Signal Table that maps it, of those before the boundaries listed newest
first and, with no limit, the one in force; h where that table does not hold the frame. -/
def Dev.entryLook (d : Dev) (s sc h : Nat) : Option Nat → List Nat → Nat
  | lim, bs =>
    let at_ (f : Nat) : Nat := match d.frameOf (d.sigGroup f s) sc with
      | some n => if n < lim.getD (n + 1) then n else h
      | none => h
    match bs with
    | [] => match lim with | some b => if b = 0 then h else at_ (b - 1) | none => h
    | b :: rest =>
      let f := match lim with | some l => l - 1 | none => b
      if d.cfg f (F.ING_SIG_ENTRY_MAPPED s) = 1 then at_ f else d.entryLook s sc h (some b) rest

/-- The configuration frame under which a sample counter's Signal Table entry is read: the frame it names in the
stream's group, under the newest table first (R121, R134). -/
def Dev.entryFrame (d : Dev) (s sc : Nat) : Nat :=
  let h := d.ing.opened.getD d.ing.first
  if d.ing.outgoing.isEmpty then h
  else d.entryLook s sc h none (d.ing.outgoing.map (·.1))

/-- The device in which the tables of the frame that an item names are in force. An item that the armed pattern places at its boundary
or later is checked under that pattern (R121, R134), and, accepted, takes ING.FRAME_HEAD there; `hit` says whether it is one, given the
device past the boundary, and the boundary. -/
def Dev.ahead (d : Dev) (hit : Dev → Nat → Bool) : Dev :=
  match d.pat.armed with
  | some f => let v := d.openTo f; if hit v f then v else d
  | none => d

/-- Notes that a stream has delivered a sample counter (R52), and, if it is OUT, when it rejoins (R53). -/
def Dev.noteSample (d : Dev) (s sc : Nat) : Dev :=
  let y := d.stream s
  d.setStream s { y with last := max y.last (sc + 1) }
def Dev.noteRejoin (d : Dev) (g s sc : Nat) : Dev :=
  if d.is (F.ING_STREAM_ST_OUT s) && (d.stream s).rejoin.isNone then d.scheduleRejoin g s sc else d

/-- Whether ingest takes no more samples of frame n, because of a stop at or below it (R281). -/
def Dev.stoppedFor (d : Dev) (n : Nat) : Bool := match d.ing.stopAt with | some f => decide (f ≤ n) | none => false

/-- One time index of a delivered sample frame: checks 2 to 6 of R121, then R122 for each of its channels. -/
def Placing.time (p : Placing) (lane : Nat) (bad : Bool) (h : Payload) (payload : List Nat) (t : Nat) : Placing :=
  let s := pf h 5 0 13
  let sc := (pf h 7 0 64 + t) % 2 ^ 64
  let fmt := pf h 5 13 2
  let c0 := pf h 15 0 12
  let nch := pf h 17 0 12 + 1
  let b := fmt + 1
  let d := p.d
  let v := d.ahead fun v f => v.is (F.ING_SIG_ENTRY_MAPPED s) && (match v.frameOf (v.sigGroup f s) sc with | some n => decide (f ≤ n) | none => false)
  let e := v.entryFrame s sc
  if v.onchipBad 2 (8 * s) 8 then { p with d := d.onchipUe 2 (R.ING_SIG_ENTRY s).addr, refused := p.refused ++ [8] }
  else if v.cfg e (F.ING_SIG_ENTRY_MAPPED s) ≠ 1 then { p with refused := p.refused ++ [8] }
  else if v.sigLane e s ≠ lane then { p with refused := p.refused ++ [9] }
  else if fmt ≠ v.cfg e F.ING_CT_CFG_FMT then { p with refused := p.refused ++ [10] }
  else if v.numCh e < c0 + nch then { p with refused := p.refused ++ [11] }
  else if v.generated e then p
  else
    let g := v.sigGroup e s
    let d := d.noteSample s sc
    match v.frameOf g sc with
    | none => { p with d := (if sc < v.epoch g then d.noteRejoin g s sc else d).discardSample g }
    | some n =>
      if n < v.ing.first && v.active then { p with d := (d.noteRejoin g s sc).discardSample g }
      else if v.stoppedFor n || !v.active then { p with d := d.discardSample g }
      else
        let w := (v.noteSample s sc).noteRejoin g s sc
        if !w.frameOpen g n || w.outFor s n then { p with d := (d.noteRejoin g s sc).discardSample g }
        else
          let d := w.openTo n
          if d.stoppedFor n then { p with d := d.discardSample g }
          else
          let p := { p with d := d, touched := if p.touched.contains n then p.touched else p.touched ++ [n] }
          (List.range nch).foldl (fun p ci =>
            let off := (t * nch + ci) * b
            let valid := !bad && bitOf (pf h 19 0 32) (off / 32)
            let code := ofBytes ((payload.drop off).take b)
            p.position lane g n s (sc - d.epoch g - 4096 * n) (c0 + ci) (if valid then some code else none)) p

/-- Bytes waiting in the 2 MiB ingest staging store (R383). -/
def Dev.stagingUsed (d : Dev) : Nat := sumN (d.ing.staging.map fun w => w.cells.length)

/-- Changes the marks of positions of a stream's frame. -/
def Dev.updPositions (d : Dev) (g n s : Nat) (qs : List Nat) (v : Nat → Nat) : Dev :=
  let f := d.streamFrame g n s
  d.setStreamFrame g n s { f with pos := qs.foldl (fun (t : Tab Nat) q => Tab.set 0 t q (v (Tab.get 0 t q))) f.pos }

/-- Stages a write, or drops it when the staging store is full (CT_WRITE_DROP, R383). Its samples go to the capture engine as they are
placed; those of a dropped write leave their positions unfilled (R316, R318). -/
def Dev.stageWrite (d : Dev) (w : CtWrite) : Dev :=
  if d.stagingUsed + w.cells.length ≤ 0x200000 then
    let d := { d with ing := { d.ing with staging := d.ing.staging ++ [{ w with id := d.ing.nextWrite }], nextWrite := d.ing.nextWrite + 1 } }
    let f := d.streamFrame w.group w.frame w.stream
    d.forL w.pos fun d q =>
      let v := Tab.get 0 f.pos q
      d.capSig w.frame (d.sigCt w.frame w.stream) (q % 4096) (q / 4096) (if posValid v then some (v - 2) else none)
  else (d.indDrop w.frame).updPositions w.group w.frame w.stream w.pos fun _ => 0

/-- The writes that placed cells make: one for each frame and island (R131). -/
def ctWrites (g : Nat → Nat) (s : Nat) (cells : List (Nat × Nat × Nat × Nat × List Nat)) : List CtWrite :=
  let keys := cells.foldl (fun ks c => if ks.contains (c.1, c.2.1) then ks else ks ++ [(c.1, c.2.1)]) []
  keys.map fun key =>
    let cs := cells.filter fun c => (c.1, c.2.1) == key
    { id := 0, frame := key.1, group := g key.1, stream := s, addr := (cs.head?.map fun c => c.2.2.2.1).getD 0
      cells := (cs.map fun c => c.2.2.2.2.zipIdx.map fun b => (c.2.2.2.1 + b.2, BitVec.ofNat 8 b.1)).flatten
      pos := cs.map fun c => c.2.2.1 }

/-- SAMPLE_FRAME_CHECK and SAMPLE_PLACE: a GOOD or BAD sample frame is delivered to ingest on a lane (R107, R121, R122). -/
def Dev.ingestFrame (d : Dev) (lane : Nat) (bad : Bool) (h : Payload) (data : List Payload) : Dev :=
  let s := pf h 5 0 13
  let b := pf h 5 13 2 + 1
  let t := 32 * (pf h 4 0 5 + 1) / (b * (pf h 17 0 12 + 1))
  let payload := (data.map payloadBytes).flatten
  let p : Placing := (List.range t).foldl (fun (p : Placing) i => p.time lane bad h payload i) ⟨d, [], [], []⟩
  let d := [8, 9, 10, 11].foldl (fun d i => if p.refused.contains i then d.bump (F.FRM_CNT_COUNT lane i) 1 else d) p.d
  let d := if p.refused.any (8 < ·) then d.flag (F.ING_STREAM_ST_REJECTED s) else d
  let g := d.sigGroup (d.ing.opened.getD 0) s
  let d := d.forL (ctWrites (fun n => d.sigGroup n s) s p.cells) Dev.stageWrite
  let d := d.forL p.touched fun d n => let g := d.sigGroup n s; if d.frameOpen g n && d.frameFull g n then d.completeFrame g n else d
  d.applyMap g

/-! ### Corner-turn writes (R381, R383) -/

/-- Bytes of corner-turn writes in a channel's 16 KiB Indigo queue. -/
def Dev.indigoUsed (d : Dev) (c : Nat) : Nat :=
  sumN ((d.ing.sent.filter fun w => (d.chanOf w.addr).1 == c).map fun w => w.cells.length)

/-- CT_WRITE_SEND (R383): the oldest staged write to channel c is sent once its Indigo queue has room. -/
def Dev.ctWriteSend (d : Dev) (c : Nat) : Dev :=
  match d.ing.staging.find? fun w => (d.chanOf w.addr).1 == c with
  | none => d
  | some w =>
    if d.indigoUsed c + w.cells.length ≤ 16384 then
      let gs := (w.cells.map fun x => x.1 / 256).eraseDups
      let d := d.forL gs fun d (g : Nat) =>
        let mine := (w.cells.filter fun x => x.1 / 256 == g).map (·.1)
        d.memPost 0 0 true (mine.foldl min (256 * g + 255)) mine.length
      { d with ing := { d.ing with staging := d.ing.staging.filter (·.id ≠ w.id), sent := d.ing.sent ++ [w] } }
    else d

/-- CT_WRITE_COMMIT (R350, R381, R383): the oldest write in channel c's Indigo queue commits, `ns` ns after its FEND, or
receives an error response. -/
def Dev.ctWriteCommit (d : Dev) (c ns : Nat) : Dev :=
  match d.ing.sent.find? fun w => (d.chanOf w.addr).1 == c with
  | none => d
  | some w =>
    if w.cells.any fun x => d.memBusy x.1 1 then d else
    let d := { d with ing := { d.ing with sent := d.ing.sent.filter (·.id ≠ w.id) } }
    let failed := w.cells.any fun x => d.beatLost x.1 || !d.sdramInUse x.1 1
    let d := w.cells.foldl (fun d x => if d.beatLost x.1 || !d.sdramInUse x.1 1 then d else (d.wrByte x.1 x.2).sdNote x.1 1) d
    let hit := fun b => w.cells.any fun x => x.1 / 64 * 64 == b
    let whole := fun b => (List.range 64).all fun i => w.cells.any fun x => x.1 == b + i
    let d := { d with
      ueBeats := d.ueBeats.filter fun b => !whole b
      sd := { d.sd with back := d.sd.back.filter fun b => !hit b } }
    let d := if failed then (d.indDrop w.frame).updPositions w.group w.frame w.stream w.pos fun v => if posValid v then posLost else v else d
    let d := d.put F.WELT_IND_MAX_NS (max (d.get F.WELT_IND_MAX_NS) (min ns (2 ^ 24 - 1)))
    let d := if 4000 < ns then (d.bump F.WELT_IND_OVER_CNT_COUNT 1).flag F.WELT_EVENTS_IND_OVER else d
    d.sendStats 64

/-- SLOT_COMMIT_POST (R56, R126): a whole-width write of `v` to ING.SLOT_COMMIT. -/
def Dev.slotCommitPost (d : Dev) (v : Nat) : Dev :=
  let f := v % 2 ^ 48
  let d := d.put F.ING_SLOT_COMMIT_AT_FRAME f
  if d.get F.ING_FRAME_HEAD_HEAD < f then
    let d := if d.ing.slotAt.isSome then d.flag F.ING_SLOT_STATUS_REPLACED else d
    { d with ing := { d.ing with slotAt := some f } }.flag F.ING_SLOT_STATUS_PENDING
  else (d.flag F.ING_SLOT_STATUS_LATE).event F.ING_SLOT_STATUS_LATE 0 [f]

end Sys2Proof.Machine
end

