-- ==== Sys2Proof/Machine/Framing.lean ====
section
/-! DEFINITION. Receiving Sloldo frames (R94 to R107) and the receiving side of replay (R110): the items of a lane's elastic
buffer are taken in order, and frames are opened, filled, classed and delivered. -/
namespace Sys2Proof.Machine

/-- Codes of the frame classes: the FRM counter that counts them (R106, R138). -/
def clsGood : Nat := 0
def clsTruncated : Nat := 1
def clsLength : Nat := 2
def clsCrc : Nat := 3
def clsMalformed : Nat := 4

/-- BLOCK_CRC of a control block (R95). -/
def blockCrc (p : Payload) : Nat := crc32c (toBytes 28 p.toNat)

/-- Whether a control block passes BLOCK_CRC (R95). -/
def crcOk (p : Payload) : Bool := blockCrc p == pf p 28 0 32

/-- A control block made of its first 28 bytes, with its BLOCK_CRC (R95). -/
def sealBlock (bs : List Nat) : Payload := let b := padTo 28 0 bs; payloadOf (b ++ toBytes 4 (crc32c b))

/-- Whether an FSTART header is MALFORMED in a lane of the given role (R94, R102, R104, R106). -/
def malformed (role : Nat) (h : Payload) : Bool :=
  let kind := pf h 1 0 3
  let len := 32 * (pf h 4 0 5 + 1)
  let first := pf h 15 0 12
  let nch := pf h 17 0 12 + 1
  let fmt := pf h 5 13 2
  if kind = 0 then
    role ≠ roleIngest || 2 ≤ fmt || 4096 < first + nch || len % ((fmt + 1) * nch) ≠ 0 || len < (fmt + 1) * nch
  else if kind = 1 then role ≠ roleC2C
  else if kind = 2 then
    let typ := pf h 5 10 2
    role ≠ roleC2C || 2 ≤ typ || 2 ≤ fmt || 4096 < first + nch ||
      (typ = 0 && (len % (2 * nch) ≠ 0 || len < 2 * nch)) || (typ = 1 && nch ≠ len / 8)
  else true

/-- The class of a frame that its FEND closes (R106). -/
def frameClass (f : RxFrame) (fend : Payload) : Nat :=
  if f.malformed then clsMalformed
  else if pf fend 5 0 16 ≠ pf f.hdr 2 0 16 then clsTruncated
  else if f.data.length ≠ pf f.hdr 4 0 5 + 1 then clsLength
  else if pf fend 1 0 32 ≠ crc32c (toBytes 28 f.hdr.toNat ++ (f.data.map payloadBytes).flatten) then clsCrc
  else clsGood

/-- A NAK for the expected sequence number falls due, unless the receiver already waits for that frame (R110). -/
def Dev.nak (d : Dev) (n reason : Nat) : Dev :=
  let r := (d.lane n).rx
  if r.nakWait then d
  else (d.updRx n fun r => { r with nakWait := true, nakReason := reason }).updTx n fun t => { t with nak := some (r.expSeq, reason) }

/-- Whether sequence number s is behind the expected number e (R108). -/
def seqBehind (e s : Nat) : Bool := let k := (e + 65536 - s) % 65536; 1 ≤ k && k ≤ 32768

/-- Puts an item on the Ingest to Egress crossing; one sent to egress held in reset is discarded (R28, R32). -/
def Dev.toEgress (d : Dev) (i : EgrIn) : Dev := if d.egrHeld then d else { d with relay := d.relay ++ [i] }

/-- Puts a delivered frame on the crossing to egress (R253), stamped with the lane's block count (R29). -/
def Dev.relayIn (d : Dev) (n : Nat) (f : RxFrame) : Dev :=
  d.toEgress (.frame (RelayFrame.mk n (d.lane n).rx.count (d.get F.ING_FRAME_HEAD_HEAD) f.hdr f.data))

/-- The frame with sequence number s has been taken in order, and its ACK falls due (R110, R253). -/
def Dev.replayTaken (d : Dev) (n s : Nat) : Dev := d.updRx n fun r => { r with okSeq := (s + 1) % 65536, ackDue := true }

/-- REPLAY_FRAME_CHECK (R110): a frame of a lane whose group replays. -/
def Dev.replayCheck (d : Dev) (n : Nat) (f : RxFrame) (cls : Nat) : Dev :=
  let e := (d.lane n).rx.expSeq
  let s := pf f.hdr 2 0 16
  if cls = clsGood then
    if s = e then
      let d := (d.relayIn n f).updRx n fun r => { r with expSeq := (e + 1) % 65536, nakWait := false }
      let d := if d.egrHeld then d.replayTaken n s else d
      d.updTx n fun t => { t with nak := none }
    else if seqBehind e s then d.updTx n fun t => { t with ack := some (((d.lane n).rx.okSeq + 65535) % 65536) }
    else d.nak n 1
  else d.nak n (if cls = clsTruncated then 2 else if cls = clsLength then 3 else if cls = clsCrc then 0 else 1)

/-- The open frame of a lane ends in a class: it is counted, and delivered, NAKed or discarded (R106, R107). An INGEST lane delivers
only frames that came in while it was UP (R73). -/
def Dev.closeFrame (d : Dev) (n : Nat) (f : RxFrame) (cls : Nat) : Dev :=
  let d := (d.updRx n fun r => { r with frame := none }).bump (F.FRM_CNT_COUNT n cls) 1
  let role := d.laneRole n
  if role = roleIngest then
    if cls = clsMalformed || !f.up then d
    else
      let bad := cls != clsGood
      ({ d with tap := d.tap ++ [TapFrame.mk n bad f.hdr f.data] }).ingestFrame n bad f.hdr f.data
  else if d.replays n then d.replayCheck n f cls
  else if cls = clsGood then d.relayIn n f
  else if cls = clsMalformed then d
  else d.bump (F.EGR_RELAY_DROP_COUNT (d.laneGroup n)) 1

/-- FRAME_TRUNCATE (R106): the open frame, if any, ends TRUNCATED; a MALFORMED one stays MALFORMED. -/
def Dev.truncate (d : Dev) (n : Nat) : Dev :=
  match (d.lane n).rx.frame with
  | none => d
  | some f => d.closeFrame n f (if f.malformed then clsMalformed else clsTruncated)

/-- One more block has passed since FSTART; the 64th without an FEND truncates the frame (R106). -/
def Dev.countBlock (d : Dev) (n : Nat) : Dev :=
  match (d.lane n).rx.frame with
  | none => d
  | some f =>
    if 64 ≤ f.blocks + 1 then d.truncate n
    else d.updRx n fun r => { r with frame := some { f with blocks := f.blocks + 1 } }

/-- Takes the head item off a lane's elastic buffer. -/
def Dev.popRx (d : Dev) (n : Nat) : Dev := d.updRx n fun r => { r with buf := r.buf.tail }

/-- Lane n has left UP: its streams are marked in every open frame by that frame's own table (R129, R134), and frames that waited only
for them complete (R49). -/
def Dev.streamsLeft (d : Dev) (n : Nat) : Dev :=
  if d.ing.opened.isNone then d
  else
    let d := d.forN 64 fun d g => d.markOutWhere g fun m s => d.sigLane m s == n
    d.forN 64 fun d g => d.completeFull g

/-- Settles the items at the head of a lane's elastic buffer that are not blocks: discarded control blocks count toward
the open frame, an invalid header and leaving UP truncate it (R93, R106). `fuel` bounds the items. -/
def Dev.settleRx (d : Dev) (n : Nat) : Nat → Dev
  | 0 => d
  | fuel + 1 =>
    match (d.lane n).rx.buf with
    | .skip :: _ => ((d.popRx n).countBlock n).settleRx n fuel
    | .bad :: _ => ((d.popRx n).truncate n).settleRx n fuel
    | .left :: _ => (((d.popRx n).truncate n).streamsLeft n).settleRx n fuel
    | _ => d

/-- LANE_DISABLE (R75): the lane becomes DISABLED, and its receive half ends what it had open. -/
def Dev.laneOff (d : Dev) (n : Nat) : Dev := (d.laneDisable n).settleRx n 64

/-- Settles every lane: what a pattern swap or a lane event left at the head of an elastic buffer. -/
def Dev.settleLanes (d : Dev) : Dev := d.forL (d.lanes.map (·.1)) fun d n => d.settleRx n 64

/-- Takes the control block of the given type at the head of a lane's elastic buffer; none when another item stands
there. -/
def Dev.takeCtrl (d : Dev) (n typ : Nat) : Option (Payload × Dev) :=
  match ((d.settleRx n 64).lane n).rx.buf with
  | .block true p :: _ => if pf p 0 0 8 = typ then some (p, ((d.settleRx n 64).popRx n)) else none
  | .timed p _ :: _ => if pf p 0 0 8 = typ then some (p, ((d.settleRx n 64).popRx n)) else none
  | _ => none

/-- The device time at which the first line bit of the TIME block at the head of a lane's elastic buffer came in (R117). -/
def Dev.headTime (d : Dev) (n : Nat) : Nat :=
  match ((d.settleRx n 64).lane n).rx.buf with
  | .timed _ t :: _ => t
  | _ => d.time

/-- A control block that is no part of a frame was taken: it counts as a block passed (R106). -/
def Dev.afterCtrl (d : Dev) (n : Nat) : Dev := (d.countBlock n).settleRx n 64

/-- FSTART_RECEIVE (R95, R106): opens a frame, ending one still open, or is counted LOST. -/
def Dev.fstart (d : Dev) (n : Nat) : Dev :=
  match d.takeCtrl n 0x10 with
  | none => d
  | some (p, d) =>
    if crcOk p then
      let d := d.truncate n
      let f : RxFrame := { hdr := p, data := [], blocks := 0, malformed := malformed (d.laneRole n) p,
                           up := d.laneUp n || (d.lane n).rx.buf.contains .left }
      (d.updRx n fun r => { r with frame := some f }).settleRx n 64
    else
      let d := (d.bump (F.FRM_CNT_COUNT n 5) 1).countBlock n
      (if d.replays n then d.nak n 1 else d).settleRx n 64

/-- FEND_RECEIVE (R105, R106): closes the open frame; a lone FEND is discarded. -/
def Dev.fend (d : Dev) (n : Nat) : Dev :=
  match d.takeCtrl n 0x11 with
  | none => d
  | some (p, d) =>
    match (d.lane n).rx.frame with
    | none => d.settleRx n 64
    | some f => (d.closeFrame n f (frameClass f p)).settleLanes

/-- DATA_BLOCK_RECEIVE (R99): joins the open frame or is an ORPHAN. -/
def Dev.dataBlock (d : Dev) (n : Nat) : Dev :=
  match ((d.settleRx n 64).lane n).rx.buf with
  | .block false p :: _ =>
    let d := (d.settleRx n 64).popRx n
    (match (d.lane n).rx.frame with
    | none => d.bump (F.FRM_CNT_COUNT n 6) 1
    | some f => (d.updRx n fun r => { r with frame := some { f with data := f.data ++ [p] } }).countBlock n).settleRx n 64
  | _ => d

/-- ACK_SEND (R110): within 32 blocks of its FEND the ACK for the latest in-order frame falls due, and goes out at the next
block boundary under the order of R98. A frame that egress has not taken yet is not acknowledged (R253). -/
def Dev.ackSend (d : Dev) (n : Nat) : Dev :=
  let r := (d.lane n).rx
  if d.replays n && d.laneUp n && r.ackDue then
    (d.updRx n fun r => { r with ackDue := false }).updTx n fun t => { t with ack := some ((r.okSeq + 65535) % 65536) }
  else d

/-- NAK_REPEAT (R110): 64 blocks have passed while the receiver waits, and its NAK falls due again. -/
def Dev.nakRepeat (d : Dev) (n : Nat) : Dev :=
  let r := (d.lane n).rx
  if r.nakWait && d.laneUp n then d.updTx n fun t => { t with nak := some (r.expSeq, r.nakReason) } else d

end Sys2Proof.Machine
end

