-- ==== Sys2Proof/Machine/Crypto.lean ====
section
/-! DEFINITION. The published functions that the spec names and does not restate: SHA-256 and SHA-384 (FIPS 180-4),
HMAC-SHA-256 (FIPS 198-1) and the check of an ECDSA signature over P-384 (R265, R425, R441, R444). Their constants and
equations are those standards' (PRESUMED 20). Byte strings are lists of numbers below 256. -/
namespace Sys2Proof.Machine

/-! ### Bytes, most significant first -/

/-- The number that bytes spell, most significant first. -/
def ofBytesBE (bs : List Nat) : Nat := bs.foldl (fun x b => 256 * x + b % 256) 0

/-- n bytes of a number, most significant first. -/
def toBytesBE (n v : Nat) : List Nat := (toBytes n v).reverse

/-! ### Constants of SHA-2

FIPS 180-4 takes them from the fractional parts of roots of the first primes, and so does the model. -/

/-- The primes below 410, which are the first eighty. -/
def shaPrimes : List Nat :=
  (List.range 410).filter fun n => decide (2 ≤ n) && (List.range n).all fun q => decide (q < 2) || n % q != 0

/-- The whole part of the k-th root of n, bit by bit from bit `b` down, on top of the part found. -/
def rootFrom (k n : Nat) : Nat → Nat → Nat
  | 0, found => found
  | b + 1, found => rootFrom k n b (if (found + 2 ^ b) ^ k ≤ n then found + 2 ^ b else found)

/-- The first 64 bits of the fractional part of the k-th root of a prime. -/
def rootFraction (k q : Nat) : Nat := rootFrom k (q <<< (64 * k)) 70 0 % 2 ^ 64

/-- The constants of the rounds: cube roots. -/
def shaCubes : List Nat := shaPrimes.map (rootFraction 3)

/-- The values a hash starts from: square roots of eight primes, those of SHA-384 from the ninth on. -/
def shaSquares (skip : Nat) : List Nat := ((shaPrimes.drop skip).take 8).map (rootFraction 2)

/-! ### SHA-2 -/

/-- What one SHA-2 function fixes: the bits of a word, its rounds, and how far the sigmas rotate; the last of a small one shifts. -/
structure Sha2 where
  bits : Nat
  rounds : Nat
  onA : List Nat
  onE : List Nat
  old : List Nat
  young : List Nat
deriving DecidableEq, Repr

def sha2On32 : Sha2 := { bits := 32, rounds := 64, onA := [2, 13, 22], onE := [6, 11, 25], old := [7, 18, 3], young := [17, 19, 10] }
def sha2On64 : Sha2 := { bits := 64, rounds := 80, onA := [28, 34, 39], onE := [14, 18, 41], old := [1, 8, 7], young := [19, 61, 6] }

/-- A word's copies rotated right by each amount, and shifted instead by the last where `shift`, in exclusive or. -/
def Sha2.sigma (p : Sha2) (amounts : List Nat) (shift : Bool) (x : Nat) : Nat :=
  amounts.zipIdx.foldl (fun acc r =>
    let wrapped := if shift && r.2 == 2 then 0 else (x * 2 ^ (p.bits - r.1)) % 2 ^ p.bits
    acc ^^^ (x / 2 ^ r.1 + wrapped)) 0

/-- The words of the rounds from the sixteen of a block, newest first. -/
def Sha2.extend (p : Sha2) (block : List Nat) : List Nat :=
  (List.range (p.rounds - 16)).foldl (fun ws _ =>
    let ago := fun (n : Nat) => ws.getD (n - 1) 0
    (ago 16 + p.sigma p.old true (ago 15) + ago 7 + p.sigma p.young true (ago 2)) % 2 ^ p.bits :: ws) block.reverse

/-- One round, on the last four values of each of the two sequences that the working variables run through: `x.1` those of a, `x.2` those
of e, newest first. `kw` is the round's constant with its word. -/
def Sha2.turn (p : Sha2) (x : List Nat × List Nat) (kw : Nat) : List Nat × List Nat :=
  let a := fun (i : Nat) => x.1.getD i 0
  let e := fun (i : Nat) => x.2.getD i 0
  let picked := e 2 ^^^ (e 0 &&& (e 1 ^^^ e 2))
  let most := (a 0 &&& (a 1 ||| a 2)) ||| (a 1 &&& a 2)
  let t := (e 3 + p.sigma p.onE false (e 0) + picked + kw) % 2 ^ p.bits
  ((t + p.sigma p.onA false (a 0) + most) % 2 ^ p.bits :: x.1.take 3, (a 3 + t) % 2 ^ p.bits :: x.2.take 3)

/-- A block of bytes enters the hash. -/
def Sha2.absorb (p : Sha2) (h : List Nat) (bs : List Nat) : List Nat :=
  let n := p.bits / 8
  let ws := (p.extend (tabulate 16 fun i => ofBytesBE ((bs.drop (n * i)).take n))).reverse
  let kws := (ws.zip shaCubes).map fun e => e.1 + e.2 / 2 ^ (64 - p.bits)
  let r := kws.foldl p.turn (h.take 4, h.drop 4)
  (h.zip (r.1 ++ r.2)).map fun e => (e.1 + e.2) % 2 ^ p.bits

/-- A message with its padding: a set bit, zeros, and the length in bits over a sixteenth of what a block holds, twice. -/
def Sha2.padded (p : Sha2) (msg : List Nat) : List Nat :=
  let tail := p.bits / 4
  let size := 2 * p.bits
  let short := (msg.length + 1 + tail) % size
  msg ++ 0x80 :: List.replicate (if short = 0 then 0 else size - short) 0 ++ toBytesBE tail (8 * msg.length)

/-- The bytes of a hash of a message whose first value is `start`. -/
def Sha2.hash (p : Sha2) (start msg : List Nat) : List Nat :=
  let m := p.padded msg
  let size := 2 * p.bits
  let h := (List.range (m.length / size)).foldl (fun h i => p.absorb h ((m.drop (size * i)).take size)) start
  (h.map (toBytesBE (p.bits / 8))).flatten

def sha256 (msg : List Nat) : List Nat := sha2On32.hash ((shaSquares 0).map (· / 2 ^ 32)) msg
def sha384 (msg : List Nat) : List Nat := (sha2On64.hash (shaSquares 8) msg).take 48

/-- HMAC-SHA-256 under a key of at most 64 bytes. -/
def hmacSha256 (key msg : List Nat) : List Nat :=
  let k := padTo 64 0 key
  sha256 (k.map (· ^^^ 0x5C) ++ sha256 (k.map (· ^^^ 0x36) ++ msg))

/-! ### ECDSA over P-384 -/

def p384P : Nat := 0xfffffffffffffffffffffffffffffffffffffffffffffffffffffffffffffffeffffffff0000000000000000ffffffff
def p384N : Nat := 0xffffffffffffffffffffffffffffffffffffffffffffffffc7634d81f4372ddf581a0db248b0a77aecec196accc52973
def p384B : Nat := 0xb3312fa7e23ee7e4988e056be3f82d19181d9c6efe8141120314088f5013875ac656398d8a2ed19d2a85c8edd3ec2aef
def p384G : Nat × Nat :=
  (0xaa87ca22be8b05378eb1c71ef320ad746e1d3b628ba79b9859f741e082542a385502f25dbf55296c3a545e3872760ab7,
   0x3617de4a96262c6f5d9e98bf9292dc29f8f41dbd289a147ce9da3113b5f0b8c00a60b1ce1d7e819d7a431d7c90ea0e5f)

/-- b to the power e modulo m, e having at most `fuel` bits. -/
def powMod (m : Nat) : Nat → Nat → Nat → Nat
  | 0, _, _ => 1
  | fuel + 1, b, e =>
    let r := powMod m fuel (b * b % m) (e / 2)
    if e % 2 = 1 then r * b % m else r

/-- The inverse modulo a prime (by Fermat). -/
def invMod (m x : Nat) : Nat := powMod m 384 (x % m) (m - 2)

/-- The sum of two points of the curve; none is the point at infinity. -/
def ecAdd (a b : Option (Nat × Nat)) : Option (Nat × Nat) :=
  match a, b with
  | none, q => q
  | q, none => q
  | some (x1, y1), some (x2, y2) =>
    if x1 = x2 && (y1 + y2) % p384P = 0 then none
    else
      let l := if x1 = x2 then (3 * x1 * x1 + p384P - 3) * invMod p384P (2 * y1) % p384P
               else (y2 + p384P - y1) * invMod p384P (x2 + p384P - x1) % p384P
      let x := (l * l + 2 * p384P - x1 - x2) % p384P
      some (x, (l * (x1 + p384P - x) + p384P - y1) % p384P)

/-- A multiple of a point, the factor having at most `fuel` bits. -/
def ecMul : Nat → Nat → Option (Nat × Nat) → Option (Nat × Nat)
  | 0, _, _ => none
  | fuel + 1, k, q =>
    let r := ecMul fuel (k / 2) (ecAdd q q)
    if k % 2 = 1 then ecAdd r q else r

/-- Whether a signature (r then s, 48 bytes each, big-endian) over a message verifies under a public key (X then Y). -/
def ecdsaOk (key msg sig : List Nat) : Bool :=
  let x := ofBytesBE (key.take 48)
  let y := ofBytesBE (key.drop 48)
  let r := ofBytesBE (sig.take 48)
  let s := ofBytesBE (sig.drop 48)
  let onCurve := x < p384P && y < p384P && (y * y) % p384P == (x * x * x + (p384P - 3) * x + p384B) % p384P
  if !onCurve || r = 0 || p384N ≤ r || s = 0 || p384N ≤ s then false
  else
    let w := invMod p384N s
    let u1 := ofBytesBE (sha384 msg) * w % p384N
    let u2 := r * w % p384N
    match ecAdd (ecMul 384 u1 (some p384G)) (ecMul 384 u2 (some (x, y))) with
    | none => false
    | some q => q.1 % p384N == r

end Sys2Proof.Machine
end

