-- ==== Sys2Proof/Machine/Image.lean ====
section
/-! DEFINITION. The pattern image: its layout and the checks of a load, in the order of R275 (R262 to R273, R282). A check
answers the ERR_CODE and the image byte offset of the first item that fails. -/
namespace Sys2Proof.Machine

/-- The number of n bytes at an offset of an image (R262). -/
def le (img : List Nat) (o n : Nat) : Nat := ofBytes ((img.drop o).take n)

/-- A section of an image (R264): its offset, TYPE, SCOPE, PARAM, and where its payload lies. -/
structure Section where
  off : Nat
  typ : Nat
  scope : Nat
  param : Nat
  pay : Nat
  len : Nat
deriving DecidableEq, Repr

/-- The outcome of one check: the offset of the item that fails it. -/
abbrev Bad := Option Nat

/-- The first failure of a list of checks. -/
def firstBad (l : List Bad) : Bad := l.findSome? id

/-- A check that fails at an offset unless a condition holds. -/
def check (ok : Bool) (off : Nat) : Bad := if ok then none else some off

/-! ### Header and sections (R263, R264, R266) -/

/-- Bytes of the signature (R262). -/
def sigLen (img : List Nat) : Nat := if bitOf (le img 6 2) 0 then 96 else 0

/-- The CRC of an image (R263). -/
def imageCrc (img : List Nat) : Nat := crc32c (img.take 60 ++ (img.take (img.length - sigLen img)).drop 64)

/-- The sections of an image from an offset on, and where the tiling breaks (R264). -/
def sectionsFrom (img : List Nat) (last : Nat) : Nat → Nat → List Section × Bad
  | 0, off => ([], check (off == last) off)
  | fuel + 1, off =>
    if last ≤ off then ([], check (off == last) off)
    else
      let len := le img (off + 4) 4
      if last < off + 16 + len || len % 8 ≠ 0 then ([], some off)
      else
        let r := sectionsFrom img last fuel (off + 16 + len)
        (⟨off, le img off 1, le img (off + 1) 1, le img (off + 8) 4, off + 16, len⟩ :: r.1, r.2)

def imageSections (img : List Nat) : List Section × Bad := sectionsFrom img (img.length - sigLen img) (img.length / 16) 64

/-- What R264 and R266 ask of one section's header: reserved bits zero, a known TYPE unless OPTIONAL, and a valid SCOPE. -/
def sectionBad (img : List Nat) (s : Section) : Bad :=
  let dev := check (s.scope == 0xFF) (s.off + 1)
  firstBad [check (le img (s.off + 2) 2 < 2) (s.off + 2), check (le img (s.off + 12) 4 == 0) (s.off + 12),
    match s.typ with
    | 1 => firstBad [dev, check (s.len == 16) (s.off + 4)]
    | 3 => check (s.scope < 64) (s.off + 1)
    | 4 => check (s.scope < 8) (s.off + 1)
    | 2 | 5 | 6 => dev
    | _ => check (bitOf (le img (s.off + 2) 2) 0) s.off]

/-- BAD_SECTION (R275 order 9). -/
def sectionsBad (img : List Nat) (secs : List Section) (tiling : Bad) : Bad :=
  let of (t : Nat) := secs.filter fun s => s.typ == t
  let again := secs.filter fun s => s.typ == 4 && (secs.find? fun x => x.typ == 4 && x.scope == s.scope) != some s
  firstBad ([check (le img 6 2 < 2) 6, check (le img 26 1 < 16) 26, check (le img 27 1 == 0) 27, check (le img 32 28 == 0) 32, tiling,
      check (le img 12 4 == secs.length) 12]
    ++ secs.map (sectionBad img)
    ++ [check (of 1 != []) 64, (of 1)[1]?.map (·.off), again.head?.map (·.off)])

/-! ### REGS (R268, R269) -/

/-- The words that runs from an offset on write, as (image offset, address, value), and where a run is malformed. -/
def regRuns (img : List Nat) (last : Nat) : Nat → Nat → List (Nat × Nat × Nat) × Bad
  | 0, _ => ([], none)
  | fuel + 1, i =>
    if last ≤ i then ([], none)
    else
      let o := le img i 4
      let n := le img (i + 4) 2
      if last < i + 8 + 4 * n || n = 0 || o % 4 ≠ 0 || le img (i + 6) 2 ≠ 0 then ([], some i)
      else
        let ws := (List.range n).map fun j => (i + 8 + 4 * j, 0xF000000000 + o + 4 * j, le img (i + 8 + 4 * j) 4)
        let r := regRuns img last fuel (i + 8 + ceilDiv n 2 * 8)
        (ws ++ r.1, r.2)

/-- The mask of a register's defined bits (R19). -/
def RegDef.mask (r : RegDef) : Nat := sumN (r.fields.map fun f => (2 ^ (f.hi + 1 - f.lo) - 1) * 2 ^ f.lo)

/-- A word that no image may write, or one with a reserved bit set (R269). -/
def regWordBad (w : Nat × Nat × Nat) : Bad :=
  match patternReg w.2.1, regFind w.2.1 with
  | some _, some (r, _, off) => check (w.2.2 &&& (r.mask >>> (8 * off)) == w.2.2) w.1
  | _, _ => some w.1

/-- All words of the REGS sections, and the first malformed run. -/
def imageWords (img : List Nat) (secs : List Section) : List (Nat × Nat × Nat) × Bad :=
  let rs := (secs.filter fun s => s.typ == 2).map fun s => regRuns img (s.pay + s.len) (s.len / 8) s.pay
  ((rs.map (·.1)).flatten, firstBad (rs.map (·.2)))

/-- The image offset of the word that decides a register; 0 where the image writes none. -/
def wordAt (ws : List (Nat × Nat × Nat)) (r : Reg) : Nat :=
  ((ws.reverse.find? fun w => r.addr ≤ w.2.1 && w.2.1 < r.addr + r.width / 8).map (·.1)).getD 0

/-! ### UCODE, FILL and SDRAM (R271 to R273) -/

/-- The program words of the UCODE sections as (image offset, panel × 4,096 + word, value). -/
def imageUcode (img : List Nat) (secs : List Section) : List (Nat × Nat × Word) :=
  ((secs.filter fun s => s.typ == 3).map fun s =>
    (List.range (s.len / 8)).map fun j => (s.pay + 8 * j, s.scope * 4096 + s.param % 4096 + j, BitVec.ofNat 64 (le img (s.pay + 8 * j) 8))).flatten

/-- BAD_UCODE (R275 order 11). -/
def ucodeBad (img : List Nat) (secs : List Section) : Bad :=
  let ws := imageUcode img secs
  firstBad [firstBad ((secs.filter fun s => s.typ == 3).map fun s => check (s.param % 4096 + s.len / 8 ≤ 4096) (s.off + 8)),
    (ws.zipIdx.find? fun e => (ws.take e.2).any fun x => x.2.1 == e.1.2.1).map (·.1.1)]

/-- The fill units of a FILL section as (image offset, unit). -/
def fillUnits (img : List Nat) (s : Section) : List (Nat × FillUnit) :=
  (List.range (s.len / 16)).map fun j =>
    let o := s.pay + 16 * j
    (o, ⟨le img o 2, le img (o + 2) 2, le img (o + 4) 2, le img (o + 6) 2, le img (o + 8) 2, le img (o + 10) 2, le img (o + 12) 4⟩)

/-- The SDRAM runs of a section as (image offset, address, length). -/
def dataRuns (img : List Nat) (last : Nat) : Nat → Nat → List (Nat × Nat × Nat) × Bad
  | 0, _ => ([], none)
  | fuel + 1, i =>
    if last ≤ i then ([], none)
    else
      let a := le img i 8
      let n := le img (i + 8) 4
      if last < i + 16 + n || a % 64 ≠ 0 || n % 64 ≠ 0 || le img (i + 12) 4 ≠ 0 then ([], some i)
      else
        let r := dataRuns img last fuel (i + 16 + n)
        ((i, a, n) :: r.1, r.2)

def imageData (img : List Nat) (secs : List Section) : List (Nat × Nat × Nat) × Bad :=
  let rs := (secs.filter fun s => s.typ == 5).map fun s => dataRuns img (s.pay + s.len) (s.len / 16) s.pay
  ((rs.map (·.1)).flatten, firstBad (rs.map (·.2)))

/-- The bank that an image spells (R267 to R272). -/
def imageBank (img : List Nat) (secs : List Section) : PatBank :=
  let p := ((secs.find? fun s => s.typ == 1).map (·.pay)).getD 0
  { id := le img 16 8, mode := le img p 1 % 8, chip := le img (p + 1) 1, gen := le img (p + 2) 1 % 4, re := le img (p + 4) 1, im := le img (p + 5) 1
    dram := le img (p + 6) 2 % 4096, clkN := (List.range 8).map fun k => le img (p + 8 + k) 1 % 32
    words := (imageWords img secs).1.foldl (fun (t : Tab Nat) w => Tab.insert (Tab.erase t w.2.1) w.2.1 w.2.2) []
    ucode := (imageUcode img secs).foldl (fun (t : Tab Word) w => Tab.set 0 t w.2.1 w.2.2) []
    fills := (secs.filter fun s => s.typ == 4).foldl (fun (t : Tab (Nat × List FillUnit)) s =>
      Tab.set (0, []) t s.scope (s.param % 8, (fillUnits img s).map (·.2))) []
    broken := [] }

/-- BAD_FILL (R275 order 12). -/
def fillBad (b : PatBank) (img : List Nat) (secs : List Section) (ws : List (Nat × Nat × Nat)) : Bad :=
  let bytes := b.field F.ING_CT_CFG_FMT + 1
  firstBad ((List.range 8).map fun k =>
    match secs.find? fun s => s.typ == 4 && s.scope == k with
    | none => (((List.range 8).map fun m => 8 * k + m).find? fun p => b.field (F.PNL_CFG_MODE p) != 0).map fun p => wordAt ws (R.PNL_CFG p)
    | some s =>
      let first := b.field (F.ING_CH_BLOCK_FIRST k)
      let last := first + b.field (F.ING_CH_BLOCK_COUNT k)
      let ok (u : FillUnit) : Bool :=
        1 ≤ u.nc && u.nc ≤ 4096 && u.t0 % 16 == 0 && u.nt % 16 == 0 && 16 ≤ u.nt && u.t0 + u.nt ≤ 4096 && 1 ≤ u.ns && u.ns ≤ 8192
          && u.dest < 2 ^ 26 && first ≤ u.c0 && u.c0 + u.nc ≤ last && u.s0 + u.ns ≤ b.field F.ING_CT_CFG_STREAMS
          && u.dest + u.nc * u.nt * u.ns * bytes ≤ insoleSize
      firstBad [check (s.param % 8 ≤ 4) (s.off + 8), check (s.len % 16 == 0 && s.len / 16 ≤ 32767) (s.off + 4),
        ((fillUnits img s).find? fun u => !ok u.2).map (·.1)])

/-! ### Modes (R148, R282) -/

/-- The slots that R148 gives a panel's formats. -/
def slotsFor (gang acc : Nat) : Nat := if gang = 1 then 32 else if acc = 1 then 12 else 8

/-- Whether a panel of an image agrees with its mode (R282). -/
def panelMode (b : PatBank) (p : Nat) : Bool :=
  let m := b.field (F.PNL_CFG_MODE p)
  let acc := b.field (F.PNL_CFG_ACC_FMT p)
  let gang := b.field (F.PNL_CFG_GANG p)
  let phase := b.field (F.PNL_CFG_PHASE p)
  let k := p / 8
  let allowed := match b.mode with | 1 => m == 1 | 2 => m == 2 | 3 => m == 1 || m == 2 | 4 => m == 3 | 5 => m == 1 | _ => true
  m == 0 ||
    (allowed && gang == b.field F.ING_CT_CFG_FMT && b.field (F.PNL_CFG_SLOTS p) == slotsFor gang acc
      && (acc == 0 || (m == 1 && gang == 0 && b.mode != 2 && b.mode != 4))
      && ((b.mode != 1 && b.mode != 3) || phase == 0)
      && (b.mode != 5 || (phase == 1 && 1 ≤ b.field (F.ISL_PHASE_CFG_NBINS k) && b.field (F.ISL_PHASE_CFG_NBINS k) ≤ 1024
            && 1 ≤ b.field (F.ISL_PHASE_CFG_PW k) && b.field (F.ISL_PHASE_CFG_PW k) ≤ 8)))

/-- BAD_MODE (R275 order 13). -/
def modeBad (b : PatBank) (secs : List Section) (ws : List (Nat × Nat × Nat)) : Bad :=
  let p := ((secs.find? fun s => s.typ == 1).map (·.pay)).getD 0
  let small (x : Nat) : Bool := -8 ≤ sext 8 x && sext 8 x ≤ 7
  let const4 := b.gen == 2 && b.field F.ING_CT_CFG_FMT == 0
  firstBad [check (1 ≤ b.mode && b.mode ≤ 6) p,
    ((List.range 64).find? fun q => !panelMode b q).map fun q => wordAt ws (R.PNL_CFG q),
    ((List.range 8).find? fun k => b.clkN.getD k 0 < 5 || 20 < b.clkN.getD k 0).map fun k => p + 8 + k,
    check (b.gen == 0 || b.mode == 6) (p + 2), check (!const4 || small b.re) (p + 4), check (!const4 || small b.im) (p + 5)]

/-! ### Tables and data (R118 to R120, R250, R273, R333) -/

/-- The streams that an image maps, ascending. -/
def PatBank.streams (b : PatBank) : List Nat :=
  ((b.words.filterMap fun e => sigOf e.1).foldl (fun (l : List Nat) s => if l.head? = some s then l else s :: l) []).reverse.filter
    fun s => b.field (F.ING_SIG_ENTRY_MAPPED s) == 1

/-- The channel blocks with a channel, by first channel. -/
def PatBank.blocks (b : PatBank) : List (Nat × Nat × Nat) :=
  sortBy (·.1) (((List.range 8).map fun k => (b.field (F.ING_CH_BLOCK_FIRST k), b.field (F.ING_CH_BLOCK_COUNT k), k)).filter fun x => x.2.1 != 0)

/-- BAD_TABLE (R275 order 14). -/
def tableBad (b : PatBank) (ws : List (Nat × Nat × Nat)) : Bad :=
  let ss := b.streams
  let m := b.field F.ING_CT_CFG_STREAMS
  let c := b.field F.ING_CT_CFG_NUM_CH
  let ct := fun s => b.field (F.ING_SIG_ENTRY_CT_INDEX s)
  let place := fun s => b.field (F.ING_SIG_ENTRY_IG s) * 64 + b.field (F.ING_SIG_ENTRY_SLOT s)
  let cts := ss.map ct
  let places := ss.map place
  let dup := (ss.zipIdx.find? fun e => (cts.take e.2).contains (ct e.1) || (places.take e.2).contains (place e.1) || m ≤ ct e.1).map
    fun e => wordAt ws (R.ING_SIG_ENTRY e.1)
  let edge := b.blocks.foldl (fun (x : Nat × Bad) y =>
    (x.1 + y.2.1, firstBad [x.2, check (y.1 == x.1) (wordAt ws (R.ING_CH_BLOCK y.2.2))])) (0, none)
  let shares := sumN ((List.range 4096).map fun q => b.field (F.EGR_QUEUE_BUF_KIB q))
  let odd := ((List.range 8).find? fun k => b.field (F.ING_CH_BLOCK_FIRST k) % 16 != 0).map fun k => wordAt ws (R.ING_CH_BLOCK k)
  firstBad [dup, check (ss.length == m) (wordAt ws R.ING_CT_CFG),
    ((List.range 64).find? fun g => b.field (F.ING_AG_CFG_MEMBERS g) != (ss.filter fun s => b.field (F.ING_SIG_ENTRY_AG s) == g).length).map
      fun g => wordAt ws (R.ING_AG_CFG g),
    odd, edge.2, check (edge.1 == c && 1 ≤ c && c ≤ 4096) (wordAt ws R.ING_CT_CFG),
    check (3 ≤ b.field F.ING_CT_CFG_DEPTH && b.field F.ING_CT_CFG_DEPTH ≤ 31) (wordAt ws R.ING_CT_CFG),
    check (shares ≤ 16384) (((ws.find? fun w => 0xF000D10000 ≤ w.2.1 && w.2.1 < 0xF000D18000).map (·.1)).getD 0)]

/-- Address ranges that no SDRAM run may touch while a pattern is active: its corner turn and its spill region, those of a pattern that a
stop in progress still holds among them. -/
def Dev.liveRanges (d : Dev) : List (Nat × Nat) :=
  if !d.active then []
  else ((d.regs :: d.ing.outgoing.map (·.2)).map fun t =>
    let ct := fieldIn t F.ING_CT_BASE_BASE * 4096
    let size := fieldIn t F.ING_CT_CFG_DEPTH * fieldIn t F.ING_CT_CFG_STREAMS * 4096 * fieldIn t F.ING_CT_CFG_NUM_CH * (fieldIn t F.ING_CT_CFG_FMT + 1)
    [(ct, ct + size), (fieldIn t F.MEM_SPILL_BASE_BASE * 65536, fieldIn t F.MEM_SPILL_LIMIT_LIMIT * 65536)]).flatten

/-- A channel that DRAM_MASK may not name: it is neither ONLINE nor TRAINING. -/
def Dev.chanDown (d : Dev) (c : Nat) : Bool := d.chanState c != chOnline && d.chanState c != chTraining

/-- A run of n bytes at a that no image with a DRAM_MASK may write (R275 order 15). Twelve granules in a row reach every channel. -/
def Dev.runBad (d : Dev) (dram a n : Nat) : Bool :=
  let last := if n = 0 then 0 else (a + n - 1) / 256 + 1 - a / 256
  let chans := (List.range (min 12 last)).map fun i => (d.chanOf (a / 256 * 256 + 256 * i)).1
  !d.sdramInUse a n || chans.any (fun c => !bitOf dram c || d.chanDown c) || d.liveRanges.any fun x => a < x.2 && x.1 < a + n

/-- BAD_DATA (R275 order 15). -/
def Dev.dataBad (d : Dev) (b : PatBank) (img : List Nat) (secs : List Section) : Bad :=
  let rs := imageData img secs
  let p := ((secs.find? fun s => s.typ == 1).map (·.pay)).getD 0
  firstBad [rs.2, (rs.1.find? fun r => d.runBad b.dram r.2.1 r.2.2).map (·.1),
    check ((List.range 12).all fun c => !bitOf b.dram c || !d.chanDown c) (p + 6)]

/-- The SDRAM runs of an image that pass 2 may have written when it refuses the image: those before the first that R275 refuses, as
(image offset, address, bytes). -/
def Dev.runsBefore (d : Dev) (img : List Nat) : List (Nat × Nat × List Nat) :=
  let secs := (imageSections img).1
  let dram := (imageBank img secs).dram
  ((imageData img secs).1.takeWhile fun r => !d.runBad dram r.2.1 r.2.2).map fun r => (r.1, r.2.1, (img.drop (r.1 + 16)).take r.2.2)

/-- An image in SDRAM from address a, as pass 2 reads it while it writes the image's own runs: a run changes the bytes that come after it
in the image and lie where it writes. -/
def overlaid (img : List Nat) (a : Nat) (runs : List (Nat × Nat × List Nat)) : List Nat :=
  runs.foldl (fun bs r =>
    if r.2.1 < a + bs.length && a < r.2.1 + r.2.2.length then
      bs.zipIdx.map fun e => if r.1 + 16 + r.2.2.length ≤ e.2 && r.2.1 ≤ a + e.2 && a + e.2 < r.2.1 + r.2.2.length
        then r.2.2.getD (a + e.2 - r.2.1) 0 else e.1
    else bs) img

/-! ### The whole load -/

/-- The outcome of pass 2: the bank and the SDRAM runs as (address, bytes), or ERR_CODE and ERR_OFFSET. -/
inductive Loaded where
  | ok (b : PatBank) (runs : List (Nat × List Nat))
  | refused (code off : Nat)
deriving DecidableEq, Repr

/-- Whether a length passes BAD_LENGTH (R275 order 2). -/
def lengthOk (len max : Nat) : Bool := 80 ≤ len && len % 8 == 0 && len ≤ max

/-- The bytes of PAT.PUBKEY (R265). -/
def Dev.pubKey (d : Dev) : List Nat := ((List.range 12).map fun i => toBytes 8 (d.get (F.PAT_PUBKEY_KEY i))).flatten

/-- The first of some checks to fail, as ERR_CODE and ERR_OFFSET. -/
def firstFail (l : List (Nat × Bad)) : Option (Nat × Nat) := l.findSome? fun f => f.2.map fun o => (f.1, o)

/-- Pass 1 over an image of LENGTH bytes that has been read whole: from MAGIC to the signature (R274, R275 orders 3 to 8). -/
def Dev.passOne (d : Dev) (img : List Nat) : Option (Nat × Nat) :=
  let id := (d.rdReg R.DEV_ID).toNat
  let signed := bitOf (le img 6 2) 0
  firstFail
    [(2, check (le img 0 4 == 0x49505856) 0), (3, check (le img 5 1 == 1) 5),
     (4, firstBad [check (le img 24 2 == bitsOf id 31 16) 24, check (le img 26 1 % 16 == bitsOf id 7 4) 26]),
     (5, check (le img 60 4 == imageCrc img) 60), (7, check (signed || !d.is F.PAT_CTRL_REQ_SIG) 6),
     (6, check (!signed || ecdsaOk d.pubKey (img.take (img.length - 96)) (img.drop (img.length - 96))) (img.length - 96))]

/-- Pass 2 over the image as read again, given the CRC of pass 1 (R274, R275 orders 6 and 9 to 15). -/
def Dev.passTwo (d : Dev) (crc : Nat) (img : List Nat) : Loaded :=
  let s := imageSections img
  let ws := imageWords img s.1
  let b := imageBank img s.1
  match firstFail
    [(5, check (crc == imageCrc img) 60), (8, sectionsBad img s.1 s.2), (9, firstBad [firstBad (ws.1.map regWordBad), ws.2]), (10, ucodeBad img s.1),
     (11, fillBad b img s.1 ws.1), (12, modeBad b s.1 ws.1), (13, tableBad b ws.1), (14, d.dataBad b img s.1)] with
  | some (c, o) => .refused c o
  | none => .ok b ((imageData img s.1).1.map fun r => (r.2.1, (img.drop (r.1 + 16)).take r.2.2))

end Sys2Proof.Machine
end

