-- ==== Sys2Proof/Machine/Pattern.lean ====
section
/-! DEFINITION. The pattern port: loading, cancelling, activating, swapping and stopping patterns (R274 to R281, R286), and the
sample generator of T mode (R283). -/
namespace Sys2Proof.Machine

/-- Codes of PAT.STATUS.STATE. -/
def patEmpty : Nat := 0
def patLoading : Nat := 1
def patLoaded : Nat := 2
def patArmed : Nat := 3
def patSwapping : Nat := 4
def patError : Nat := 5

def Dev.patState (d : Dev) : Nat := d.get F.PAT_STATUS_STATE
def Dev.setPat (d : Dev) (st : Nat) : Dev := d.put F.PAT_STATUS_STATE st
def Dev.patRefused (d : Dev) : Dev := d.flag F.PAT_EVENTS_REFUSED

/-- The shadow banks are discarded (R275, R277). -/
def Dev.dropShadow (d : Dev) : Dev := { d with pat := { d.pat with shadow := none } }.wrReg R.PAT_SHADOW_ID 0

/-! ### Loading (R274 to R277) -/

/-- An address of the SDRAM range (R359). -/
def weltSdram (a : Nat) : Bool := a < 0x1800000000

/-- PATTERN_LOAD (R274, R277): LOAD is written. -/
def Dev.patternLoad (d : Dev) : Dev :=
  let st := d.patState
  if st = patLoading || st = patArmed || st = patSwapping then d.patRefused
  else
    let d := d.dropShadow.setPat patLoading
    { d with pat := { d.pat with load := (d.get F.PAT_LOAD_ADDR_ADDR * 8, d.get F.PAT_LOAD_LEN_LEN) } }

/-- A load ends refused (R275). -/
def Dev.loadRefused (d : Dev) (code off : Nat) : Dev :=
  ((((d.dropShadow.setPat patError).put F.PAT_STATUS_ERR_CODE code).put F.PAT_ERR_OFFSET_OFFSET off)).flag F.PAT_EVENTS_LOAD_ERR

/-- Writes SDRAM runs, given as (address, bytes) (R273). -/
def Dev.loadRuns (d : Dev) (runs : List (Nat × List Nat)) : Dev := d.forL runs fun d r => (d.memStore 12 r.1 r.2).1

/-- A load ends with every check passed (R273, R276): the image stands in the shadow banks. -/
def Dev.loadPassed (d : Dev) (b : PatBank) : Dev :=
  let d := { d with pat := { d.pat with shadow := some b } }
  ((d.setPat patLoaded).put F.PAT_SHADOW_ID_IMAGE_ID b.id).flag F.PAT_EVENTS_LOADED

/-- Pass 2 of a load from address a, given what it reads before its own writes (R274 to R276). A load that it refuses leaves written as many
of the runs it may have come to as a free value says. -/
def Dev.loadSecond (d : Dev) (a crc : Nat) (img : List Nat) : Dev :=
  let runs := d.runsBefore img
  let seen := if weltSdram a then overlaid img a runs else img
  match d.passTwo crc seen with
  | .ok b rs => (d.loadRuns rs).loadPassed b
  | .refused code off => ((d.loadRuns ((runs.take (Config.runsWritten d.free)).map (·.2))).fresh).loadRefused code off

/-- PATTERN_CANCEL (R277). A state of ARMED says that ingest has not reached F. -/
def Dev.patternCancel (d : Dev) : Dev :=
  if d.patState = patLoaded then d.dropShadow.setPat patEmpty
  else if d.patState = patArmed then if d.ingHeld then d else ({ d with pat := { d.pat with armed := none } }.setPat patLoaded).flag F.PAT_EVENTS_CANCELLED
  else d.patRefused

/-- REQ_SIG_SET (R275, R286). -/
def Dev.reqSigSet (d : Dev) : Dev := d.flag F.PAT_CTRL_REQ_SIG

/-- KEY_LOCK_SET (R286). -/
def Dev.keyLockSet (d : Dev) : Dev := d.flag F.PAT_CTRL_KEY_LOCK

/-! ### Activation (R278, R279) -/

/-- No stream is OUT any more, and none has delivered. -/
def Dev.freshStreams (d : Dev) : Dev :=
  let d := d.forL (d.regs.filterMap fun e => if 0xF000A10000 ≤ e.1 && e.1 < 0xF000A18000 then some ((e.1 - 0xF000A10000) / 4) else none)
    fun d s => d.put (F.ING_STREAM_ST_OUT s) 0
  let d := d.forN 64 fun d g => d.put (F.ING_AG_STATUS_OUT_STREAMS g) 0
  { d with ing := { d.ing with streams := [] } }

/-- The roles of a chip of a pair at a cold activation (R488). -/
def Dev.coldRole (d : Dev) : Dev :=
  let d := ((d.wrReg (R.FO_WIN_LO 0) 0).wrReg (R.FO_WIN_LO 1) 0).wrReg (R.FO_WIN_HI 0) 0
  let d := { d with fo := FoSt.init }
  if d.is F.FO_STATUS_REQ then
    (((d.flag (F.FO_WIN_LO_VALID 0)).put (F.FO_WIN_HI_H 0) (2 ^ 48 - 1)).put F.FO_STATUS_WINDOWS 1).put F.FO_STATUS_ROLE 2
  else (d.put F.FO_STATUS_WINDOWS 0).put F.FO_STATUS_ROLE 0

/-- Compute island k at a cold activation at f: its bank is installed, its panels start at word 0, its clock runs at the
incoming N (R279). One that is held in reset resumes at its first marker (R32). -/
def Dev.coldIsl (d : Dev) (k f : Nat) (b : PatBank) : Dev :=
  let d := d.installIsl k f (some b)
  let d := d.updIsl k fun x =>
    { x with
      outgoing := [], clockDue := false, nextFill := (f, 0), units := [], holds := [], withdrawn := [],
      commits := x.commits.filter fun c => f ≤ c.f, phase := [] }
  let d := d.put (F.ISL_CLK_N k) (b.clkN.getD k 20)
  if (d.isl k).held then d else (d.weightStep k f).setFrameNo k f

/-- COLD_ACTIVATION (R279): the banks are installed at once and the pattern counts as active. -/
def Dev.coldStart (d : Dev) (f : Nat) (b : PatBank) : Dev :=
  let old := d.regs
  let d := (d.installWide (some b) []).installMode b
  let d := { d with
    ing := { d.ing with first := f, opened := none, stopAt := none, outgoing := [], layout := f }
    pat := { d.pat with
      next := [(f, some b)], cold := true, shadow := none, armed := none, stop := none, grids := bankGrids (some b) f
      regions := b.regions, clash := clashes [] b.regions } }
  let d := { d with ing := { d.ing with masks := [(0, d.maskRegs)] } }
  let d := (d.flag F.PAT_STATUS_ACTIVE).setPat patSwapping
  let d := d.freshStreams.forN 64 fun d g => d.freshGroup g (d.foldNow g f)
  let d := d.forN 8 fun d k => d.coldIsl k f b
  let d := ((d.swapLanes old).capSwap f old).coldRole.updTail
  if b.broken.isEmpty then d else d.hwStop

/-- ACTIVATE_POST (R56, R277 to R279, R281, R356): a whole-width write of `v` to PAT.ACTIVATE_AT. -/
def Dev.activatePost (d : Dev) (v : Nat) : Dev :=
  let f := v % 2 ^ 48
  let d := d.put F.PAT_ACTIVATE_AT_AT_FRAME f
  let st := d.patState
  if d.ingHeld then d
  else if (st ≠ patLoaded && st ≠ patArmed) || d.is F.ECC_DIAG_CTRL_EN then d.patRefused
  else if f ≤ d.get F.ING_FRAME_HEAD_HEAD then (d.flag F.PAT_EVENTS_LATE).event F.PAT_EVENTS_LATE 0 [f]
  else if d.stopping then d.flag F.PAT_EVENTS_CANCELLED
  else if d.active then
    let d := if st = patArmed then d.flag F.PAT_EVENTS_REPLACED else d
    { d with pat := { d.pat with armed := some f } }.setPat patArmed
  else match d.pat.shadow with
    | some b => d.coldStart f b
    | none => d.patRefused

/-- COLD_ACTIVATION_COMPLETE (R279). -/
def Dev.coldActivationComplete (d : Dev) : Dev :=
  match d.pat.cold, d.pat.next with
  | true, (f, some b) :: rest =>
    let d := { d with pat := { d.pat with next := rest, cold := false } }
    let d := ((d.put F.PAT_ACTIVE_ID_IMAGE_ID b.id).put F.PAT_ACTIVE_AT_FRAME f).wrReg R.PAT_SHADOW_ID 0
    (d.flag F.PAT_EVENTS_SWAPPED).setPat patEmpty
  | _, _ => d

/-! ### Completion of swaps and stops (R280, R281) -/

/-- A plane or table on its way to egress belongs to the configuration before f (R257). -/
def EgrItem.before (f : Nat) : EgrItem → Bool
  | .plane u => u.start < f
  | .table _ g _ _ _ => g ≤ f
  | .beam _ _ n _ _ _ _ => n < f
  | _ => false

/-- Something that R257 assigns to the configuration before f has not been sent or discarded. -/
def Dev.egressOwes (d : Dev) (f : Nat) : Bool :=
  (List.range 9).any (fun s => (d.egrItems s).any (EgrItem.before f))
    || d.egr.wait.any (fun u => decide (u.cfg < f))
    || d.egr.queues.any (fun q => q.2.any fun u => decide (u.cfg < f))
    || d.egr.packs.any (fun x => decide (x.fb < f))
    || d.relay.any (fun i => match i with | .dump n => decide (n ≤ f) | _ => false)
    || d.egr.numbers.any (fun n => decide (n.1 ≤ f))

/-- Panel p has started its incoming program at f or is not running (R280). -/
def Dev.panelSwapped (d : Dev) (p f : Nat) : Bool :=
  !d.pLive p || (d.panel p).doneSwap == some f

/-- The conditions of R280 on islands, ingest, the spill adder and egress. -/
def Dev.swapSettled (d : Dev) (f : Nat) : Bool :=
  ((List.range 8).all fun k => (d.isl k).held || decide (f ≤ d.islFrame k) && (panelsOf k).all fun p => d.panelSwapped p f)
    && ((d.groupsInUse f).isEmpty && (d.groupsInUse (f - 1)).isEmpty || decide (f ≤ d.get F.ING_FRAME_TAIL_TAIL))
    && d.spill.dumps.all (fun x => decide (f < x.f))
    && ((List.range 8).all fun k => (d.isl k).toMem.all fun i => match i with | .mark _ g _ _ => decide (f < g) | _ => true)
    && !d.egressOwes f

/-- The configuration before the swap or stop at f, the oldest in progress, is released. -/
def Dev.releaseOutgoing (d : Dev) (f : Nat) : Dev :=
  let d := { d with ing := { d.ing with outgoing := d.ing.outgoing.filter fun e => f < e.1 }, pat := { d.pat with next := d.pat.next.drop 1 } }
  d.forN 8 fun d k => d.updIsl k fun x => { x with outgoing := x.outgoing.filter fun e => f < e.1 }

/-- SWAP_COMPLETE (R277, R280). -/
def Dev.swapComplete (d : Dev) : Dev :=
  match d.pat.cold, d.pat.next with
  | false, (f, some b) :: _ =>
    if d.swapSettled f then
      let d := (((d.releaseOutgoing f).put F.PAT_ACTIVE_ID_IMAGE_ID b.id).put F.PAT_ACTIVE_AT_FRAME f).wrReg R.PAT_SHADOW_ID 0
      (d.flag F.PAT_EVENTS_SWAPPED).setPat patEmpty
    else d
  | _, _ => d

/-- STOP_POST (R56, R281): a whole-width write of `v` to PAT.STOP_AT. -/
def Dev.stopPost (d : Dev) (v : Nat) : Dev :=
  let f := v % 2 ^ 48
  let d := d.put F.PAT_STOP_AT_AT_FRAME f
  if d.ingHeld then d
  else if !d.active || d.stopping then d.patRefused
  else if f ≤ d.get F.ING_FRAME_HEAD_HEAD then (d.flag F.PAT_EVENTS_LATE).event F.PAT_EVENTS_LATE 0 [f]
  else
    let d := if d.pat.stop.isSome then d.flag F.PAT_EVENTS_REPLACED else d
    { d with pat := { d.pat with stop := some f } }.flag F.PAT_STATUS_STOP_PEND

/-- Drains pending after a stop at f are discarded (R186). -/
def Dev.discardDrains (d : Dev) (f : Nat) : Dev :=
  let gone := (d.spill.drainsAt.filter fun x => f < x.1).map (·.1)
  if gone.isEmpty then d
  else
    let d := { d with spill := { d.spill with drainsAt := d.spill.drainsAt.filter fun x => x.1 ≤ f } }.showDrains
    (d.flag F.DEV_DRAIN_STATUS_DISCARDED).event F.DEV_DRAIN_STATUS_DISCARDED 0 gone

/-- Every ring restarts at INDEX 0 without a pattern (R257, R270). -/
def Dev.stopRings (d : Dev) : Dev :=
  let d := d.forL (d.egr.rings.map (·.1)) fun d q => d.wrReg (R.EGR_RING_PTR q) 0
  { d with egr := { d.egr with rings := [] } }

/-- STOP_COMPLETE (R186, R281, R488). -/
def Dev.stopComplete (d : Dev) : Dev :=
  match d.pat.next with
  | (f, none) :: _ =>
    if d.swapSettled f && ((List.range 8).all fun k => (d.isl k).tabs.isEmpty) then
      let d := if d.pat.armed.isSome then (d.setPat patLoaded).flag F.PAT_EVENTS_CANCELLED else d
      let d := d.releaseOutgoing f
      let d := { d with pat := { d.pat with armed := none, stop := none, grids := [] }, ing := { d.ing with stopAt := none } }
      let d := ((d.put F.PAT_STATUS_STOP_PEND 0).put F.PAT_STATUS_ACTIVE 0).wrReg R.DEV_MODE 0
      let d := ((d.wrReg R.DEV_TEST_CFG 0).wrReg R.PAT_ACTIVE_ID 0).discardDrains f
      let d := (((d.wrReg (R.FO_WIN_LO 0) 0).wrReg (R.FO_WIN_LO 1) 0).put F.FO_STATUS_WINDOWS 0).freshStreams
      d.stopRings.flag F.PAT_EVENTS_STOPPED
    else d
  | _ => d

/-! ### The generator of T mode (R283) -/

/-- The code of a generated sample: sample counter k, stream s, channel c. -/
def genCode (gen re im fmt k s c : Nat) : Nat :=
  match gen with
  | 2 => if fmt = 0 then re % 16 * 16 + im % 16 else re + 256 * im
  | 3 =>
    let w := (k % 2 ^ 32 * 0x9E3779B1 + s * 0x85EBCA77 + c * 0xC2B2AE3D) % 2 ^ 32
    let w := w ^^^ (w >>> 15)
    if fmt = 0 then bitsOf w 31 24 else bitsOf w 31 24 + 256 * bitsOf w 23 16
  | _ => 0

/-- One stream's generated frame is placed and its corner-turn writes are staged, at most 1,024 bytes of whole sample
times each, at a pace that ingest keeps (DESIGN CHOICE 52). -/
def Dev.genStream (d : Dev) (g n s : Nat) : Dev :=
  let e := d.epoch g + 4096 * n
  let y := d.stream s
  let d := d.setStream s { y with last := max y.last ((e + 4096) % 2 ^ 64) }
  let d := d.noteRejoin g s e
  let nc := d.numCh n
  if d.outFor s n then d.forN 4096 fun d _ => d.discardSample g
  else if d.maskedFor n s then d
  else
    let fmt := d.cfg n F.ING_CT_CFG_FMT
    let code := fun t c => genCode (d.cfg n F.DEV_TEST_CFG_GEN) (d.cfg n F.DEV_TEST_CFG_RE) (d.cfg n F.DEV_TEST_CFG_IM) fmt (e + t) s c
    let pos : Tab Nat := ((List.range 4096).map fun t => (List.range nc).map fun c => (t * 4096 + c, 2 + code t c)).flatten
    let d := d.setStreamFrame g n s { d.streamFrame g n s with pos := pos }
    let ct := d.sigCt n s
    let d := d.forL pos fun d (q : Nat × Nat) => d.capSig n ct (q.1 % 4096) (q.1 / 4096) (some (q.2 - 2))
    let step := max 1 (1024 / max 1 (nc * (fmt + 1)))
    let cell := fun t c => match d.chOwner n c with
      | none => []
      | some k => [(n, k, t * 4096 + c, d.ctAddr n ct k t c, toBytes (fmt + 1) (code t c))]
    let ws := ((List.range (ceilDiv 4096 step)).map fun i =>
      ctWrites (fun _ => g) s (((List.range (min step (4096 - i * step))).map fun j => ((List.range nc).map fun c => cell (i * step + j) c).flatten).flatten)).flatten
    d.forL ws fun d w => { d with ing := { d.ing with staging := d.ing.staging ++ [{ w with id := d.ing.nextWrite }], nextWrite := d.ing.nextWrite + 1 } }

/-- TEST_FRAME_GENERATE (R283): the next frame of group g, whose last sample's device time has come, is delivered
complete. -/
def Dev.testFrameGenerate (d : Dev) (g : Nat) : Dev :=
  let v := d.ahead fun v f => (d.members (f - 1) g).isEmpty && !(v.members f g).isEmpty && v.generated f
  let n := (v.group g).tail 64 (max (v.group g).fold v.ing.first)
  if !v.generated n || v.stoppedFor n || !v.frameOpen g n || (v.members n g).isEmpty then d
  else
    let d := v.openTo n
    let d := d.forL (d.members n g) fun d s => d.genStream g n s
    let d := if d.frameOpen g n && d.frameFull g n then d.completeFrame g n else d
    d.applyMap g

end Sys2Proof.Machine
end

