-- ==== Sys2Proof/Machine/Capture.lean ====
section
/-! DEFINITION. Transient capture: pieces, segments and headers (R316 to R320), triggers and regions (R115, R321 to R325). -/
namespace Sys2Proof.Machine

/-! ### Configuration of a segment -/

/-- The frame in which a segment lies (R317). -/
def segFrame (seq : Nat) : Nat := seq / 16

/-- A capture field in force for frame n: the outgoing pattern's before its swap (R325). -/
def Dev.capCfg (d : Dev) (n : Nat) (f : RF) : Nat :=
  match outgoingAt d.cap.old n with
  | some t => fieldIn t f
  | none => d.get f

/-- The enabled taps for frame n, ascending (R316). -/
def Dev.capTaps (d : Dev) (n : Nat) : List Nat := (List.range 4096).filter fun i => d.capCfg n (F.CAP_TAP_EN i) == 1

/-- Bytes of one piece, and of one tap, of a segment (R317, R318). -/
def Dev.pieceBytes (d : Dev) (n : Nat) : Nat := if d.capCfg n F.CAP_CFG_BITS = 0 then 32 else 16
def Dev.tapBytes (d : Dev) (n : Nat) : Nat := 8 * d.pieceBytes n

/-- Bytes of the validity map, padded (R317). -/
def mapBytes (nt : Nat) : Nat := ceilDiv nt 64 * 64

/-- The slots N of the ring that holds segment seq. -/
def Dev.capSlots (d : Dev) (seq : Nat) : Nat := d.capCfg (segFrame seq) (F.CAP_RING_GEOM_SEGS 0)

/-- The address of segment seq's slot (R317). -/
def Dev.slotAddr (d : Dev) (seq : Nat) : Nat :=
  let n := segFrame seq
  d.capCfg n (F.CAP_RING_BASE_BASE 0) * 64 + seq % max 1 (d.capSlots seq) * (d.capCfg n (F.CAP_RING_GEOM_SEG_UNITS 0) * 64)

/-- Whether frame n lies in a layout that a swap has moved to index 1 (R325). -/
def Dev.inOldLayout (d : Dev) (n : Nat) : Bool := match d.cap.switchAt with | some f => decide (n < f) | none => false

/-! ### Samples and pieces (R318) -/

/-- One part of a sample requantized to 4 bits, and to 2 bits (R318). -/
def quant4 (s : Nat) (v : Int) : Nat :=
  let q := if s = 0 then v else (v + (2 ^ (s - 1) : Nat)) / ((2 ^ s : Nat) : Int)
  ofInt 4 (clampI (-7) 7 q)
def quant2 (s : Nat) (v : Int) : Nat :=
  let t : Int := (2 ^ s : Nat)
  if v < -t then 0 else if v < 0 then 1 else if v < t then 2 else 3

/-- The code of a sample in a piece: a byte at 4 bits, 4 bits at 2 bits. -/
def capCode (two : Bool) (s : Nat) (v : Int × Int) : Nat :=
  if two then quant2 s v.1 * 4 + quant2 s v.2 else quant4 s v.1 * 16 + quant4 s v.2

/-- The bytes of a piece from its 32 codes. -/
def pieceImage (two : Bool) (codes : List Nat) : List Nat :=
  if two then (List.range 16).map fun i => codes.getD (2 * i) 0 + 16 * codes.getD (2 * i + 1) 0 else codes

/-- The slot of segment seq is held by a region for another segment (R324). -/
def Dev.slotHeldOther (d : Dev) (seq : Nat) : Bool :=
  let n := max 1 (d.capSlots seq)
  (List.range 8).any fun r =>
    let s := d.get (F.CAP_RGN_START_SEQ r)
    let e := d.get (F.CAP_RGN_END_SEQ r)
    let x := s + (seq % n + n - s % n) % n
    d.rgnState r != 0 && d.is (F.CAP_RGN_CTRL_OLD r) == d.inOldLayout (segFrame seq)
      && decide (x ≤ e) && (x != seq || decide (x + n ≤ e))

/-- A segment being written; one that has had no write yet is new. -/
def Dev.capSeg (d : Dev) (seq : Nat) : CapSeg := ((d.cap.segs.find? fun s => s.seq == seq)).getD ⟨seq, [], [], [], false⟩
def Dev.setSeg (d : Dev) (s : CapSeg) : Dev :=
  { d with cap := { d.cap with segs := (d.cap.segs.filter fun x => x.seq != s.seq) ++ [s] } }

/-- A segment whose slot is held is skipped, with the pieces assembled for it, and counted once; a region that loses it shows a HOLE
(R324). -/
def Dev.segCheck (d : Dev) (seq : Nat) : Dev :=
  let s := d.capSeg seq
  if s.skip || !d.slotHeldOther seq then d
  else
    let d := (d.setSeg { s with skip := true }).bump (F.CAP_CNT_COUNT 1) 1
    let d := { d with cap := { d.cap with pieces := d.cap.pieces.filter fun y => y.seq != seq } }
    d.forN 8 fun d r =>
      if d.rgnState r != 0 && d.is (F.CAP_RGN_CTRL_OLD r) == d.inOldLayout (segFrame seq) && decide (d.get (F.CAP_RGN_START_SEQ r) ≤ seq)
          && decide (seq ≤ d.get (F.CAP_RGN_END_SEQ r)) then d.flag (F.CAP_RGN_CTRL_HOLE r) else d

/-- CAPTURE_PIECE_DROP (R320). -/
def Dev.dropPiece (d : Dev) (seq tap piece : Nat) : Dev :=
  let s := d.capSeg seq
  let d := d.setSeg { s with dropped := s.dropped ++ [tap * 8 + piece] }
  (d.bump (F.CAP_CNT_COUNT 0) 1).flag F.CAP_EVENTS_DROP

/-- A piece leaves the staging store: it is written to its slot, or dropped where the write queue is full or the write
receives an error (R318, R320). -/
def Dev.writePiece (d : Dev) (full : Bool) (x : CapPiece) : Dev :=
  let d := { d with cap := { d.cap with pieces := d.cap.pieces.filter fun y => !(y.seq == x.seq && y.tap == x.tap && y.piece == x.piece) } }
  let d := d.segCheck x.seq
  if (d.capSeg x.seq).skip then d
  else if d.storeBad 5 then (d.storeUe 5).dropPiece x.seq x.tap x.piece
  else if full then d.dropPiece x.seq x.tap x.piece
  else
    let n := segFrame x.seq
    let two := d.capCfg n F.CAP_CFG_BITS = 1
    let shift := d.capCfg n (F.CAP_TAP_SHIFT ((d.capTaps n).getD x.tap 0))
    let codes := (List.range 32).map fun t => if x.valid.contains t then Tab.get 0 x.codes t else capCode two shift (0, 0)
    let a := d.slotAddr x.seq + 64 + mapBytes (d.capTaps n).length + x.tap * d.tapBytes n + x.piece * d.pieceBytes n
    let w := d.memStore 11 a (pieceImage two codes)
    if w.2 then d.dropPiece x.seq x.tap x.piece
    else
      let s := d.capSeg x.seq
      let key := x.tap * 8 + x.piece
      let d := w.1.setSeg { s with written := s.written ++ [key], valid := if x.valid.length = 32 then s.valid ++ [key] else s.valid }
      d.put F.CAP_HEAD_SEQ_SEQ (max (d.get F.CAP_HEAD_SEQ_SEQ) x.seq)

/-- Bytes of the 4 MiB staging store in use (R318). -/
def Dev.capUsed (d : Dev) : Nat := sumN (d.cap.pieces.map fun x => d.pieceBytes (segFrame x.seq))

/-- A sample joins its piece, opening it if there is room; the piece is written once complete (R318, R320). -/
def Dev.capPut (d : Dev) (full : Bool) (seq tap t : Nat) (code : Option Nat) : Dev :=
  let piece := t / 32
  let d := d.segCheck seq
  let s := d.capSeg seq
  let key := tap * 8 + piece
  if s.skip || s.written.contains key || s.dropped.contains key then d
  else
    let open_ := d.cap.pieces.find? fun y => y.seq == seq && y.tap == tap && y.piece == piece
    if open_.isNone && 4194304 < d.capUsed + d.pieceBytes (segFrame seq) then d.dropPiece seq tap piece
    else
      let x : CapPiece := open_.getD ⟨seq, tap, piece, [], [], []⟩
      let i := t % 32
      let x : CapPiece := { x with
        got := if x.got.contains i then x.got else x.got ++ [i]
        valid := if code.isSome && !x.valid.contains i then x.valid ++ [i] else x.valid
        codes := Tab.set 0 x.codes i (code.getD 0) }
      if x.got.length = 32 then d.writePiece full x
      else { d with cap := { d.cap with pieces := (d.cap.pieces.filter fun y => !(y.seq == seq && y.tap == tap && y.piece == piece)) ++ [x] } }

/-- A sample of frame n at time index t reaches every tap that names it (R316, R318). -/
def Dev.capTake (d : Dev) (full : Bool) (n index ch t : Nat) (v : Option (Int × Int)) : Dev :=
  let two := d.capCfg n F.CAP_CFG_BITS = 1
  d.forL (d.capTaps n).zipIdx fun d (e : Nat × Nat) =>
    if d.capCfg n (F.CAP_TAP_INDEX e.1) = index && d.capCfg n (F.CAP_TAP_CHANNEL e.1) = ch then
      d.capPut full (16 * n + t / 256) e.2 (t % 256) (v.map fun x => capCode two (d.capCfg n (F.CAP_TAP_SHIFT e.1)) x)
    else d

/-- Every piece of segment seq not yet settled is written with what has arrived (R318). -/
def Dev.capFinish (d : Dev) (full : Bool) (seq : Nat) : Dev :=
  d.forN ((d.capTaps (segFrame seq)).length * 8) fun d i =>
    let s := d.capSeg seq
    if s.skip || s.written.contains i || s.dropped.contains i then d
    else d.writePiece full (((d.cap.pieces.find? fun y => y.seq == seq && y.tap == i / 8 && y.piece == i % 8)).getD ⟨seq, i / 8, i % 8, [], [], []⟩)

/-- Moves the lowest frame that has not completed past completed ones. -/
def CapSt.settle (c : CapSt) : Nat → CapSt
  | 0 => c
  | fuel + 1 =>
    if c.early.contains c.frames then { c with early := c.early.filter (· ≠ c.frames), frames := c.frames + 1 }.settle fuel else c

/-- CAPTURE_SAMPLE_ARRIVE (R316, R318, R320): the oldest item on its way to the engine arrives; `full` says that the write
queue is full. -/
def Dev.captureSampleArrive (d : Dev) (full : Bool) : Dev :=
  match d.cap.items with
  | [] => d
  | i :: t =>
    let d := { d with cap := { d.cap with items := t } }
    match i with
    | .sig n ct ch t code =>
      let fmt := d.cfg n F.ING_CT_CFG_FMT
      let v8 := fun (x : Int × Int) => if fmt = 0 then (16 * x.1, 16 * x.2) else x
      d.capTake full n ct ch t (code.map fun c => v8 (sampleParts fmt c))
    | .beam _ beam n ch t bad re im => d.capTake full n beam ch t (if bad then none else some (sext 8 re, sext 8 im))
    | .done n =>
      let d := d.forN 16 fun d j => d.capFinish full (16 * n + j)
      { d with cap := ({ d.cap with early := d.cap.early ++ [n] }).settle 64 }

/-! ### Headers (R319, R324) -/

/-- PAT.ACTIVE_ID for frame n. -/
def Dev.imageIdFor (d : Dev) (n : Nat) : Nat :=
  match outgoingAt d.cap.old n with
  | some t => fieldIn t F.PAT_ACTIVE_ID_IMAGE_ID
  | none => match (d.pat.next.filter fun e => decide (e.1 ≤ n)).getLast? with
    | some (_, some x) => x.id
    | _ => d.get F.PAT_ACTIVE_ID_IMAGE_ID

/-- The header and validity map of a segment (R317, R319). -/
def Dev.segHeader (d : Dev) (s : CapSeg) : List Nat :=
  let n := segFrame s.seq
  let g := d.capCfg n F.CAP_CFG_AG
  let nt := (d.capTaps n).length
  let map := padTo (mapBytes nt) 0 ((List.range nt).map fun j => sumN ((List.range 8).map fun k => if s.valid.contains (j * 8 + k) then 2 ^ k else 0))
  let flags := d.capCfg n F.CAP_CFG_BITS + 2 * d.capCfg n F.CAP_CFG_KIND + 4 * b2n (!s.dropped.isEmpty)
  let h := toBytes 4 0x47535043 ++ [flags, g] ++ toBytes 2 nt ++ toBytes 8 s.seq ++ toBytes 8 ((d.epoch g + 256 * s.seq) % 2 ^ 64) ++ toBytes 6 n ++ [0, 0]
    ++ toBytes 8 (d.imageIdFor n) ++ List.replicate 20 0
  h ++ toBytes 4 (crc32c (h ++ map)) ++ map

/-- Whether every piece of the segment can be settled: its frame has completed, or every island with a tapped channel has
passed it and its samples have arrived (R319). -/
def Dev.segReady (d : Dev) (seq : Nat) : Bool :=
  let n := segFrame seq
  if d.capCfg n F.CAP_CFG_KIND = 0 then n < d.cap.frames || d.cap.early.contains n
  else
    (List.range 8).all (fun k =>
      let owns := (d.capTaps n).any fun i => d.chOwner n (d.capCfg n (F.CAP_TAP_CHANNEL i)) == some k
      !owns || decide (n < d.islFrame k) || (d.isl k).held)
      && !(d.cap.items.any fun i => match i with | .beam _ _ m _ _ _ _ _ => m == n | _ => false)
      && !((List.range 8).any fun k => (d.isl k).toMem.any fun i => match i with | .beam _ _ m _ _ _ _ _ => m == n | _ => false)

/-- OPEN regions whose END has been passed become FROZEN (R324). -/
def Dev.freezeRegions (d : Dev) : Dev :=
  d.forN 8 fun d r =>
    if d.rgnState r = 1 && d.get (F.CAP_RGN_END_SEQ r) < d.get F.CAP_NEXT_SEQ_SEQ then
      (d.put (F.CAP_RGN_CTRL_STATE r) 2).flag F.CAP_EVENTS_FROZEN
    else d

/-- The last segment before a swap or stop is settled: the outgoing layout is done with, and a new ring starts (R325). -/
def Dev.capTurn (d : Dev) : Dev :=
  let next := d.get F.CAP_NEXT_SEQ_SEQ
  let past := fun (o : Option Nat) => match o with | some f => decide (16 * f ≤ next) | none => false
  let d := { d with cap := { d.cap with old := d.cap.old.filter fun e => next < 16 * e.1 } }
  let d := if past d.cap.stopAt then { d with cap := { d.cap with stopAt := none } } else d
  if past d.cap.switchAt then { d with cap := { d.cap with switchAt := none } }.put F.CAP_HEAD_SEQ_SEQ (max next (d.get F.CAP_HEAD_SEQ_SEQ)) else d

/-- Moves NEXT_SEQ past segments whose header is written (R330). -/
def Dev.nextSeq (d : Dev) : Nat → Dev
  | 0 => d
  | fuel + 1 =>
    let seq := d.get F.CAP_NEXT_SEQ_SEQ
    if d.cap.heads.contains seq then
      (({ d with cap := { d.cap with heads := d.cap.heads.filter (· ≠ seq) } }).put F.CAP_NEXT_SEQ_SEQ (seq + 1)).nextSeq fuel
    else d

/-- The lowest segment without a header whose pieces can be settled: one of the frame of NEXT_SEQ or of a frame that completed before an
older one. -/
def Dev.headerDue (d : Dev) : Option Nat :=
  let next := d.get F.CAP_NEXT_SEQ_SEQ
  let segs := next :: (((sortBy (fun n => n) d.cap.early).map fun n => (List.range 16).map (16 * n + ·)).flatten)
  segs.find? fun s => decide (next ≤ s) && !d.cap.heads.contains s && d.capCfg (segFrame s) F.CAP_CFG_EN == 1 && d.segReady s

/-- CAPTURE_HEADER_WRITE (R319, R320, R324): the header and map of the lowest segment due are written once its pieces are settled; a skipped
segment is passed over. Whether the write queue is full for pieces still open is a free value. -/
def Dev.captureHeaderWrite (d : Dev) : Dev :=
  match d.headerDue with
  | none => d
  | some seq =>
    if d.memBusy (d.slotAddr seq) (64 + mapBytes (d.capTaps (segFrame seq)).length) then d else
    let d := ((d.segCheck seq).capFinish (Config.capQueueFull d.free) seq).fresh
    let s := d.capSeg seq
    let d := if s.skip then d else
      let d := (d.memStore 11 (d.slotAddr seq) (d.segHeader s)).1
      d.put F.CAP_HEAD_SEQ_SEQ (max (d.get F.CAP_HEAD_SEQ_SEQ) seq)
    let d := { d with cap := { d.cap with segs := d.cap.segs.filter fun x => x.seq != seq, heads := d.cap.heads ++ [seq] } }
    ((d.nextSeq d.cap.heads.length).freezeRegions).capTurn

/-! ### Triggers and regions (R115, R321 to R325) -/

/-- The greatest sample counter whose device time under a map is no later than t. -/
def TimeMap.counterAt (m : TimeMap) (t : Nat) : Int :=
  if m.period = 0 then (if m.ref ≤ t then 2 ^ 64 - 1 else -1)
  else min ((m.sc : Int) + ((t : Int) - m.ref) / (m.period : Int)) (2 ^ 64 - 1)

/-- The frame of a counter, 0 below the epoch. -/
def frameOfCounter (e : Nat) (s : Int) : Nat := if s < e then 0 else ((s - e) / 4096).toNat

/-- The counter s, or the last one below frame `top` of a group with epoch e. -/
def underTop (e : Nat) (top : Option Nat) (s : Int) : Int := match top with | none => s | some b => min s ((e : Int) + 4096 * b - 1)

/-- The greatest counter of a group with epoch e at device time t, each frame under its own map (R44, R321): a map in force below frame
`top` gives no counter of that frame or a later one. -/
def counterIn (e t : Nat) (top : Option Nat) : List (Nat × TimeMap) → Int
  | [] => underTop e top (TimeMap.reset.counterAt t)
  | (b, m) :: rest =>
    let s := underTop e top (m.counterAt t)
    if b ≤ frameOfCounter e s then s else counterIn e t (some b) rest

/-- A device time as a segment number (R321). -/
def Dev.segAt (d : Dev) (t : Nat) : Nat :=
  let g := d.get F.CAP_CFG_AG
  let s := counterIn (d.epoch g) t none (d.group g).maps
  if s < d.epoch g then 0 else ((s - d.epoch g) / 256).toNat

/-- TRIGGER_FORWARD (R115, R322): a local trigger goes out three times on the C2C lanes that are UP. No register or field of an image names
lanes for triggers: the model takes every lane of role C2C (DESIGN CHOICE 107). -/
def Dev.forwardTrigger (d : Dev) (cause q : Nat) : Dev :=
  if bitOf (d.get F.CAP_TRIG_CFG_FWD) cause then
    let g := d.get F.CAP_CFG_AG
    let t := d.sampleTime g (d.epoch g + 256 * q)
    let b := sealBlock ([8, d.get F.DEV_MODE_CHIP] ++ toBytes 2 (d.get (F.CAP_CNT_COUNT 5)) ++ toBytes 6 (timeSec t) ++ toBytes 4 (timeNs t) ++ [cause])
    let d := d.bump (F.CAP_CNT_COUNT 5) 1
    d.forN 96 fun d n => if d.laneRole n = roleC2C && d.laneUp n then d.updTx n fun x => { x with trig := x.trig ++ [b, b, b] } else d
  else d

/-- Regions in use of the current layout. -/
def Dev.liveRegions (d : Dev) : List Nat := (List.range 8).filter fun r => d.rgnState r != 0 && !d.is (F.CAP_RGN_CTRL_OLD r)

/-- Segments that all regions in use hold together. -/
def Dev.heldSegs (d : Dev) : Nat :=
  sumN (((List.range 8).filter fun r => d.rgnState r != 0).map fun r => d.get (F.CAP_RGN_END_SEQ r) + 1 - d.get (F.CAP_RGN_START_SEQ r))

/-- A trigger at q is settled (R323): merged, refused, or a new region. -/
def Dev.settleTrigger (d : Dev) (cause q : Nat) (ext : Bool) : Dev :=
  let n := d.get (F.CAP_RING_GEOM_SEGS 0)
  let low := d.get F.CAP_HEAD_SEQ_SEQ + 1 - n
  let s0 := q - d.get F.CAP_TRIG_CFG_PRE
  let s := max s0 low
  let e := (q + d.get F.CAP_TRIG_CFG_POST) % 2 ^ 52
  let touches := fun r => s ≤ d.get (F.CAP_RGN_END_SEQ r) + 1 && d.get (F.CAP_RGN_START_SEQ r) ≤ e + 1
  let free := (List.range 8).find? fun r => d.rgnState r == 0
  let taken := fun (d : Dev) (r : Nat) =>
    let d := (d.put (F.CAP_RGN_CTRL_CAUSE_LAST r) (b2n ext)).put (F.CAP_RGN_CTRL_STATE r) 1
    ((if s0 < low then d.flag (F.CAP_RGN_CTRL_CLIPPED r) else d).bump (F.CAP_CNT_COUNT 2) 1).flag F.CAP_EVENTS_TRIGGER
  match d.liveRegions.find? touches, free with
  | some r, _ =>
    let frozen := d.rgnState r == 2
    let e' := max e (d.get (F.CAP_RGN_END_SEQ r))
    let d := (d.put (F.CAP_RGN_START_SEQ r) (min s (d.get (F.CAP_RGN_START_SEQ r)))).put (F.CAP_RGN_END_SEQ r) e'
    let d := taken (d.bump (F.CAP_RGN_CTRL_TRIGGERS r) 1) r
    if frozen && e' < d.get F.CAP_NEXT_SEQ_SEQ then d.put (F.CAP_RGN_CTRL_STATE r) 2 else d.freezeRegions
  | none, none => ((d.bump (F.CAP_CNT_COUNT 3) 1).flag F.CAP_EVENTS_REFUSED).event F.CAP_EVENTS_REFUSED 0 [cause, q]
  | none, some r =>
    if n < d.heldSegs + (e + 1 - s) + 256 then ((d.bump (F.CAP_CNT_COUNT 3) 1).flag F.CAP_EVENTS_REFUSED).event F.CAP_EVENTS_REFUSED 0 [cause, q]
    else
      let d := ((d.wrReg (R.CAP_RGN_CTRL r) 0).put (F.CAP_RGN_START_SEQ r) s).put (F.CAP_RGN_END_SEQ r) e
      (taken d r).freezeRegions

/-- An enabled trigger reaches the engine (R321 to R323): without a pattern it is discarded and counted. -/
def Dev.capTrigger (d : Dev) (cause q : Nat) (loc ext : Bool) : Dev :=
  if !d.active then d.bump (F.CAP_CNT_COUNT 4) 1
  else (if loc then d.forwardTrigger cause q else d).settleTrigger cause q ext

/-- CAPTURE_TRIGGER (R197, R321): the oldest trigger of a reduction unit arrives. -/
def Dev.captureTrigger (d : Dev) : Dev :=
  match d.trigs with
  | [] => d
  | x :: t =>
    let d := { d with trigs := t }
    if bitOf (d.get F.CAP_TRIG_CFG_RED_EN) x.k then d.capTrigger 0 (16 * x.v.frame) true false else d

/-- TRIG_IN_EDGE (R321): the pin reads high after reading low, at the device time of this timing cycle. -/
def Dev.trigInEdge (d : Dev) : Dev := if d.is F.CAP_TRIG_CFG_PIN_EN then d.capTrigger 1 (d.segAt d.time) true true else d

/-- TRIG_SW (R321): a whole-width write of `v` to CAP.TRIG_SW. -/
def Dev.trigSw (d : Dev) (v : Nat) : Dev :=
  if d.is F.CAP_TRIG_CFG_SW_EN then d.capTrigger 2 (if bitOf v 63 then d.get F.CAP_NEXT_SEQ_SEQ else v % 2 ^ 52) true false else d

/-- A received TRIGGER at the engine (R115, R321): a copy of a pair that came in the preceding 1 s of device time is ignored, and counts as
such a copy itself. -/
def Dev.triggerAct (d : Dev) (p : Payload) : Dev :=
  let src := pf p 1 0 8
  let id := pf p 2 0 16
  let old := d.seenTrig.any fun x => x.1 == src && x.2.1 == id && decide (d.viewIng ≤ x.2.2 + secUnit)
  let d := { d with seenTrig := (d.seenTrig.filter fun (x : Nat × Nat × Nat) => !(x.1 == src && x.2.1 == id)) ++ [(src, id, d.viewIng)] }
  let t := timeOf (pf p 4 0 48) (pf p 10 0 32) 0
  if !old && d.is F.CAP_TRIG_CFG_C2C_EN then d.capTrigger (pf p 14 0 4) (d.segAt t) false true else d

/-- REGION_RELEASE (R324, R325): region r becomes FREE; an outgoing layout without a region left is no longer held. -/
def Dev.regionRelease (d : Dev) (r : Nat) : Dev :=
  if d.rgnState r = 0 then d
  else
    let d := (d.put (F.CAP_RGN_CTRL_STATE r) 0).put (F.CAP_RGN_CTRL_OLD r) 0
    if d.cap.switchAt.isNone && (List.range 8).all fun r => d.rgnState r == 0 || !d.is (F.CAP_RGN_CTRL_OLD r) then
      d.put (F.CAP_RING_GEOM_VALID 1) 0
    else d

end Sys2Proof.Machine
end

