-- ==== Sys2Proof/Machine/Failover.lean ====
section
/-! DEFINITION. Paired failover (R116, R487 to R495): roles, switchovers, HANDOVER blocks and windows. -/
namespace Sys2Proof.Machine

/-- Codes of FO.STATUS.ROLE. -/
def foStandby : Nat := 0
def foAssuming : Nat := 1
def foActive : Nat := 2
def foReleasing : Nat := 3
def foDraining : Nat := 4

/-- The level that the device drives on FO_ROLE (R487). -/
def Dev.foRolePin (d : Dev) : Bool := d.get F.FO_STATUS_ROLE == foAssuming || d.get F.FO_STATUS_ROLE == foActive

def Dev.setGap (d : Dev) (g : Option Gap) : Dev := { d with fo := { d.fo with gap := g } }

/-- The dump boundaries of the panels' grids in (lo, hi] (R247, R489). -/
def Dev.gridBoundaries (d : Dev) (lo hi : Nat) : Nat :=
  let first := d.pat.grids.foldl (fun m (e : Nat × Nat × Nat) => min m e.2.1) hi
  let lo := max lo first
  ((List.range (hi - lo)).filter fun i => d.dumpBoundary (lo + 1 + i) false 0).length

/-- A switchover starts (R489): the chip takes its role and proposes F_HO, HO_COUNT and NEXT_DUMP. -/
def Dev.startSwitch (d : Dev) (releasing : Bool) : Dev :=
  let f := d.get F.ING_FRAME_HEAD_HEAD + 2
  let next := (d.get F.EGR_DUMP_SEQ_NEXT + d.gridBoundaries (d.get F.EGR_DUMP_LAST_F_FRAME) f) % 2 ^ 32
  let own := (f, (d.get F.FO_STATUS_HO_COUNT + 1) % 65536, next)
  let d := d.put F.FO_STATUS_ROLE (if releasing then foReleasing else foAssuming)
  d.setGap (some { releasing := releasing, own := own, partner := none, agreedLeft := none, blocks := 0, sent := false })

/-- The level that counts is acted on: it may start a switchover (R489, R494). -/
def Dev.foAct (d : Dev) : Dev :=
  let role := d.get F.FO_STATUS_ROLE
  if d.is F.FO_STATUS_REQ then if role = foStandby || role = foDraining then d.startSwitch false else d
  else if role = foActive || role = foDraining then d.startSwitch true
  else d

/-- FO_REQ_CHANGE (R487, R489, R494): a level on FO_REQ_N has been stable for 256 egress cycles; `low` tells which. During a gap
the level waits for its end. -/
def Dev.foReqChange (d : Dev) (low : Bool) : Dev :=
  let d := d.put F.FO_STATUS_REQ (b2n low)
  if d.fo.gap.isSome then { d with fo := { d.fo with later := true } } else d.foAct

/-- The values of a switchover: agreed once a partner's HANDOVER is held (R490), else the chip's own. -/
def Gap.values (g : Gap) : Nat × Nat × Nat :=
  match g.partner with
  | none => g.own
  | some p => (max g.own.1 p.1, max g.own.2.1 p.2.1, if g.releasing then g.own.2.2 else p.2.2)

/-- The HANDOVER block that a chip sends (R97). -/
def Dev.handoverBlock (d : Dev) (g : Gap) : Payload :=
  let v := g.values
  sealBlock ([9, b2n (!g.releasing), d.get F.FO_CFG_PAIR_ID] ++ toBytes 6 v.1 ++ toBytes 4 v.2.2 ++ toBytes 2 v.2.1)

/-- The UP lanes of the groups in GROUPS, and of C2C (R489). -/
def Dev.foLanes (d : Dev) (c2c : Bool) : List Nat :=
  (List.range 96).filter fun n =>
    (d.laneRole n == roleEgress || d.laneRole n == roleC2C) && d.laneUp n
      && (bitOf (d.get F.FO_CFG_GROUPS) (d.laneGroup n) || (c2c && d.laneGroup n == d.get F.FO_CFG_C2C))

/-- Sends k HANDOVERs on every lane of the switchover. -/
def Dev.sendHandovers (d : Dev) (g : Gap) (k : Nat) : Dev :=
  let p := d.handoverBlock g
  d.forL (d.foLanes true) fun d n => d.updTx n fun t => { t with handover := t.handover ++ List.replicate k p }

/-- HANDOVER_REPEAT (R489, R490): the first HANDOVER goes out once the frames in progress on the lanes of GROUPS are complete,
followed by the three with agreed values if the chip holds the partner's; without agreement it is repeated every 16 blocks. -/
def Dev.handoverRepeat (d : Dev) : Dev :=
  match d.fo.gap with
  | none => d
  | some g =>
    if !g.sent then
      if (d.foLanes false).any fun n => (d.lane n).tx.cur.isSome then d
      else
        let d := d.sendHandovers g (if g.partner.isSome then 4 else 1)
        d.setGap (some { g with sent := true, agreedLeft := if g.partner.isSome then some 3 else none })
    else if g.agreedLeft.isSome then d
    else (d.sendHandovers g 1).setGap (some { g with blocks := g.blocks + 16 })

/-- A received HANDOVER of C2C lane n at failover control (R116, R490). It counts during a switchover if it carries the PAIR_ID and the
opposite ROLE. -/
def Dev.handoverAct (d : Dev) (n : Nat) (p : Payload) : Dev :=
  match d.fo.gap with
  | none => d
  | some g =>
    let mine := d.laneGroup n == d.get F.FO_CFG_C2C && pf p 2 0 8 == d.get F.FO_CFG_PAIR_ID && (pf p 1 0 1 == b2n g.releasing)
    if !mine then d
    else
      let g := { g with partner := some (pf p 3 0 48, pf p 13 0 16, pf p 9 0 32) }
      if g.sent && g.agreedLeft.isNone then
        (d.sendHandovers g 3).setGap (some { g with agreedLeft := some 3 })
      else d.setGap (some g)

/-! ### Windows (R488, R493) -/

/-- A unit that window (l, h] covers and that has not begun to leave. -/
def Dev.windowOwes (d : Dev) (l h : Nat) (u : EgrUnit) : Bool :=
  u.txn == 0 && !u.drop && d.cfg u.cfg F.FO_CFG_EN == 1 && u.kind != 5 && d.qcfg u (F.EGR_QUEUE_DEST u.queue) == 1
    && bitOf (d.cfg u.cfg F.FO_CFG_GROUPS) (d.qcfg u (F.EGR_QUEUE_GROUP u.queue))
    && (match u.f with
        | some f => decide (l < f) && decide (f ≤ h)
        | none => decide (l ≤ u.cfg) && decide (u.cfg < h))

/-- Sets window w. -/
def Dev.setWindow (d : Dev) (w : Nat) (x : Option (Nat × Nat)) : Dev :=
  match x with
  | none => (d.wrReg (R.FO_WIN_LO w) 0).wrReg (R.FO_WIN_HI w) 0
  | some (l, h) => ((d.flag (F.FO_WIN_LO_VALID w)).put (F.FO_WIN_LO_L w) l).put (F.FO_WIN_HI_H w) h

/-- The windows held, oldest first. -/
def Dev.windows (d : Dev) : List (Nat × Nat) :=
  ((List.range 2).filter fun w => d.is (F.FO_WIN_LO_VALID w)).map fun w => (d.get (F.FO_WIN_LO_L w), d.get (F.FO_WIN_HI_H w))

/-- Shows the windows, oldest first. -/
def Dev.setWindows (d : Dev) (l : List (Nat × Nat)) : Dev :=
  ((d.setWindow 0 l[0]?).setWindow 1 l[1]?).put F.FO_STATUS_WINDOWS (min 2 l.length)

/-- A window that would be the third discards the oldest with its undelivered units (R493). -/
def Dev.openWindow (d : Dev) (l h : Nat) : Dev :=
  match d.windows with
  | [a, b] =>
    let lost := (d.egr.wait ++ (d.egr.queues.map (·.2)).flatten).filter (d.windowOwes a.1 a.2)
    let keep := fun (u : EgrUnit) => !lost.contains u
    let d := d.updEgr fun e =>
      { e with
        wait := e.wait.filter keep
        queues := e.queues.filterMap fun x => match x.2.filter keep with | [] => none | l => some (x.1, l) }
    let d := d.forL lost fun d u => d.countDropped u
    ((d.flag F.FO_EVENTS_WINDOW_LOST).event F.FO_EVENTS_WINDOW_LOST 0 [a.1, a.2]).setWindows [b, (l, h)]
  | ws => d.setWindows (ws ++ [(l, h)])

/-! ### The end of a gap (R491, R492) -/

/-- What the end of a switchover does in both chips (R491, R492, R495), its gap having lasted `blocks` blocks. -/
def Dev.gapEnd (d : Dev) (g : Gap) (alone : Bool) (blocks : Nat) : Dev :=
  let v := g.values
  let d := if g.releasing then
      let ws := d.windows.map fun (w : Nat × Nat) => if w.2 = 2 ^ 48 - 1 then (w.1, v.1) else w
      (d.setWindows ws).put F.FO_STATUS_ROLE foDraining
    else
      let d := (d.put F.FO_STATUS_ROLE foActive).openWindow v.1 (2 ^ 48 - 1)
      if v.2.2 = g.own.2.2 then d
      else
        let d := d.put F.EGR_DUMP_SEQ_NEXT (d.get F.EGR_DUMP_SEQ_NEXT + (v.2.2 + 2 ^ 32 - g.own.2.2))
        (d.flag F.FO_EVENTS_SEQ_MISMATCH).event F.FO_EVENTS_SEQ_MISMATCH 0 [v.2.2, g.own.2.2]
  let d := ((d.put F.FO_STATUS_HO_COUNT v.2.1).putSat F.FO_LAST_GAP blocks).put F.FO_LAST_F_HO v.1
  let d := (d.put F.FO_LAST_NEXT_NEXT_DUMP v.2.2).flag F.FO_EVENTS_SWITCHED
  let d := d.append ⟨6, R.FO_STATUS.block, 0, .bytes ([b2n (!g.releasing), d.get F.FO_CFG_PAIR_ID, b2n alone, 0]
    ++ toBytes 2 v.2.1 ++ [0, 0] ++ toBytes 6 v.1 ++ toBytes 6 g.own.1 ++ toBytes 4 v.2.2 ++ toBytes 2 (d.get F.FO_LAST_GAP)), false⟩
  let later := d.fo.later
  let d := { d with fo := FoSt.init }
  (if later then d.foAct else d).checkDumps

/-- HANDOVER_WAIT_EXPIRE (R491): WAIT blocks after its first HANDOVER a chip without agreement goes on alone. -/
def Dev.handoverWaitExpire (d : Dev) : Dev :=
  match d.fo.gap with
  | none => d
  | some g =>
    if g.sent && g.partner.isNone then (d.flag F.FO_EVENTS_ALONE).gapEnd g true (8 * d.get F.FO_CFG_WAIT) else d

/-- HANDOVER_GAP_END (R490, R492): the last of the three HANDOVERs with agreed values has been sent, `blocks` blocks after the
first. -/
def Dev.handoverGapEnd (d : Dev) (blocks : Nat) : Dev :=
  match d.fo.gap with
  | none => d
  | some g =>
    if g.agreedLeft.isSome && (d.foLanes true).all fun n => (d.lane n).tx.handover.isEmpty then d.gapEnd g false blocks else d

/-- FO_RELEASE_COMPLETE (R492): a DRAINING chip whose last dump is complete on every queue of GROUPS, and whose islands have all
reached F_HO, becomes STANDBY; a closed window that nothing waits for is given up. -/
def Dev.foReleaseComplete (d : Dev) : Dev :=
  let f := d.get F.FO_LAST_F_HO
  let ended := !(d.relay.any fun i => match i with | .dump n => decide (n ≤ f) | _ => false) && d.egr.numbers.all fun (n : Nat × Nat) =>
    f < n.1 || (d.dumpQueues (n.1 - 1)).all fun q =>
      d.egr.ended.contains (q, n.1) || !bitOf (d.cfg (n.1 - 1) F.FO_CFG_GROUPS) (d.cfg (n.1 - 1) (F.EGR_QUEUE_GROUP q))
  if d.get F.FO_STATUS_ROLE = foDraining && ended && (List.range 8).all fun k => decide (f ≤ d.get (F.ISL_FRAME_NO_FRAME_NO k)) then
    let d := d.setWindows (d.windows.filter fun (w : Nat × Nat) => w.2 == 2 ^ 48 - 1 || d.egr.wait.any (d.windowOwes w.1 w.2))
    d.put F.FO_STATUS_ROLE foStandby
  else d

end Sys2Proof.Machine
end

