-- ==== Sys2Proof/Machine/Housekeeping.lean ====
section
/-! DEFINITION. The housekeeping converter (R468 to R471). -/
namespace Sys2Proof.Machine

/-- The cycles of the 5 MHz modulator that a conversion lasts under CFG (R469): order × decimation, 4 being the order of sinc4. -/
def Dev.hkSettle (d : Dev) : Nat :=
  let dec := match d.get F.HK_CFG_NOTCH with
    | 1 => 100000
    | 2 => 83333
    | _ => 64 * 4 ^ d.get F.HK_CFG_DECIM
  (3 + min 2 (d.get F.HK_CFG_ORDER)) * dec

/-- The enabled inputs, ascending (R470). -/
def Dev.hkInputs (d : Dev) : List Nat := (List.range 24).filter fun i => bitOf (d.get F.HK_SEQ_EN_EN) i

/-- CURRENT and URGENT_BUSY show what the converter does. -/
def Dev.hkShow (d : Dev) : Dev :=
  let d := d.put F.HK_STATUS_URGENT_BUSY (b2n (d.hk.urgent.isSome || d.hk.held.isSome))
  d.put F.HK_STATUS_CURRENT (match d.hk.urgent, d.hk.scan with | some i, _ => i | none, some i => i | none, none => 0)

/-- The conversion of the scan that starts after input `last`, none where the scan is off (R470); a pass that wraps is shown. -/
def Dev.hkNext (d : Dev) (last : Nat) : Dev :=
  let ins := d.hkInputs
  if !d.is F.HK_CFG_EN || ins.isEmpty then { d with hk := { d.hk with scan := none } }.hkShow
  else match ins.find? fun i => decide (last < i) with
    | some i => { d with hk := { d.hk with scan := some i } }.hkShow
    | none => (({ d with hk := { d.hk with scan := ins.head? } }).flag F.HK_STATUS_SCAN_DONE).hkShow

/-- An idle converter starts when CFG or SEQ_EN lets it (R470). -/
def Dev.hkKick (d : Dev) : Dev :=
  if d.hk.scan.isNone && d.is F.HK_CFG_EN then { d with hk := { d.hk with scan := d.hkInputs.head? } }.hkShow else d

/-- HK_CONVERSION_DONE (R468, R470, R471): the running conversion ends with `code`. After an urgent one the held request runs, else
the aborted conversion starts again. -/
def Dev.hkConversionDone (d : Dev) (code : Nat) : Dev :=
  match d.hk.urgent, d.hk.scan with
  | some i, _ =>
    let d := ((d.flag F.HK_URGENT_RESULT_VALID).put F.HK_URGENT_RESULT_INPUT i).put F.HK_URGENT_RESULT_CODE code
    ({ d with hk := { d.hk with urgent := d.hk.held, held := none } }.flag F.HK_STATUS_URGENT_DONE).hkShow
  | none, some i =>
    let d := ((d.flag (F.HK_RESULT_VALID i)).bump (F.HK_RESULT_COUNT i) 1).put (F.HK_RESULT_CODE i) code
    d.hkNext i
  | none, none => d

/-- HK_URGENT_REQUEST (R471): GO is written with an input. A request for an input that does not exist is refused (DESIGN
CHOICE 6). -/
def Dev.hkUrgentRequest (d : Dev) (i : Nat) : Dev :=
  let d := d.put F.HK_URGENT_INPUT i
  if 24 ≤ i then d.flag F.HK_STATUS_REFUSED
  else if d.hk.urgent.isNone then { d with hk := { d.hk with urgent := some i } }.hkShow
  else if d.hk.held.isNone then { d with hk := { d.hk with held := some i } }.hkShow
  else d.flag F.HK_STATUS_REFUSED

end Sys2Proof.Machine
end

