-- ==== Sys2Proof/Machine/Ptp.lean ====
section
/-! DEFINITION. IEEE 1588 time stamps and the TIME blocks of the lanes (R408 to R411). -/
namespace Sys2Proof.Machine

/-- Units of 2^-16 ns in units of 2^-32 ns. -/
def ns16 (x : Int) : Int := x * 65536

/-- The corrected receive stamp of port p for a first bit at device time `at_`: less PORT_LAT.RX, and less ASYM for a Sync or SYNC (R410). -/
def Dev.rxStamp (d : Dev) (p at_ : Nat) (sync : Bool) : Nat :=
  let t : Int := (at_ : Int) - ns16 (d.get (F.PTP_PORT_LAT_RX p))
    - (if sync then ns16 (sext 32 (d.get (F.PTP_PORT_CFG_ASYM p))) else 0)
  (clampI 0 clockMax t).toNat

/-- The corrected transmit stamp of port p: plus PORT_LAT.TX, and less ASYM for a Delay_Req or DELAY_REQ (R410). -/
def Dev.txStamp (d : Dev) (p : Nat) (delayReq : Bool) : Nat :=
  let t : Int := (d.time : Int) + ns16 (d.get (F.PTP_PORT_LAT_TX p))
    - (if delayReq then ns16 (sext 32 (d.get (F.PTP_PORT_CFG_ASYM p))) else 0)
  (clampI 0 clockMax t).toNat

/-- Shows the FIFO's level. -/
def Dev.ptpLevel (d : Dev) : Dev := d.put F.PTP_STATUS_LEVEL d.ptp.fifo.length

/-- TIMESTAMP_CAPTURE (R411): a corrected stamp enters the FIFO of 256 entries, or is discarded with OVERFLOW, and the next entry popped
has LOST set. -/
def Dev.stamp (d : Dev) (x : PtpStamp) : Dev :=
  if d.ptp.fifo.length < 256 then
    ({ d with ptp := { d.ptp with fifo := d.ptp.fifo ++ [x] } }).ptpLevel
  else { d with ptp := { d.ptp with lost := true } }.flag F.PTP_STATUS_OVERFLOW

/-- The TIME block that a message makes (R97), carrying a time. -/
def timeBlock (m : TimeOut) (t : Nat) : Payload :=
  sealBlock ([3, m.msg % 4] ++ toBytes 2 m.seqId ++ toBytes 6 (timeSec t) ++ toBytes 4 (timeNs t) ++ toBytes 4 (timeFrac t) ++ [m.domain])

/-- A TIME block leaves on lane n: its own transmit time is inserted in a SYNC or DELAY_REQ, and its stamp taken where
the port is enabled (R409, R410, R411). Gives the block too. -/
def Dev.sendTime (d : Dev) (n : Nat) (m : TimeOut) : Dev × Payload :=
  let t := d.txStamp (1 + n) (m.msg == 1)
  let p := timeBlock m (if m.msg = 2 then m.time else t)
  if d.is (F.PTP_PORT_CFG_EN (1 + n)) then
    (d.stamp { tx := true, port := 1 + n, type := 8 + m.msg, domain := m.domain, seqId := m.seqId, time := t, carried := 0 }, p)
  else (d, p)

/-- TIME_RECEIVE (R409, R410, R411): the TIME block at the head of lane n's elastic buffer is stamped; a DELAY_REQ makes a
DELAY_RESP due where AUTO_RESP is set. MSG 3 is discarded and counted; a port that is not enabled discards the block. -/
def Dev.timeReceive (d : Dev) (n : Nat) : Dev :=
  match d.takeCtrl n 3 with
  | none => d
  | some (p, d') =>
    let at_ := d.headTime n
    let d := d'.afterCtrl n
    let msg := pf p 1 0 2
    if msg = 3 then d.bump (F.FRM_CNT_COUNT n 7) 1
    else if !d.is (F.PTP_PORT_CFG_EN (1 + n)) then d
    else
      let t := d.rxStamp (1 + n) at_ (msg == 0)
      let seqId := pf p 2 0 16
      let dom := pf p 18 0 8
      let carried := timeOf (pf p 4 0 48) (pf p 10 0 32) (pf p 14 0 32)
      let d := d.stamp { tx := false, port := 1 + n, type := 8 + msg, domain := dom, seqId := seqId, time := t, carried := carried }
      if msg = 1 && d.is (F.PTP_PORT_CFG_AUTO_RESP (1 + n)) then
        { d with ptp := { d.ptp with owed := d.ptp.owed ++ [(n, { msg := 2, seqId := seqId, domain := dom, time := t })] } }
      else d

/-- DELAY_RESP_SEND (R409): the DELAY_RESP owed on lane n is queued for its next free block boundary. -/
def Dev.delayRespSend (d : Dev) (n : Nat) : Dev :=
  match d.ptp.owed.find? fun o => o.1 == n with
  | none => d
  | some o =>
    let d := { d with ptp := { d.ptp with owed := d.ptp.owed.erase o } }
    if d.laneUp n then d.updTx n fun t => { t with time := t.time ++ [o.2] } else d

/-- PTP_LANE_TX (R409): a whole-width write of `v` to PTP.LANE_TX sends one SYNC or DELAY_REQ, or is refused. -/
def Dev.ptpLaneTx (d : Dev) (v : Nat) : Dev :=
  let n := bitsOf v 6 0
  let msg := bitsOf v 9 8
  if 2 ≤ msg || 96 ≤ n || !d.laneUp n then d.flag F.PTP_STATUS_TX_REFUSED
  else d.updTx n fun t => { t with time := t.time ++ [{ msg := msg, seqId := bitsOf v 31 16, domain := bitsOf v 39 32, time := 0 }] }

/-- TS_POP (R411): a read of PTP.TS_POP removes the head entry, copies its times and gives its key; zero when empty. -/
def Dev.tsPop (d : Dev) : Dev × Nat :=
  match d.ptp.fifo with
  | [] => (d, 0)
  | x :: t =>
    let lost := d.ptp.lost
    let d := ({ d with ptp := { d.ptp with fifo := t, lost := false } }).ptpLevel
    let d := d.put F.PTP_TS_SEC_SEC (timeSec x.time)
    let d := (d.put F.PTP_TS_NSF_NS (timeNs x.time)).put F.PTP_TS_NSF_FRAC (timeFrac x.time)
    let d := d.put F.PTP_TS_CSEC_SEC (timeSec x.carried)
    let d := (d.put F.PTP_TS_CNSF_NS (timeNs x.carried)).put F.PTP_TS_CNSF_FRAC (timeFrac x.carried)
    (d, 2 ^ 63 + b2n x.tx * 2 ^ 62 + b2n lost * 2 ^ 61 + x.port % 128 * 2 ^ 54 + x.type % 16 * 2 ^ 50
          + x.domain % 256 * 2 ^ 40 + x.seqId % 65536 * 2 ^ 16)

end Sys2Proof.Machine
end

