-- ==== Sys2Proof/Machine/Lanes.lean ====
section
/-! DEFINITION. The lane commands: receiving and transmitting blocks (R65, R85 to R93, R98), training (R69 to R72), idle and
wake (R77 to R79), replay and pause at the transmit half (R108 to R114), and PRBS (R81 to R83). -/
namespace Sys2Proof.Machine

/-! ### Scrambler and stuffing (R88, R90, R91) -/

/-- One bit through the transmit scrambler: the bit sent and the new state; bit 0 of the state is q[1] (R88). -/
def scrambleBit (q : BitVec 58) (b : Bool) : Bool × BitVec 58 :=
  let s := b ^^ q.getLsbD 38 ^^ q.getLsbD 57
  (s, (q <<< 1) ||| BitVec.ofNat 58 (b2n s))

/-- One bit through the receive descrambler (R88). -/
def descrambleBit (q : BitVec 58) (s : Bool) : Bool × BitVec 58 :=
  (s ^^ q.getLsbD 38 ^^ q.getLsbD 57, (q <<< 1) ||| BitVec.ofNat 58 (b2n s))

/-- Scrambles payload bits. -/
def scramble (q : BitVec 58) : List Bool → List Bool × BitVec 58
  | [] => ([], q)
  | b :: t =>
    let x := scrambleBit q b
    let y := scramble x.2 t
    (x.1 :: y.1, y.2)

/-- Descrambles payload bits. -/
def descramble (q : BitVec 58) : List Bool → List Bool × BitVec 58
  | [] => ([], q)
  | b :: t =>
    let x := descrambleBit q b
    let y := descramble x.2 t
    (x.1 :: y.1, y.2)

/-- Line bits with a stuff bit after every 40 identical bits, run value and count carried along (R90). -/
def stuff (v : Bool) (c : Nat) : List Bool → List Bool × Bool × Nat
  | [] => ([], v, c)
  | b :: t =>
    let c' := if b = v && c ≠ 0 then c + 1 else 1
    if c' = 40 then
      let y := stuff (!b) 1 t
      (b :: (!b) :: y.1, y.2)
    else
      let y := stuff b c' t
      (b :: y.1, y.2)

/-- The line bits of a block: header, scrambled payload, stuff bits, TX_INV (R85, R87). -/
def LaneTx.drive (x : LaneTx) (inv ctrl : Bool) (p : Payload) : LaneTx :=
  let s := scramble x.scr (toBits 256 p.toNat)
  let l := stuff x.runV x.runC ([ctrl, !ctrl] ++ s.1)
  { x with scr := s.2, runV := l.2.1, runC := l.2.2, line := l.1.map (· ^^ inv) }

/-! ### Receiving a block (R87, R92, R93) -/

/-- Slips a candidate alignment past invalid headers; gives how many bits it slipped (R92). -/
def slip : List Bool → List Bool × Nat
  | a :: b :: t => if a = b then let x := slip (b :: t); (x.1, x.2 + 1) else (a :: b :: t, 0)
  | l => (l, 0)

/-- One line bit, RX_INV applied, into the receive half: stuff removal (R91), then collection of the block's bits, with
slipping while no lock is declared (R92). Gives also how many headers were found invalid by slipping. -/
def LaneRx.bit (r : LaneRx) (locked : Bool) (b : Bool) : LaneRx × Nat :=
  if r.runC = 40 then
    if b ≠ r.runV then ({ r with runV := b, runC := 1 }, 0) else ({ r with runC := 1, viol := true }, 0)
  else
    let c := if b = r.runV && r.runC ≠ 0 then r.runC + 1 else 1
    let r := { r with runV := b, runC := c, bits := r.bits ++ [b], blkBad := r.blkBad || r.viol, viol := false }
    if locked then (r, 0)
    else
      let x := if r.blkBad then slip r.bits.tail else slip r.bits
      let n := x.2 + b2n r.blkBad
      ({ r with bits := x.1, blkBad := false, good := if n = 0 then r.good else 0 }, n)

/-- Whether a control block type is accepted in the lane's role and state (R94). -/
def Dev.typeAccepted (d : Dev) (n typ : Nat) : Bool :=
  let role := d.laneRole n
  let st := d.laneState n
  if typ = 1 || typ = 3 || typ = 4 then true
  else if typ = 2 then st = stTraining || st = stWake
  else if typ = 5 || typ = 6 || typ = 7 then role = roleEgress || role = roleC2C
  else if typ = 8 || typ = 9 then role = roleC2C
  else if typ = 0x10 || typ = 0x11 then role = roleIngest || role = roleC2C
  else false

/-- The receiver takes a linear-equalizer setting that it has not tried, in an order of its own choosing (R69). -/
def Dev.newSetting (d : Dev) (n : Nat) : Dev :=
  let left := (List.range 16).filter fun k => !(d.lane n).trn.tried.contains k
  let k := left.getD (Config.eqSetting d.free n % max 1 left.length) 0
  ((d.put (F.LANE_RX_EQ_CTLE n) k).updTrn n fun t => { t with tried := t.tried ++ [k] }).fresh

/-- VERIFICATION_WINDOW_END with a failure (R69): another setting, or BER once all sixteen have been tried (R71). -/
def Dev.windowFail (d : Dev) (n : Nat) : Dev :=
  if 16 ≤ (d.lane n).trn.tried.length then d.trainFail n resBer
  else (d.updTrn n fun t => { t with phase := 2, step := 0, winBlocks := 0, winErrs := 0, req := (0, 0, 0), reqPend := false }).newSetting n

/-- Blocks in a verification window (R69). -/
def windowBlocks : Nat := 2 ^ 22

/-- The receive direction has passed and the partner is READY: 16 further TRAIN blocks remain (R69, phase 4). -/
def Dev.checkFinal (d : Dev) (n : Nat) : Dev :=
  if (d.lane n).trn.passed && d.is (F.LANE_STATE_PARTNER_READY n) && (d.lane n).trn.finalLeft = 0 then
    d.updTrn n fun t => { t with finalLeft := 16 }
  else d

/-- One TRAIN block of a verification window: its filler bits that are not zero are errors (R69, R97). -/
def Dev.verifyBlock (d : Dev) (n : Nat) (p : Payload) : Dev :=
  let t := (d.lane n).trn
  if d.laneState n = stTraining && t.phase = 3 then
    let errs := t.winErrs + popcount 160 (pf p 8 0 160)
    if d.get (F.LANE_TRN_ERR_LIMIT n) < errs then d.windowFail n
    else if windowBlocks ≤ t.winBlocks + 1 then
      (d.updTrn n fun t => { t with phase := 4, passed := true, winBlocks := t.winBlocks + 1, winErrs := errs }).checkFinal n
    else d.updTrn n fun t => { t with winBlocks := t.winBlocks + 1, winErrs := errs }
  else d

/-- LOCK_DECLARED (R92): 64 consecutive valid headers in training, HUNT or WAKE. -/
def Dev.lockDeclared (d : Dev) (n : Nat) : Dev :=
  let st := d.laneState n
  let d := (d.put (F.LANE_STATE_RX_LOCK n) 1).updRx n fun r => { r with win := [], idleFlag := false }
  if st = stTraining then
    let first := (d.lane n).trn.tried.isEmpty
    let d := d.updTrn n fun t => { t with phase := max 2 t.phase, lockSeen := true }
    if first then d.newSetting n else d
  else if st = stHunt || st = stWake then d.laneEnterUp n
  else d

/-- LOCK_LOST (R93): 16 of the last 64 headers are invalid. In training the receiver returns to phase 1 and keeps what it has passed,
the settings it has tried and the final count (DESIGN CHOICE 106). -/
def Dev.lockLost (d : Dev) (n : Nat) : Dev :=
  if d.laneState n = stUp then d.enterHunt n
  else ((d.put (F.LANE_STATE_RX_LOCK n) 0).updRx n LaneRx.seek).updTrn n fun t => { t with phase := 1 }

/-- Counts invalid sync headers received in UP, HUNT or WAKE. -/
def Dev.headerErrors (d : Dev) (n k : Nat) : Dev :=
  let st := d.laneState n
  if k ≠ 0 && (st = stUp || st = stHunt || st = stWake) then d.bump (F.LANE_HDR_ERR_CNT_COUNT n) k else d

/-- A block with a valid header while locked: data and accepted control blocks enter the elastic buffer;
CONTROL_BLOCK_DISCARD counts the others (R94, R95). -/
def Dev.deliverBlock (d : Dev) (n : Nat) (ctrl : Bool) (p : Payload) : Dev :=
  let push (i : RxItem) (d : Dev) : Dev := d.updRx n fun r => { r with buf := r.buf ++ [i] }
  if !ctrl then push (.block false p) d
  else
    let typ := pf p 0 0 8
    let d := if typ = 2 then d.verifyBlock n p else d
    if typ = 0x10 && !crcOk p then push (.block true p) d
    else if d.typeAccepted n typ && crcOk p then push (if typ = 3 then .timed p (d.lane n).rx.t0 else .block true p) d
    else push .skip (d.bump (F.FRM_CNT_COUNT n 7) 1)

/-- A whole block has been collected: header check, descrambling, lock (R92, R93). -/
def Dev.blockDone (d : Dev) (n : Nat) : Dev :=
  let r := (d.lane n).rx
  let x := descramble r.desc (r.bits.drop 2)
  let ctrl := r.bits.headD false
  let valid := !r.blkBad && ((r.bits.drop 1).headD false != ctrl)
  let p : Payload := BitVec.ofNat 256 (ofBits x.1)
  let locked := d.is (F.LANE_STATE_RX_LOCK n)
  let d := d.updRx n fun r => { r with desc := x.2, bits := [], blkBad := false, count := r.count + 1 }
  if locked then
    let win := (r.win ++ [!valid]).drop (r.win.length + 1 - 64)
    let d := d.updRx n fun r => { r with win := win }
    if valid then d.deliverBlock n ctrl p
    else
      let d := (d.headerErrors n 1).updRx n fun r => { r with buf := r.buf ++ [.bad] }
      let d := if d.laneState n = stTraining && (d.lane n).trn.phase = 3 then d.windowFail n else d
      if 16 ≤ (win.filter id).length then d.lockLost n else d
  else if valid then
    let d := d.updRx n fun r => { r with good := r.good + 1 }
    if 64 ≤ r.good + 1 then
      -- the partner trains in full, which a WAKE receiver joins on its TRAIN blocks (R79)
      if d.laneState n = stWake && ctrl && pf p 0 0 8 = 2 && crcOk p && pf p 2 7 1 = 0 then
        (d.flag (F.LANE_EVENTS_SLOW_WAKE n)).startTraining n
      else d.lockDeclared n
    else d
  else (d.headerErrors n 1).updRx n fun r => { r with good := 0 }

/-- Line bits into a lane's Sloldo receiver. -/
def Dev.rxBits (d : Dev) (n : Nat) (inv : Bool) : List Bool → Dev
  | [] => d
  | b :: t =>
    let x := (d.lane n).rx.bit (d.is (F.LANE_STATE_RX_LOCK n)) (b ^^ inv)
    let d := (d.updRx n fun _ => if x.1.bits.length = 1 then { x.1 with t0 := d.time } else x.1).headerErrors n x.2
    (if 258 ≤ x.1.bits.length then d.blockDone n else d).rxBits n inv t

/-! ### PRBS (R81, R83) -/

/-- Order and second tap of the polynomial that POLY selects (R81). -/
def prbsPoly (poly : Nat) : Nat × Nat :=
  match poly with
  | 0 => (7, 6)
  | 1 => (15, 14)
  | 2 => (23, 18)
  | _ => (31, 28)

/-- The next bit of a sequence whose last bits are `x`, bit 0 the latest. -/
def prbsNext (poly x : Nat) : Bool := bitOf x ((prbsPoly poly).1 - 1) ^^ bitOf x ((prbsPoly poly).2 - 1)

/-- The history with one more bit. -/
def prbsShift (poly x : Nat) (b : Bool) : Nat := (2 * x + b2n b) % 2 ^ (prbsPoly poly).1

/-- n generator bits (R81): INVERT complements them, INJECT inverts the first. No generator stands at zero, from
which a polynomial leaves nothing. -/
def prbsBits (poly : Nat) (inv : Bool) : Nat → LanePrbs → List Bool × LanePrbs
  | 0, p => ([], p)
  | n + 1, p =>
    let k := (prbsPoly poly).1
    let x := if p.gen % 2 ^ k = 0 then 2 ^ k - 1 else p.gen % 2 ^ k
    let b := prbsNext poly x
    let y := prbsBits poly inv n { p with gen := prbsShift poly x b, inject := false }
    ((b ^^ inv ^^ p.inject) :: y.1, y.2)

/-- One received bit at the checker (R83): it seeds itself, counts matching bits until 64 have matched, and from then on counts bits
and errors until the bit counter is full. -/
def LanePrbs.check (p : LanePrbs) (poly : Nat) (inv locked : Bool) (b0 : Bool) : LanePrbs :=
  let b := b0 ^^ inv
  if locked || p.matched = 64 then
    let e := prbsNext poly p.chk
    let err := b ^^ e
    let p := { p with chk := prbsShift poly p.chk e, window := (p.window <<< 1) ||| BitVec.ofNat 1024 (b2n err) }
    if p.stopped || 2 ^ 48 - 1 ≤ p.bits then p
    else { p with bits := p.bits + 1, errs := min (2 ^ 32 - 1) (p.errs + b2n err) }
  else if p.seed < (prbsPoly poly).1 then { p with chk := prbsShift poly p.chk b, seed := p.seed + 1, matched := 0 }
  else
    let ok := b == prbsNext poly p.chk
    { p with chk := prbsShift poly p.chk b, matched := if ok then min 64 (p.matched + 1) else 0 }

/-- PRBS_CHECKER_LOCK (R83): 64 consecutive bits have matched. -/
def Dev.prbsLock (d : Dev) (n : Nat) : Dev :=
  if d.laneState n = stTest && d.is (F.LANE_PRBS_CTRL_CHK_EN n) && !d.is (F.LANE_PRBS_CTRL_CHK_LOCK n) && (d.lane n).prbs.matched = 64 then
    d.flag (F.LANE_PRBS_CTRL_CHK_LOCK n)
  else d

/-- PRBS_CHECKER_UNLOCK (R83): 512 or more errors in 1,024 bits. The counters hold; the checker reseeds. -/
def Dev.prbsUnlock (d : Dev) (n : Nat) : Dev :=
  if d.is (F.LANE_PRBS_CTRL_CHK_LOCK n) && 512 ≤ popcount 1024 (d.lane n).prbs.window.toNat then
    ((d.put (F.LANE_PRBS_CTRL_CHK_LOCK n) 0).flag (F.LANE_EVENTS_PRBS_UNLOCK n)).updPrbs n fun p =>
      { p with chk := 0, seed := 0, matched := 0, window := 0 }
  else d

/-- PRBS_COUNTER_SATURATE (R83): the 48-bit bit counter is full and both counters stop. -/
def Dev.prbsSaturate (d : Dev) (n : Nat) : Dev :=
  if 2 ^ 48 - 1 ≤ (d.lane n).prbs.bits then d.updPrbs n fun p => { p with bits := 2 ^ 48 - 1, stopped := true } else d

/-- PRBS_SNAP (R83). -/
def Dev.prbsSnap (d : Dev) (n : Nat) : Dev :=
  let p := (d.lane n).prbs
  (d.put (F.LANE_PRBS_ERR_ERRORS n) p.errs).put (F.LANE_PRBS_BITS_BITS n) (min p.bits (2 ^ 48 - 1))

/-- PRBS_CLEAR (R83). -/
def Dev.prbsClear (d : Dev) (n : Nat) : Dev := d.updPrbs n fun p => { p with errs := 0, bits := 0, stopped := false }

/-- PRBS_INJECT (R81). -/
def Dev.prbsInject (d : Dev) (n : Nat) : Dev := d.updPrbs n fun p => { p with inject := true }

/-- Both PRBS enables clear: TEST goes to DISABLED (R75). -/
def Dev.prbsLeave (d : Dev) (n : Nat) : Dev :=
  if d.laneState n = stTest && !d.is (F.LANE_PRBS_CTRL_GEN_EN n) && !d.is (F.LANE_PRBS_CTRL_CHK_EN n) then d.laneDisable n else d

/-- A PRBS enable takes a DISABLED, UP or DOWN lane to TEST (R75). -/
def Dev.prbsEnter (d : Dev) (n : Nat) : Dev :=
  let st := d.laneState n
  if st = stDisabled || st = stUp || st = stDown then ((d.setLaneState n stTest).put (F.LANE_STATE_TX_IDLE n) 0).settleRx n 64 else d

/-- PRBS_GEN_EN (R82): GEN_EN is written with `on`. Where the generator starts in its sequence is a free value (R81). In TRAINING,
HUNT, ELEC_IDLE and WAKE, from which R75 has no row to TEST, an allowed enable is set, the transmitter drives, and the lane keeps
its state (DESIGN CHOICE 106). -/
def Dev.prbsGenEn (d : Dev) (n : Nat) (on : Bool) : Dev :=
  if on then
    if d.prbsAllowed n then
      if d.is (F.LANE_PRBS_CTRL_GEN_EN n) then d
      else ((((d.prbsEnter n).flag (F.LANE_PRBS_CTRL_GEN_EN n)).updPrbs n fun p => { p with gen := Config.prbsStart d.free n, inject := false }).updTx n
             fun t => { t with driving := true }).fresh
    else d.flag (F.LANE_EVENTS_PRBS_REFUSED n)
  else ((d.put (F.LANE_PRBS_CTRL_GEN_EN n) 0).updTx n fun t => if d.laneState n = stTest then t.stop else t).prbsLeave n

/-- PRBS_CHK_EN (R82): CHK_EN is written with `on`. -/
def Dev.prbsChkEn (d : Dev) (n : Nat) (on : Bool) : Dev :=
  if on then
    if d.prbsAllowed n then
      if d.is (F.LANE_PRBS_CTRL_CHK_EN n) then d
      else ((d.prbsEnter n).flag (F.LANE_PRBS_CTRL_CHK_EN n)).updPrbs n fun p => { p with chk := 0, seed := 0, matched := 0, window := 0 }
    else d.flag (F.LANE_EVENTS_PRBS_REFUSED n)
  else ((d.put (F.LANE_PRBS_CTRL_CHK_EN n) 0).put (F.LANE_PRBS_CTRL_CHK_LOCK n) 0).prbsLeave n

/-- The decision-feedback taps as the receiver has adapted them, which RX_EQ shows: it adapts while training and in UP (R68). -/
def Dev.adaptDfe (d : Dev) (n : Nat) : Dev :=
  if d.laneState n = stTraining || d.laneState n = stUp then
    (d.wrReg (R.LANE_RX_EQ n) (insertField (d.rdReg (R.LANE_RX_EQ n)) 23 0 (Config.dfeTaps d.free n))).fresh
  else d

/-- BLOCK_RECEIVE (R65, R68, R83, R87, R92): line bits arrive at the receive half of lane n. In TEST they reach the PRBS checker;
in DISABLED, DOWN and ELEC_IDLE nothing takes them. -/
def Dev.blockReceive (d : Dev) (n : Nat) (line : List Bool) : Dev :=
  let st := d.laneState n
  if st = stTest then
    if d.is (F.LANE_PRBS_CTRL_CHK_EN n) then
      let poly := d.get (F.LANE_PRBS_CTRL_POLY n)
      let inv := d.is (F.LANE_PRBS_CTRL_INVERT n)
      let locked := d.is (F.LANE_PRBS_CTRL_CHK_LOCK n)
      d.updPrbs n fun p => line.foldl (fun p b => p.check poly inv locked (b ^^ d.is (F.LANE_CFG_RX_INV n))) p
    else d
  else if st = stTraining || st = stUp || st = stHunt || st = stWake then
    ((d.adaptDfe n).rxBits n (d.is (F.LANE_CFG_RX_INV n)) line).settleRx n 64
  else d

/-! ### Training (R69, R70) -/

/-- The request that a negotiation code stands for: PRESET n, or INC or DEC of a tap (R70). -/
def requestOf (code : Nat) : Nat × Nat × Nat :=
  let k := code % 11
  if k < 5 then (1, 0, k) else if k < 8 then (2, k - 5, 0) else (3, k - 8, 0)

/-- The next step of negotiation: another request, or verification when none is left (R69, R70). -/
def Dev.negotiateNext (d : Dev) (n : Nat) : Dev :=
  let c := Config.negotiate d.free n
  (if c = 0 then d.updTrn n fun t => { t with phase := 3, winBlocks := 0, winErrs := 0 }
   else d.updTrn n fun t => { t with req := requestOf (c - 1), reqPend := true, unanswered := 0, step := t.step + 1 }).fresh

/-- Whether the partner's statuses answer a request: the named tap, or all taps for PRESET, has left NOT_UPDATED (R70). -/
def answered (req : Nat × Nat × Nat) (sPre sMain sPost : Nat) : Bool :=
  if req.1 = 1 then sPre ≠ 0 && sMain ≠ 0 && sPost ≠ 0
  else match req.2.1 with
    | 0 => sPre ≠ 0
    | 1 => sMain ≠ 0
    | _ => sPost ≠ 0

/-- TRAIN_RECEIVE (R69, R70): the TRAIN block at the head of lane n's elastic buffer. -/
def Dev.trainReceive (d : Dev) (n : Nat) : Dev :=
  match d.takeCtrl n 2 with
  | none => d
  | some (p, d) =>
    let d := d.afterCtrl n
    if d.laneState n = stTraining then
      let t := (d.lane n).trn
      -- responder
      let req := pf p 1 0 2
      let tap := pf p 1 2 2
      let busy := match tap with | 0 => t.stat.1 | 1 => t.stat.2.1 | _ => t.stat.2.2
      let t := if req = 0 then { t with stat := (0, 0, 0), change := none }
        else if t.change.isSome then t
        else if req = 1 then (if t.stat = (0, 0, 0) then { t with change := some (1, 0, pf p 1 4 3) } else t)
        else if tap < 3 && busy = 0 then { t with change := some (req, tap, 0) } else t
      -- requester
      let sPre := pf p 2 0 2
      let sMain := pf p 2 2 2
      let sPost := pf p 2 4 2
      let done := t.reqPend && answered t.req sPre sMain sPost
      let t := if done then { t with req := (0, 0, 0), reqPend := false, unanswered := 0 } else t
      let d := d.updTrn n fun _ => t
      let d := if !done && !t.reqPend && t.phase = 2 && sPre = 0 && sMain = 0 && sPost = 0 then d.negotiateNext n else d
      let d := if pf p 2 6 1 = 1 then d.flag (F.LANE_STATE_PARTNER_READY n) else d
      d.checkFinal n
    else d

/-- TAP_CHANGE_APPLY (R66, R70): the requested change is applied, or answered AT_MIN or AT_MAX. A request of PRESET 5 to 7, which R67
describes for INIT_PRESET only, selects P0 too and is answered UPDATED (DESIGN CHOICE 106). -/
def Dev.tapChangeApply (d : Dev) (n : Nat) : Dev :=
  match (d.lane n).trn.change with
  | none => d
  | some (req, tap, pre) =>
    if req = 1 then
      (d.setTaps n (preset pre)).updTrn n fun t => { t with change := none, stat := (1, 1, 1) }
    else
      let cur := (d.get (F.LANE_TX_EQ_PRE n), d.get (F.LANE_TX_EQ_MAIN n), d.get (F.LANE_TX_EQ_POST n))
      let step (x : Nat) : Nat := if req = 2 then x + 1 else x - 1
      let zero := req = 3 && (match tap with | 0 => cur.1 | 1 => cur.2.1 | _ => cur.2.2) = 0
      let new := match tap with
        | 0 => (step cur.1, cur.2.1, cur.2.2)
        | 1 => (cur.1, step cur.2.1, cur.2.2)
        | _ => (cur.1, cur.2.1, step cur.2.2)
      let ok := !zero && tapsValid new.1 new.2.1 new.2.2
      let code := if ok then 1 else if req = 2 then 3 else 2
      let d := if ok then d.setTaps n new else d
      d.updTrn n fun t =>
        { t with
          change := none
          stat := match tap with
            | 0 => (code, t.stat.2.1, t.stat.2.2)
            | 1 => (t.stat.1, code, t.stat.2.2)
            | _ => (t.stat.1, t.stat.2.1, code) }

/-- TRAIN_REQUEST_TIMEOUT (R70): 1 ms without an answer; the request is sent again, and the third ends training. -/
def Dev.trainRequestTimeout (d : Dev) (n : Nat) : Dev :=
  let t := (d.lane n).trn
  if d.laneState n = stTraining && t.reqPend then
    if 3 ≤ t.unanswered + 1 then d.trainFail n resNoResponse
    else d.updTrn n fun t => { t with unanswered := t.unanswered + 1 }
  else d

/-- TRAINING_TIMEOUT (R71): the 500 ms expire. -/
def Dev.trainingTimeout (d : Dev) (n : Nat) : Dev :=
  if d.laneState n = stTraining then d.trainFail n (if (d.lane n).trn.lockSeen then resTimeout else resNoLock) else d

/-- LANE_PLL_UNLOCK (R64, R75). A lane in TEST keeps GEN_EN, CHK_EN and CHK_LOCK as it goes DOWN (DESIGN CHOICE 106). -/
def Dev.pllUnlock (d : Dev) (n : Nat) : Dev :=
  if d.is (F.LANE_STATE_PLL_LOCK n) then
    let d := (d.put (F.LANE_STATE_PLL_LOCK n) 0).flag (F.LANE_EVENTS_PLL_LOST n)
    (if d.laneState n = stTraining then d.trainFail n resPll
     else if d.laneState n = stDown then d.put (F.LANE_TRN_RESULT n) resPll
     else (d.put (F.LANE_TRN_RESULT n) resPll).laneDown n).settleRx n 64
  else d

/-- LANE_PLL_LOCK (R64): the lane stays in its state. -/
def Dev.pllLock (d : Dev) (n : Nat) : Dev := d.flag (F.LANE_STATE_PLL_LOCK n)

/-- HUNT_TIMEOUT (R75): 1 ms in HUNT without lock. -/
def Dev.huntTimeout (d : Dev) (n : Nat) : Dev :=
  if d.laneState n = stHunt then (d.flag (F.LANE_EVENTS_AUTO_RETRAIN n)).startTraining n else d

/-! ### Electrical idle (R77 to R79) -/

/-- Whether the transmit buffer is empty: no block waits and no frame is in progress. -/
def LaneTx.empty (t : LaneTx) : Bool :=
  t.nak.isNone && t.ack.isNone && t.handover.isEmpty && t.trig.isEmpty && t.time.isEmpty && t.qual.isEmpty &&
  t.queue.isEmpty && t.resend.isEmpty && t.cur.isNone

/-- An IDLE block (R97). -/
def idleBlock (entry : Bool) : Payload := sealBlock [1, b2n entry]

/-- TX_IDLE_ENTRY (R77): eight IDLE blocks with the idle-entry flag, then the transmitter stops driving. -/
def Dev.txIdleEntry (d : Dev) (n : Nat) : Dev :=
  let t := (d.lane n).tx
  if d.is (F.LANE_CTRL_IDLE_REQ n) && t.empty && d.laneUp n && !d.is (F.LANE_STATE_TX_IDLE n) then
    let inv := d.is (F.LANE_CFG_TX_INV n)
    let t := (List.range 8).foldl (fun (x : LaneTx × List Bool) _ => let y := x.1.drive inv true (idleBlock true); (y, x.2 ++ y.line)) (t, [])
    (d.flag (F.LANE_STATE_TX_IDLE n)).updTx n fun _ => { t.1 with driving := false, wake := none, line := t.2, idleTick := d.ticks }
  else d

/-- IDLE_RECEIVE (R77): the IDLE block at the head of lane n's elastic buffer. -/
def Dev.idleReceive (d : Dev) (n : Nat) : Dev :=
  match d.takeCtrl n 1 with
  | none => d
  | some (p, d) =>
    let d := d.afterCtrl n
    if pf p 1 0 1 = 1 && d.laneUp n then
      ((d.setLaneState n stElecIdle).updRx n fun r => { r.seek with idleFlag := true, idleAt := d.ticks }).settleRx n 64
    else d

/-- Timing cycles in 10 ms (R79). -/
def tenMs : Nat := 10 * ticksPerMs

/-- SIGNAL_DETECT (R75, R79): the receiver detects signal energy; from ELEC_IDLE the lane enters WAKE, and goes on to TRAINING where the
idle lasted 10 ms or more. -/
def Dev.signalDetect (d : Dev) (n : Nat) : Dev :=
  let d := d.flag (F.LANE_STATE_SIGNAL n)
  if d.laneState n = stElecIdle then
    let long := decide (tenMs ≤ d.ticks - (d.lane n).rx.idleAt)
    let d := (d.setLaneState n stWake).updRx n LaneRx.begin_
    if long then (d.flag (F.LANE_EVENTS_SLOW_WAKE n)).startTraining n else d
  else d

/-- LOSS_OF_SIGNAL (R77): after the idle-entry flag the lane stays in ELEC_IDLE; an UP lane that did not see it hunts. -/
def Dev.lossOfSignal (d : Dev) (n : Nat) : Dev :=
  let d := d.put (F.LANE_STATE_SIGNAL n) 0
  if (d.lane n).rx.idleFlag then d
  else if d.laneUp n then (d.enterHunt n).settleRx n 64 else d

/-- TX_WAKE (R78, R79): an idle transmitter wakes with a burst, or with full training after 10 ms of idle. -/
def Dev.txWake (d : Dev) (n : Nat) : Dev :=
  let t := (d.lane n).tx
  let cause := !d.is (F.LANE_CTRL_IDLE_REQ n) || (d.is (F.LANE_CTRL_AUTO_WAKE n) && !t.empty)
  if d.is (F.LANE_STATE_TX_IDLE n) && cause && d.laneState n ≠ stTest then
    if d.ticks - t.idleTick < tenMs then
      (d.put (F.LANE_STATE_TX_IDLE n) 0).updTx n fun t => { t.restart with wake := some 0 }
    else ((d.flag (F.LANE_EVENTS_SLOW_WAKE n)).startTraining n).settleRx n 64
  else d

/-- WAKE_LOCK_TIMEOUT (R79): no lock within 124 blocks of signal detection. -/
def Dev.wakeLockTimeout (d : Dev) (n : Nat) : Dev :=
  if d.laneState n = stWake then (d.flag (F.LANE_EVENTS_SLOW_WAKE n)).startTraining n else d

/-! ### Transmitting (R98, R108 to R114) -/

/-- The TRAIN block a lane sends (R97). -/
def Dev.trainBlock (d : Dev) (n : Nat) (burst : Bool) : Payload :=
  let t := (d.lane n).trn
  let req := if burst then (0, 0, 0) else t.req
  let st := if burst then (0, 0, 0) else t.stat
  sealBlock [2, req.1 + 4 * req.2.1 + 16 * req.2.2,
    st.1 + 4 * st.2.1 + 16 * st.2.2 + (if !burst && t.passed then 64 else 0) + (if burst then 128 else 0),
    d.get (F.LANE_CFG_RATE n), n]

/-- The FSTART block of a frame with its SEQ (R100). -/
def TxFrame.fstart (f : TxFrame) : Payload :=
  let b := toBytes 28 f.hdr.toNat
  sealBlock ([0x10] ++ (b.drop 1).take 1 ++ toBytes 2 f.seq ++ [f.data.length - 1] ++ b.drop 5)

/-- The FEND block of a frame (R105). -/
def TxFrame.fendBlock (f : TxFrame) : Payload :=
  let crc := crc32c (toBytes 28 f.fstart.toNat ++ (f.data.map payloadBytes).flatten)
  sealBlock ([0x11] ++ toBytes 4 crc ++ toBytes 2 f.seq)

/-- Whether the lane may start a frame: UP, not paused, not in the gap of a switchover, and not of GROUPS once one has started (R113,
R114, R116, R489). -/
def Dev.mayStart (d : Dev) (n : Nat) : Bool :=
  d.laneUp n && (d.lane n).tx.pause.isNone && !(d.laneRole n == roleEgress && d.inGap) && !d.switching n

/-- A frame that is due to start: one to resend first, else the oldest new one that fits the replay buffer (R109, R111).
A frame that would be sent a tenth time is not started (R112). -/
def Dev.startFrame (d : Dev) (n : Nat) : Dev :=
  let t := (d.lane n).tx
  if t.cur.isSome || !d.mayStart n then d
  else match t.resend with
    | f :: rest =>
      if 9 ≤ f.sends then d
      else
        let f := { f with sends := f.sends + 1, first := if f.sends = 0 then d.ticks else f.first }
        d.updTx n fun t =>
          { t with cur := some (f, 0), resend := rest, replay := t.replay.map fun g => if g.seq = f.seq then f else g }
    | [] =>
      match t.queue with
      | [] => d
      | f :: rest =>
        if d.replays n then
          if sumN (t.replay.map TxFrame.room) + f.room ≤ 16384 then
            let f := { f with seq := t.seq, sends := 1, first := d.ticks }
            d.updTx n fun t => { t with cur := some (f, 0), queue := rest, replay := t.replay ++ [f], seq := (t.seq + 1) % 65536 }
          else d
        else d.updTx n fun t => { t with cur := some ({ f with seq := 0, sends := 1, first := d.ticks }, 0), queue := rest }

/-- The next block of the frame in progress. Its FEND starts the ACK_WAIT of a buffered frame (R111). -/
def Dev.frameBlock (d : Dev) (n : Nat) (f : TxFrame) (i : Nat) : Dev × Bool × Payload :=
  if i = 0 then (d.updTx n fun t => { t with cur := some (f, 1) }, true, f.fstart)
  else if i ≤ f.data.length then (d.updTx n fun t => { t with cur := some (f, i + 1) }, false, f.data.getD (i - 1) 0)
  else
    (d.updTx n fun t =>
      { t with cur := none
               replay := t.replay.map fun g => if g.seq = f.seq then { g with sent := !t.resend.any fun x => x.seq == f.seq } else g },
     true, f.fendBlock)

/-- The block due at a boundary outside training, in the order of R98. A frame in progress when its lane left UP waits behind IDLE blocks
and goes on at its next block when the lane is UP again before it left its rotation (DESIGN CHOICE 106). -/
def Dev.dueBlock (d : Dev) (n : Nat) : Dev × Bool × Payload :=
  let t := (d.lane n).tx
  match t.nak, t.ack, t.handover, t.trig, t.time, t.qual with
  | some (s, r), _, _, _, _, _ => (d.updTx n fun t => { t with nak := none }, true, sealBlock ([6] ++ toBytes 2 s ++ [r]))
  | none, some s, _, _, _, _ => (d.updTx n fun t => { t with ack := none }, true, sealBlock ([5] ++ toBytes 2 s))
  | none, none, p :: r, _, _, _ => (d.updTx n fun t => { t with handover := r }, true, p)
  | none, none, [], p :: r, _, _ => (d.updTx n fun t => { t with trig := r }, true, p)
  | none, none, [], [], m :: r, _ =>
    let x := (d.updTx n fun t => { t with time := r }).sendTime n m
    (x.1, true, x.2)
  | none, none, [], [], [], p :: r => (d.updTx n fun t => { t with qual := r }, true, p)
  | none, none, [], [], [], [] =>
    let d := d.startFrame n
    match (d.lane n).tx.cur with
    | some (f, i) => if d.laneUp n then d.frameBlock n f i else (d, true, idleBlock false)
    | none => (d, true, idleBlock false)

/-- The counts of block times at a transmit half: since its last replay began (R111), and left of a pause (R114). -/
def LaneTx.tick (t : LaneTx) : LaneTx :=
  { t with
    lastReplay := match t.lastReplay with
      | some (s, k) => if k + 1 < 64 then some (s, k + 1) else none
      | none => none
    pause := t.pause.map (· - 1) }

/-- What the transmit half of lane n drives at a block boundary. -/
def Dev.driveBlock (d : Dev) (n : Nat) : Dev :=
  let t := (d.lane n).tx
  let inv := d.is (F.LANE_CFG_TX_INV n)
  let st := d.laneState n
  if !t.driving then d
  else if st = stTest then
    if d.is (F.LANE_PRBS_CTRL_GEN_EN n) then
      let x := prbsBits (d.get (F.LANE_PRBS_CTRL_POLY n)) (d.is (F.LANE_PRBS_CTRL_INVERT n)) 258 (d.lane n).prbs
      (d.updPrbs n fun _ => x.2).updTx n fun t => { t with line := x.1.map (· ^^ inv) }
    else d
  else if st = stTraining then
    let p := d.trainBlock n false
    let left := (d.lane n).trn.finalLeft
    let d := d.updTx n fun t => t.drive inv true p
    if left = 0 then d
    else
      let d := d.updTrn n fun t => { t with finalLeft := left - 1 }
      if left = 1 then d.trainPass n else d
  else match t.wake with
    | some k =>
      if k < 64 then
        let p := d.trainBlock n true
        d.updTx n fun t => { t.drive inv true p with wake := some (k + 1) }
      else d.updTx n fun t => { t.drive inv true (idleBlock false) with wake := if k = 123 then none else some (k + 1) }
    | none =>
      let x := d.dueBlock n
      x.1.updTx n fun t => t.drive inv x.2.1 x.2.2

/-- BLOCK_TRANSMIT (R65, R69, R78, R81, R98, R114): the transmit half of lane n drives the block due at a block boundary. -/
def Dev.blockTransmit (d : Dev) (n : Nat) : Dev := (d.driveBlock n).updTx n LaneTx.tick

/-- Whether sequence number a covers s: s is a or behind it (R108, R111). -/
def seqCovers (a s : Nat) : Bool := s == a || seqBehind a s

/-- A received ACK at egress (R111): it releases every buffered frame up to and including ACK_SEQ. -/
def Dev.ackAct (d : Dev) (n : Nat) (p : Payload) : Dev :=
  let a := pf p 1 0 16
  match (d.lane n).tx.replay with
  | [] => d
  | f :: _ =>
    if !d.replays n || seqBehind f.seq a then d
    else
      let rel := fun (g : TxFrame) => seqCovers a g.seq
      let gone := (d.lane n).tx.replay.filter rel
      let d := d.updTx n fun t => { t with replay := t.replay.filter (fun g => !rel g), resend := t.resend.filter (fun g => !rel g) }
      d.framesAcked gone

/-- The transmitter goes back to sequence number e and resends every buffered frame from there (R111). -/
def Dev.goBack (d : Dev) (n e : Nat) : Dev :=
  let from_ := fun (g : TxFrame) => g.seq == e || seqBehind g.seq e
  d.updTx n fun t =>
    let replay := t.replay.map fun g => if from_ g then { g with sent := false } else g
    let again := replay.filter from_
    { t with replay := replay, resend := again, lastReplay := if again.isEmpty then t.lastReplay else some (e, 0) }

/-- A received NAK at egress (R111): go-back-N from NAK_SEQ, unless a replay from it began in the last 64 blocks. -/
def Dev.nakAct (d : Dev) (n : Nat) (p : Payload) : Dev :=
  let e := pf p 1 0 16
  let again := match (d.lane n).tx.lastReplay with | some (s, _) => s == e | none => false
  if !d.replays n || again then d else d.goBack n e

/-- ACK_WAIT_TIMEOUT (R111, R113): the oldest buffered frame, whose FEND has been sent, was not released in time; the timers of a lane
that is not UP or is paused are frozen. -/
def Dev.ackWaitTimeout (d : Dev) (n : Nat) : Dev :=
  let t := (d.lane n).tx
  match t.replay with
  | [] => d
  | f :: _ => if d.replays n && d.laneUp n && t.pause.isNone && f.sent then d.goBack n f.seq else d

/-- A received PAUSE at egress (R114): no new FSTART for BLOCKS blocks; 0 resumes at once, a later PAUSE replaces the count. -/
def Dev.pauseAct (d : Dev) (n : Nat) (p : Payload) : Dev :=
  let k := pf p 1 0 16
  d.updTx n fun t => { t with pause := if k = 0 then none else some k }

/-- PAUSE_EXPIRE (R114): a pause whose count has run out ends. -/
def Dev.pauseExpire (d : Dev) (n : Nat) : Dev :=
  if (d.lane n).tx.pause = some 0 then d.updTx n fun t => { t with pause := none } else d

end Sys2Proof.Machine
end

