-- ==== Sys2Proof/Machine/Recorder.lean ====
section
/-! DEFINITION. The event recorder: record headers and bodies, the queue, the two regions of the store, software appends
and the operating time (R473 to R483). -/
namespace Sys2Proof.Machine

/-- Bytes padded with zeros to a multiple of 8 (R474). -/
def pad8 (b : List Nat) : List Nat := padTo (ceilDiv b.length 8 * 8) 0 b

/-- The body bytes of an append that reaches the recorder while ING.FRAME_HEAD is `frame` (R480). -/
def RecBody.bytesAt (b : RecBody) (frame : Nat) : List Nat :=
  match b with
  | .bytes l => pad8 l
  | .event bit reg args => toBytes 6 frame ++ [bit, 0] ++ toBytes 4 reg ++ [0, 0, 0, 0] ++ (args.map (toBytes 8)).flatten

/-- Room that a queued record takes in the 16 KiB queue: its body and one header unit (DESIGN CHOICE 40). -/
def QRec.room (q : QRec) : Nat := 8 + q.body.length

/-- Room taken in a queue. -/
def roomUsed (l : List QRec) : Nat := sumN (l.map QRec.room)

/-- The LOST record for appends lost since the last one (R478, R479). -/
def lostRecord (d : Dev) : QRec :=
  ⟨2, 2, 0, toBytes 4 d.evr.lostSince ++ toBytes 4 (Tab.get 0 d.mirror 0x94), false, d.evr.seq, d.evr.hours, d.evr.sec⟩

/-- An append reaches the queue (R479): it is queued, behind a LOST record if appends were lost before it, or is lost
and counted. SMU appends use the 4 KiB kept for them. -/
def Dev.evrEnqueue (d : Dev) (r : Rec) : Dev :=
  let smu : Bool := r.type == 4
  let lost := if d.evr.lostSince = 0 then [] else [lostRecord d]
  let q : QRec := ⟨r.type, r.source, r.inst, r.body.bytesAt (d.get F.ING_FRAME_HEAD_HEAD), r.full, (d.evr.seq + lost.length) % 65536,
    d.evr.hours, d.evr.sec⟩
  let all := (if smu then d.evr.smuQueue else d.evr.queue) ++ lost ++ [q]
  if roomUsed all ≤ (if smu then 4096 else 12288) then
    let e := { d.evr with lostSince := 0, seq := (d.evr.seq + lost.length + 1) % 65536 }
    let d := { d with evr := if smu then { e with smuQueue := all } else { e with queue := all } }.flag F.EVR_EVENTS_APPENDED
    if smu then d.flag F.EVR_EVENTS_SMU else d
  else
    let d := { d with evr := { d.evr with lostSince := d.evr.lostSince + 1, seq := (d.evr.seq + 1) % 65536 } }
    (d.bump F.EVR_LOST_CNT_COUNT 1).flag F.EVR_EVENTS_LOST

/-- The bytes of a record with a short or a full header (R475). -/
def QRec.image (q : QRec) (full : Bool) (powerCycle : Nat) : List Nat :=
  let body := if full then q.body.take 1008 else q.body.take 1016
  let len := (if full then 16 else 8) + body.length
  [(len / 8 - 1) % 128 + (if full then 128 else 0), q.type, q.source, q.inst]
    ++ toBytes 2 q.sec ++ toBytes 2 q.seq
    ++ (if full then toBytes 4 powerCycle ++ toBytes 3 q.hours ++ [0] else [])
    ++ body

/-- Whether a record needs a full header (R475): it asks for one, it is the first of its block, or POWER_CYCLE or HOURS
differs from the previous record in its block. -/
def needsFull (q : QRec) (first : Bool) (last : Option (Nat × Nat)) (powerCycle : Nat) : Bool :=
  q.full || first || decide (last ≠ some (powerCycle, q.hours))

/-- The record to be programmed next: SMU appends first, the others in order of arrival (R479). -/
def EvrSt.next (e : EvrSt) : Option QRec :=
  match e.smuQueue with
  | q :: _ => some q
  | [] => e.queue.head?

/-- Takes that record off its queue. -/
def EvrSt.pop (e : EvrSt) : EvrSt :=
  match e.smuQueue with
  | _ :: t => { e with smuQueue := t }
  | [] => { e with queue := e.queue.tail }

/-- Programs bytes into the store. -/
def EvrSt.program (e : EvrSt) (a : Nat) : List Nat → EvrSt
  | [] => e
  | b :: t => ({ e with store := Tab.set 0xFF e.store a (BitVec.ofNat 8 b) }).program (a + 1) t

/-- Whether a record's image fits the rest of the block in which `at` lies (R474). -/
def fitsBlock (off len : Nat) : Bool := off % 4096 + len ≤ 4096

/-- The image that the next record has at the circular region's head (R475). -/
def EvrSt.image (e : EvrSt) (q : QRec) : List Nat :=
  q.image (needsFull q (e.head % 4096 == 0 || e.fresh) e.last e.powerCycle) e.powerCycle

/-- The start of the block that follows an offset in the circular region, which wraps (R473). -/
def nextBlock (off : Nat) : Nat :=
  let b := if off % 4096 = 0 then off else (off / 4096 + 1) * 4096
  if b ≥ 0x100000 then 0x40000 else b

/-- Whether the recorder must enter another block of the circular region before it can program a record: it begins in a
fresh block after each power-on reset, and a record that does not fit starts the next block (R474, R477). -/
def EvrSt.mustEnter (e : EvrSt) : Bool :=
  match e.next with
  | none => !e.entered
  | some q => !e.entered || !(fitsBlock e.head (e.image q).length)

/-- Writes the record into the write-once region too while it has room (R473): a record that fits no block any more
leaves the region full. -/
def EvrSt.programOnce (e : EvrSt) (q : QRec) : EvrSt :=
  if e.onceNext ≥ 0x40000 then e else
  let start := if e.fresh then (if e.onceNext % 4096 = 0 then e.onceNext else (e.onceNext / 4096 + 1) * 4096) else e.onceNext
  let img := q.image (needsFull q (start % 4096 == 0) e.onceLast e.powerCycle) e.powerCycle
  let start' := if fitsBlock start img.length then start else (start / 4096 + 1) * 4096
  let img := if start' = start then img else q.image true e.powerCycle
  if start' + img.length ≤ 0x40000 then
    { e.program start' img with onceNext := start' + img.length, onceLast := some (e.powerCycle, q.hours) }
  else { e with onceNext := 0x40000 }

/-- EVR_APPEND_ARRIVE (R479): the oldest append in transit reaches the recorder's queue. -/
def Dev.evrAppendArrive (d : Dev) : Dev :=
  match d.evr.transit with
  | [] => d
  | r :: t => { d with evr := { d.evr with transit := t } }.evrEnqueue r

/-- EVR_RECORD_PROGRAMMED (R477): the next record finishes programming at the head of the circular region, and in the
write-once region while that has room. While a block must first be erased nothing is programmed. -/
def Dev.evrProgrammed (d : Dev) : Dev :=
  match d.evr.next with
  | none => d
  | some q =>
    if d.evr.mustEnter then d else
    let e := d.evr
    let img := e.image q
    let e := (e.programOnce q).program e.head img
    let h := d.evr.head + img.length
    let e : EvrSt := { e.pop with
      head := if h ≥ 0x100000 then 0x40000 else h, entered := h % 4096 ≠ 0, fresh := false,
      last := if h % 4096 = 0 then none else some (e.powerCycle, q.hours) }
    let d := { d with evr := e }
    if e.onceNext ≥ 0x40000 then d.flag F.EVR_EVENTS_ONCE_FULL else d

/-- EVR_BLOCK_ERASE_DONE (R477): the block that the recorder enters next is erased, and OLDEST moves to the block after
it. -/
def Dev.evrEraseDone (d : Dev) : Dev :=
  if d.evr.mustEnter then
    let b := nextBlock d.evr.head
    { d with evr := { d.evr with store := d.evr.store.filter (fun c => c.1 < b || b + 4096 ≤ c.1), head := b, entered := true,
                                 last := none, oldest := nextBlock (b + 4096) } }
  else d

/-- The bytes of EVR.SW_BUF. -/
def Dev.swBuf (d : Dev) : List Nat := ((List.range 128).map fun i => toBytes 8 (d.get (F.EVR_SW_BUF_BYTES i))).flatten

/-- EVR_SOFTWARE_APPEND (R482): a whole-width write of `v` to EVR.APPEND. -/
def Dev.evrSoftAppend (d : Dev) (v : Nat) : Dev :=
  let typ := bitsOf v 15 8
  let full := bitOf v 7
  let lenU := bitsOf v 6 0
  if typ < 0xC0 || typ > 0xFE || (full && lenU == 0) then d.flag F.EVR_EVENTS_REFUSED
  else
    let body := d.swBuf.take (8 * (lenU + 1) - (if full then 16 else 8))
    d.evrEnqueue ⟨typ, 0xFF, 0, .bytes body, full⟩

/-- EVR_OP_TIME_SAVE (R476): 64 s after the last save the operating time is saved. -/
def Dev.evrOpTimeSave (d : Dev) : Dev :=
  let cur := max (d.evr.hours * 3600 + d.evr.sec) (d.evr.saved + 64)
  let h := min (cur / 3600) (2 ^ 24 - 1)
  { d with evr := { d.evr with hours := h, sec := cur % 3600, saved := cur } }

/-- One second of operating time (R476). -/
def EvrSt.second (e : EvrSt) : EvrSt :=
  if e.sec + 1 < 3600 then { e with sec := e.sec + 1 }
  else { e with sec := 0, hours := min (e.hours + 1) (2 ^ 24 - 1) }

/-- PORST_N falls while `n` bytes of the record in progress are programmed (R477): bytes 2 onward come first and bytes 0
and 1 last, so the record reads as the end of its block. -/
def EvrSt.cut (e : EvrSt) (n : Nat) : EvrSt :=
  match e.next with
  | none => e
  | some q =>
    if e.mustEnter then e
    else
      let img := e.image q
      e.program (e.head + 2) ((img.drop 2).take (min n (img.length - 2)))

/-- The recorder after a power-on reset (R476, R477): queues empty, POWER_CYCLE one higher, the operating time resumed
from the last save, and POWER_ON as its first record. -/
def EvrSt.powerOn (e : EvrSt) (devId partCode : Nat) : EvrSt :=
  let h := min (e.saved / 3600) (2 ^ 24 - 1)
  let s := e.saved % 3600
  { e with transit := [], smuQueue := [], powerCycle := e.powerCycle + 1, hours := h, sec := s, seq := 1, lostSince := 0,
           fresh := true, entered := false, last := none, onceLast := none,
           queue := [⟨1, 2, 0, toBytes 4 devId ++ [partCode, 0, 0, 0], true, 0, h, s⟩] }

end Sys2Proof.Machine
end

