-- ==== Sys2Proof/Machine/Sdram.lean ====
section
/-! DEFINITION. The SDRAM channels: training (R335 to R338), scheduling and refresh (R340 to R343), scrubbing (R352), the
interleave set (R333, R334) and field repair (R354, R355). A request at a channel stands for the traffic of a flow; the data
move with the flow's own commands. -/
namespace Sys2Proof.Machine

/-! ### Presence and training -/

/-- The flag MEM.STATUS.LOST of channel c. -/
def lostFlag (c : Nat) : RF := ⟨R.MEM_STATUS, 16 + c, 16 + c⟩

/-- A write to MEM.CFG makes channels ABSENT, and channels that were ABSENT UNTRAINED (R335). -/
def Dev.presentSettle (d : Dev) : Dev :=
  d.forN 12 fun d c =>
    if !bitOf (d.get F.MEM_CFG_PRESENT) c then
      ((d.put (F.MEM_CH_STATUS_STATE c) chAbsent).put (F.MEM_CH_CTRL_TRAIN c) 0).updMemCh c fun _ => MemCh.init
    else if d.chanState c = chAbsent then d.put (F.MEM_CH_STATUS_STATE c) chUntrained
    else d

/-- A channel starts training; training again of a channel that has been trained counts in RETRAIN (R335, R337, R338). -/
def Dev.trainStart (d : Dev) (c : Nat) : Dev :=
  let d := if d.chanState c = chUntrained then d else d.bump (F.MEM_CH_CNT_COUNT c 2) 1
  (d.put (F.MEM_CH_STATUS_STATE c) chTraining).flag (F.MEM_CH_CTRL_TRAIN c)

/-- CHANNEL_TRAIN (R335, R337). -/
def Dev.channelTrain (d : Dev) (c : Nat) : Dev :=
  let s := d.chanState c
  if d.active && s ≠ chOnline then d.put (F.MEM_CH_STATUS_RESULT c) 7
  else if s = chAbsent || s = chTraining then d
  else d.trainStart c

/-- Ranges without the places from lo to hi. -/
def spanErase (l : List (Nat × Nat)) (lo hi : Nat) : List (Nat × Nat) :=
  (l.map fun e => if e.2 ≤ lo || hi ≤ e.1 then [e] else [(e.1, lo), (hi, e.2)].filter fun x => x.1 < x.2).flatten

/-- Training of channel c has found no working setting: the channel is lost (R336). What its queued writes carried is lost with them, so
their bytes are undefined (DEDUCED 14). -/
def Dev.channelLost (d : Dev) (c code : Nat) : Dev :=
  let lost := (d.memCh c).busy ++ (d.memCh c).queue
  let d := { d with sd := { d.sd with written := lost.foldl (fun l (r : MemReq) =>
    if r.write then spanErase l (d.chanKey r.addr) (d.chanKey r.addr + r.len) else l) d.sd.written } }
  let d := (d.put (F.MEM_CH_STATUS_STATE c) chOffline).put (F.MEM_CH_STATUS_RESULT c) code
  let d := (d.put (F.MEM_CH_CTRL_TRAIN c) 0).updMemCh c fun q => { q with queue := [], busy := [] }
  let d := (d.flag (lostFlag c)).flag F.DEV_STATUS_DRAM_CHANNEL_LOST
  (d.event (lostFlag c) c [c, code]).hwStop

/-- CHANNEL_TRAINING_DONE (R335, R336): training of channel c ends with RESULT `code`, 1 for PASS or that of the sequence that
failed. -/
def Dev.channelTrainingDone (d : Dev) (c code : Nat) : Dev :=
  if d.chanState c ≠ chTraining then d
  else if code = 1 then
    ((d.put (F.MEM_CH_STATUS_STATE c) chOnline).put (F.MEM_CH_STATUS_RESULT c) 1).put (F.MEM_CH_CTRL_TRAIN c) 0
  else if 2 ≤ code && code ≤ 5 then d.channelLost c code
  else d

/-- CHANNEL_TRAINING_TIMEOUT (R336). -/
def Dev.channelTrainingTimeout (d : Dev) (c : Nat) : Dev :=
  if d.chanState c ≠ chTraining then d else d.channelLost c 6

/-! ### Scheduling -/

/-- The bank (bank group and bank) and the row of an SDRAM address in its channel (R333). -/
def Dev.bankOf (d : Dev) (a : Nat) : Nat := bitsOf (d.chanOf a).2 14 11
def Dev.rowOf (d : Dev) (a : Nat) : Nat := (d.chanOf a).2 / 32768

/-- A request goes to an open row. -/
def Dev.rowHit (d : Dev) (q : MemCh) (r : MemReq) : Bool := Tab.get 0 q.rows (d.bankOf r.addr) == d.rowOf r.addr + 1

/-- Requests that may be picked, oldest first: a read of a beat that an older waiting write touches is not (R342). -/
def pickable : List MemReq → List MemReq → List MemReq
  | _, [] => []
  | older, r :: t =>
    let held := !r.write && older.any fun w => w.write && (beatsOf w.addr w.len).any fun b => (beatsOf r.addr r.len).contains b
    if held then pickable (older ++ [r]) t else r :: pickable (older ++ [r]) t

/-- The next request of a channel (R342). -/
def Dev.pickReq (d : Dev) (q : MemCh) : Option MemReq :=
  let rs := pickable [] q.queue
  match rs.find? fun r => r.cls == 0 with
  | some r => some r
  | none =>
    let urg := maxN (rs.map (·.urg))
    let rs := rs.filter fun r => r.urg == urg
    let cls := rs.foldl (fun m r => min m r.cls) 3
    let rs := rs.filter fun r => r.cls == cls
    let run := max 1 (d.get F.MEM_SCHED_HIT_RUN)
    match rs.find? fun r => d.rowHit q r with
    | some r => if q.hits < run || rs.head? = some r then some r else rs.head?
    | none => rs.head?

/-- Owed refreshes are issued as soon as no Indigo request is queued (R343). -/
def Dev.refreshSettle (d : Dev) (c : Nat) : Dev :=
  if (d.memCh c).queue.any fun r => r.cls == 0 then d else d.put (F.MEM_CH_STATUS_OWED c) 0

/-- MEM_REQUEST_ISSUE (R340, R342): channel c issues its next request; the row stays open unless IDLE is 0. -/
def Dev.memRequestIssue (d : Dev) (c : Nat) : Dev :=
  if d.chanState c ≠ chOnline then d
  else
    let d := d.refreshSettle c
    let q := d.memCh c
    match d.pickReq q with
    | none => d
    | some r =>
      let past := q.queue.head? != some r
      let row := if d.get F.MEM_SCHED_IDLE = 0 then 0 else d.rowOf r.addr + 1
      let hits := if past && d.rowHit q r then q.hits + 1 else 0
      d.updMemCh c fun q =>
        { q with queue := q.queue.erase r, busy := q.busy ++ [r], hits := hits, rows := Tab.set 0 q.rows (d.bankOf r.addr) row }

/-- MEM_TRANSFER_DONE (R338, R348): the oldest issued request of channel c ends after `fails` failed CRCs; `ecc` is what on-die
ECC reports for beat `beat` of a read (1 corrected, 2 uncorrected). After the third failed repeat the channel retrains and
issues again what was issued. -/
def Dev.memTransferDone (d : Dev) (c fails ecc beat : Nat) : Dev :=
  match (d.memCh c).busy with
  | [] => d
  | r :: t =>
    let d := d.bump (F.MEM_CH_CNT_COUNT c (if r.write then 1 else 0)) (min fails 4)
    if 4 ≤ fails then
      let d := d.updMemCh c fun q => { q with queue := q.busy ++ q.queue, busy := [] }
      if d.chanState c = chOnline then d.trainStart c else d
    else
      let d := d.updMemCh c fun q => { q with busy := t }
      let b := (r.addr / 64 + beat) * 64
      if r.write || r.addr + r.len ≤ b then d
      else if ecc = 1 then d.corrected (F.MEM_CH_CNT_COUNT c 3) 1
      else if ecc = 2 then { d with ueBeats := if d.ueBeats.contains b then d.ueBeats else d.ueBeats ++ [b] }
      else d

/-- URGENCY_RISE (R341): waiting request i of channel c has waited the next part of its port's target. -/
def Dev.urgencyRise (d : Dev) (c i : Nat) : Dev :=
  d.updMemCh c fun q => { q with queue := q.queue.zipIdx.map fun e => if e.2 = i then { e.1 with urg := min 3 (e.1.urg + 1) } else e.1 }

/-- REFRESH_DUE (R343): a refresh of channel c falls due. -/
def Dev.refreshDue (d : Dev) (c : Nat) : Dev :=
  let s := d.chanState c
  if s ≠ chOnline && s ≠ chTraining then d
  else
    let most := min 8 (d.get F.MEM_SCHED_POSTPONE_MAX)
    let owed := d.get (F.MEM_CH_STATUS_OWED c)
    let wait := (d.memCh c).queue.any fun r => r.cls == 0 || r.urg == 3
    if wait && owed < most then (d.put (F.MEM_CH_STATUS_OWED c) (owed + 1)).bump (F.MEM_CH_CNT_COUNT c 5) 1
    else if most ≤ owed && (0 < owed || wait) then (d.put (F.MEM_CH_STATUS_OWED c) 0).bump (F.MEM_CH_CNT_COUNT c 6) 1
    else d.put (F.MEM_CH_STATUS_OWED c) 0

/-- ROW_IDLE_CLOSE (R340): the idle timer of a bank of channel c expires. -/
def Dev.rowIdleClose (d : Dev) (c bank : Nat) : Dev := d.updMemCh c fun q => { q with rows := Tab.set 0 q.rows bank 0 }

/-! ### The interleave set -/

/-- ILV_MASK_WRITE (R334): whether the write is taken; one that is not receives an error response. -/
def Dev.ilvAllowed (d : Dev) (mask : Nat) : Bool :=
  !d.active && (List.range 12).all fun c => !bitOf mask c || d.chanState c == chOnline

/-- The SDRAM address of a place in the channels, if its channel is in the interleave set (R333). -/
def Dev.keyAddr (d : Dev) (key : Nat) : Option Nat :=
  let s := d.ilvSet
  let c := key / 2 ^ 36
  let ca := key % 2 ^ 36
  if s.contains c then some (((ca / 256) * s.length + s.idxOf c) * 256 + ca % 256) else none

/-- A new interleave set moves every address: each byte and each uncorrectable beat stays at its place in its channel, and a beat that
waits for its scrub write-back is dropped with a channel that leaves the set (R333). -/
def Dev.ilvMove (d : Dev) (mask : Nat) : Dev :=
  let v := d.put F.MEM_ILV_MASK mask
  let cells : List (Nat × Byte) := ((d.mem.filter fun e => e.1 < 0x1800000000).map fun e => (d.chanKey e.1, e.2)) ++ d.sd.away
  let ues := d.ueBeats.map d.chanKey ++ d.sd.awayUe
  let gone := fun (k : Nat) => (v.keyAddr k).isNone
  let mem := cells.foldl (fun (t : Tab Byte) e => match v.keyAddr e.1 with | some a => Tab.set 0 t a e.2 | none => t)
    (d.mem.filter fun e => 0x1800000000 ≤ e.1)
  { v with
    mem := mem
    ueBeats := ues.filterMap v.keyAddr
    sd := { v.sd with
      away := (cells.filter fun e => gone e.1).foldl (fun t e => Tab.set 0 t e.1 e.2) []
      awayUe := ues.filter gone
      back := d.sd.back.filterMap fun a => v.keyAddr (d.chanKey a) } }

/-- ILV_MASK_WRITE (R334). -/
def Dev.ilvMaskWrite (d : Dev) (mask : Nat) : Dev := if d.ilvAllowed mask then d.ilvMove (mask % 4096) else d

/-! ### Scrubbing (R352) -/

/-- Whether a beat lies in the spill region (R345). -/
def Dev.inSpill (d : Dev) (a : Nat) : Bool :=
  decide (d.get F.MEM_SPILL_BASE_BASE * 65536 ≤ a) && decide (a + 64 ≤ d.get F.MEM_SPILL_LIMIT_LIMIT * 65536)

/-- The address of the check byte of a spill word under the active pattern (R345). -/
def Dev.chkNow (d : Dev) (a : Nat) : Nat :=
  d.get F.ECC_SPILL_CHK_BASE * 8192 + (a - d.get F.MEM_SPILL_BASE_BASE * 65536) / 8

/-- The words of a beat with their check bytes, as (address, word, check byte); none outside the spill region. -/
def Dev.spillWords (d : Dev) (a : Nat) : List (Nat × Nat × Nat) :=
  if d.inSpill a then (List.range 8).map fun i => (a + 8 * i, ofBytes (d.sdBytes (a + 8 * i) 8), d.sdByte (d.chkNow (a + 8 * i)))
  else []

/-- SCRUB_READ (R348, R352): channel c reads its next beat for scrubbing; on-die ECC reports 0 good, 1 corrected or 2
uncorrected. -/
def Dev.scrubRead (d : Dev) (c ecc : Nat) : Dev :=
  if !d.is F.MEM_SCRUB_EN || d.chanState c ≠ chOnline then d
  else
    let ca := (d.memCh c).scrub
    let next := if ca + 64 < d.chanCap then ca + 64 else 0
    let d := d.updMemCh c fun q => { q with scrub := next }
    let d := if next = 0 then d.bump (F.ECC_CNT_COUNT 5) 1 else d
    let addr := d.keyAddr (c * 2 ^ 36 + ca)
    let ws := match addr with | some a => d.spillWords a | none => []
    let lost := match addr with | some a => d.ueBeats.contains a | none => false
    let codeUe := ws.any fun w => (spillDecode w.2.1 w.2.2).isNone
    let codeCe := (ws.filter fun w => spillCheck w.2.1 != w.2.2 && (spillDecode w.2.1 w.2.2).isSome).length
    if ecc = 2 || lost || codeUe then
      let d := if ecc = 2 || lost then d.bump (F.MEM_CH_CNT_COUNT c 4) 1 else d.bump (F.ECC_CNT_COUNT 3) 1
      let d := match addr with
        | some a =>
          let d := (d.flag (F.MEM_CH_ERR_ADDR_VALID c)).put (F.MEM_CH_ERR_ADDR_ADDR c) a
          let d := (d.put F.ECC_LAST_UE_ADDR a).put F.ECC_LAST_UE_MEM_ID 0xFF
          if ecc = 2 && !lost then { d with ueBeats := d.ueBeats ++ [a] } else d
        | none => d
      (d.flag F.ECC_EVENTS_SCRUB_UE).event F.ECC_EVENTS_SCRUB_UE c []
    else
      let d := if ecc = 1 then d.corrected (F.MEM_CH_CNT_COUNT c 3) 1 else d
      let d := if codeCe = 0 then d else d.corrected (F.ECC_CNT_COUNT 2) codeCe
      match addr with
      | some a => if (ecc = 1 || codeCe ≠ 0) && !d.sd.back.contains a then { d with sd := { d.sd with back := d.sd.back ++ [a] } } else d
      | none => d

/-- SCRUB_WRITEBACK (R352): the oldest corrected beat of channel c is written back with its check bytes, unless a newer write
cancelled it. -/
def Dev.scrubWriteback (d : Dev) (c : Nat) : Dev :=
  match d.sd.back.find? fun a => (d.chanOf a).1 == c with
  | none => d
  | some a =>
    let ws := d.spillWords a
    let d := { d with sd := { d.sd with back := d.sd.back.erase a } }
    let d := d.forL ws fun d (w : Nat × Nat × Nat) =>
      match spillDecode w.2.1 w.2.2 with
      | some v => (d.wrLE w.1 8 v).wrByte (d.chkNow w.1) (BitVec.ofNat 8 (spillCheck v))
      | none => d
    d.bump (F.MEM_CH_CNT_COUNT c 7) 1

/-- The words of 64 bits that the on-chip scrubber walks in each memory of R344 and in each panel program store of R351 (DESIGN CHOICE 61,
for the sizes the spec does not give too); 0 for a MEM_ID that is not one. -/
def scrubWords (mem : Nat) : Nat :=
  if mem = 0 then 0x80000 else if mem = 1 then 0x40000 else if mem = 2 then 8192 else if mem = 3 then 32768
  else if mem = 4 then 0x200000 else if mem = 5 then 0x80000 else if mem = 6 then 8192
  else if 0x10 ≤ mem && mem ≤ 0x17 then 0x40000
  else if 0x20 ≤ mem && mem ≤ 0x2F then 0x8000
  else if 0x30 ≤ mem && mem ≤ 0x3F then 0x2000
  else if 0x40 ≤ mem && mem ≤ 0x7F then 4096
  else 0

/-- The physical address of word i of an on-chip memory that the address map shows, else its byte offset. -/
def onchipAddr (mem i : Nat) : Nat :=
  if mem = 2 then (R.ING_SIG_ENTRY i).addr else if mem = 3 then (R.PRT_ENTRY i).addr
  else if 0x20 ≤ mem && mem ≤ 0x2F then awlDataAddr (mem - 0x20) (8 * i)
  else if 0x30 ≤ mem && mem ≤ 0x3F then awlInstrAddr (mem - 0x30) (8 * i)
  else 8 * i

/-- ONCHIP_SCRUB (R344, R351, R352): the scrubber reads the next word of an on-chip memory and finds the bytes of bits 7 to 0 of `outcome`
corrected and those of bits 15 to 8 uncorrectable; in the Awl memories it also meets the check bits that diagnostic writes stored (R356). -/
def Dev.onchipScrub (d : Dev) (mem outcome : Nat) : Dev :=
  if !d.is F.ECC_ONCHIP_SCRUB_EN || scrubWords mem = 0 then d
  else
    let i := Tab.get 0 d.sd.onchip mem
    let next := if i + 1 < scrubWords mem then i + 1 else 0
    let d := { d with sd := { d.sd with onchip := Tab.set 0 d.sd.onchip mem next } }
    let d := if next = 0 then d.bump (F.ECC_CNT_COUNT 5) 1 else d
    let a := onchipAddr mem i
    let held := if 0x20 ≤ mem then (List.range 8).filterMap fun j =>
        let x := Tab.get 0 d.chk (a + j)
        if x = 0 then none else some (a + j, (d.rdByte (a + j)).toNat, x)
      else []
    let d := d.forL held fun d (h : Nat × Nat × Nat) =>
      match onchipDecode h.2.1 (onchipCheck h.2.1 ^^^ h.2.2) with
      | some v => ({ d with chk := Tab.set 0 d.chk h.1 0 }.wrByte h.1 (BitVec.ofNat 8 v)).corrected (F.ECC_CNT_COUNT 0) 1
      | none => d
    let lost := (List.range 8).filter fun j => bitOf outcome (8 + j)
    let mended := (List.range 8).filter fun j => bitOf outcome j && !bitOf outcome (8 + j)
    let d := if mended.isEmpty then d else d.corrected (F.ECC_CNT_COUNT 0) mended.length
    if !lost.isEmpty || held.any fun h => (onchipDecode h.2.1 (onchipCheck h.2.1 ^^^ h.2.2)).isNone then
      let new := (lost.map fun j => (mem, 8 * i + j)).filter fun e => !d.sd.bad.contains e
      let d := { d with sd := { d.sd with bad := d.sd.bad ++ new } }
      let d := if !lost.isEmpty && (mem = 1 || mem / 16 = 1) then
        { d with pat := { d.pat with shadow := d.pat.shadow.map fun b => { b with broken := b.broken ++ [if mem = 1 then 8 else mem - 16] } } } else d
      let d := (d.bump (F.ECC_CNT_COUNT 1) 1).put F.ECC_LAST_UE_ADDR a
      ((d.put F.ECC_LAST_UE_MEM_ID mem).flag F.ECC_EVENTS_SCRUB_UE).event F.ECC_EVENTS_SCRUB_UE mem []
    else d

/-! ### Field repair (R354, R355) -/

/-- The repairs that a power-on reset applies before any memory is used: those of the factory fuse map, as Config holds it, and every field
entry that is VALID, by ascending entry (R354). -/
def validRepairs (fuses : Tab Nat) : List Nat := (fuses.map (·.2)).filter fun w => bitOf w 31

/-- The spare that serves a row (kind 0) or column (1) of a memory: that of the last field repair applied to it, else the factory's, as
(MEM_ID, KIND, INDEX) and the spare of a FUSE.REPAIR entry; none where no repair names it (R354). -/
def Dev.spareOf (d : Dev) (mem kind index : Nat) : Option Nat :=
  let names := fun (w : Nat) => bitsOf w 29 22 == mem && bitsOf w 21 21 == kind && bitsOf w 20 8 == index
  match d.sd.repairs.reverse.find? names with
  | some w => some (bitsOf w 7 4)
  | none => (((List.range 64).map Config.factoryRepair).find? fun w => bitOf w 31 && names w).map fun w => bitsOf w 7 4

/-- Bits VALID and BAD of a repair entry as the fuse map holds it. -/
def repairUsed (w : Nat) : Bool := bitOf w 31 || bitOf w 30

/-- REPAIR_PROGRAM (R355): a whole-width write of `v` to FUSE.REPAIR_PROG. -/
def Dev.repairProgram (d : Dev) (v : Nat) : Dev :=
  let d := (((d.put F.FUSE_REPAIR_PROG_ENTRY (bitsOf v 37 32)).put F.FUSE_REPAIR_PROG_MEM_ID (bitsOf v 29 22)).put
    F.FUSE_REPAIR_PROG_KIND (bitsOf v 21 21)).put F.FUSE_REPAIR_PROG_INDEX (bitsOf v 20 8)
  let d := d.put F.FUSE_REPAIR_PROG_SPARE (bitsOf v 7 4)
  if !bitOf v 0 then d
  else if d.active || d.is F.FUSE_REPAIR_STATUS_BUSY || repairUsed (Tab.get 0 d.fuses (bitsOf v 37 32)) then d.flag F.FUSE_REPAIR_STATUS_REFUSED
  else { d.flag F.FUSE_REPAIR_STATUS_BUSY with burning := some (bitsOf v 37 32, bitsOf v 29 4 * 16) }

/-- REPAIR_DONE (R355): programming ends and the entry reads VALID. -/
def Dev.repairDone (d : Dev) : Dev :=
  match d.burning with
  | none => d
  | some (e, w) =>
    let d := { d with fuses := Tab.set 0 d.fuses e (2 ^ 31 + w), burning := none }
    (d.put F.FUSE_REPAIR_STATUS_BUSY 0).flag F.FUSE_REPAIR_STATUS_DONE

/-- Power fails during programming: the entry reads BAD (R355). -/
def Dev.repairBroken (d : Dev) : Dev :=
  match d.burning with
  | none => d
  | some (e, w) => { d with fuses := Tab.set 0 d.fuses e (2 ^ 30 + w), burning := none }

end Sys2Proof.Machine
end

