-- ==== Sys2Proof/Machine/Timing.lean ====
section
/-! DEFINITION. The timing unit (R386 to R407): device time and loads, references, selection, holdover and the hardware servo,
and the outputs. -/
namespace Sys2Proof.Machine

/-! ### Device time (R386 to R390) -/

/-- The limits of INCREMENT (R386). -/
def incMin : Nat := 2 ^ 49 - 2 ^ 39
def incMax : Nat := 2 ^ 49 + 2 ^ 39

/-- A timing-island cycle: device time advances by INCREMENT (R386). -/
def Dev.timeTick (d : Dev) : Dev :=
  let t := d.time * 65536 + d.tim.hid + d.get F.TIM_INCREMENT_INC
  { d with ticks := d.ticks + 1, time := t / 65536 % (2 ^ 48 * secUnit), tim := { d.tim with hid := t % 65536 } }

/-- A phase error reduced into −0.5 s to +0.5 s (R404). -/
def halfSecond (x : Int) : Int :=
  let r := x % (secUnit : Int)
  if (secUnit : Int) ≤ 2 * r then r - secUnit else r

/-- A time message: every island's view becomes device time (R29, R34, R390); an island held in reset takes none (R33). -/
def Dev.timeMessage (d : Dev) : Dev :=
  { d with viewIng := d.time, viewEgr := d.time, viewMem := d.time, viewSoc := d.time }.forN 8 fun d k =>
    if (d.isl k).held then d else d.updIsl k fun x => { x with view := d.time }

/-- TIME_SNAP (R389). -/
def Dev.timeSnap (d : Dev) : Dev :=
  ((d.put F.TIM_SNAP_SEC_SEC (timeSec d.time)).put F.TIM_SNAP_NSF_NS (timeNs d.time)).put F.TIM_SNAP_NSF_FRAC (timeFrac d.time)

/-- A load takes effect (R388, R402): at a device time, or it is discarded while a pattern is active. It sends the epoch message of the
second loaded, and a switch in progress is measured afresh from there. -/
def Dev.loadNow (d : Dev) (t : Nat) : Dev :=
  let d := { d with tim := { d.tim with load := none } }.put F.TIM_CTRL_LOAD 0
  if d.active then d.flag F.TIM_HISTORY_LOAD_REFUSED
  else
    let out := let st := d.get F.TIM_STATUS_STATE; st = 3 || st = 4
    let d := { d with
      time := min t clockMax
      tim := { d.tim with hid := 0, swAt := min t clockMax, epoch := timeSec (min t clockMax), pps := if out then d.tim.pps.map fun (e : Nat × PpsIn) => (e.1, { e.2 with off := 0 }) else d.tim.pps } }
    (d.flag F.TIM_HISTORY_LOAD_DONE).timeMessage

/-- The delay of PPS input p (0 or 1) in units of 2^-32 ns. -/
def Dev.ppsDelay (d : Dev) (p : Nat) : Int := sext 32 (d.get (F.TIM_REF_CFG_DELAY (8 + p))) * 2 ^ 22

/-- TIME_LOAD_REQUEST (R388): LOAD is set; the values of TIME_LOAD_SEC and TIME_LOAD_NS are loaded now or wait for an edge. -/
def Dev.timeLoadRequest (d : Dev) : Dev :=
  let at_ := d.get F.TIM_CTRL_LOAD_AT
  let sec := d.get F.TIM_TIME_LOAD_SEC_SEC
  let ns := min (d.get F.TIM_TIME_LOAD_NS_NS) 999999999
  if at_ = 1 || at_ = 2 then { d with tim := { d.tim with load := some (at_, sec, ns) } }.flag F.TIM_CTRL_LOAD
  else d.loadNow (timeOf sec ns 0)

/-! ### References (R391 to R395) -/

/-- Codes of TIM.STATUS.STATE. -/
def timFree : Nat := 0
def timAcquire : Nat := 1
def timLocked : Nat := 2
def timHoldover : Nat := 3
def timSwitching : Nat := 4

def Dev.timState (d : Dev) : Nat := d.get F.TIM_STATUS_STATE
def Dev.refActive (d : Dev) : Nat := d.get F.TIM_STATUS_ACTIVE
def Dev.refTarget (d : Dev) : Nat := d.get F.TIM_STATUS_TARGET
def Dev.ref (d : Dev) (i : Nat) : RefSt := Tab.get RefSt.init d.tim.refs i
def Dev.setRef (d : Dev) (i : Nat) (x : RefSt) : Dev := { d with tim := { d.tim with refs := Tab.set RefSt.init d.tim.refs i x } }
def Dev.ppsIn (d : Dev) (p : Nat) : PpsIn := Tab.get PpsIn.init d.tim.pps p
def Dev.setPps (d : Dev) (p : Nat) (x : PpsIn) : Dev := { d with tim := { d.tim with pps := Tab.set PpsIn.init d.tim.pps p x } }

/-- The lane of LREF_k. -/
def Dev.lrefLane (d : Dev) (k : Nat) : Nat := bitsOf (d.get F.TIM_LREF_LANE) (8 * k + 6) (8 * k)

/-- Whether the lane of LREF_k is UP (R393, R395); LREF values above 95 name no lane. -/
def Dev.lrefUp (d : Dev) (k : Nat) : Bool := d.lrefLane k < 96 && d.laneUp (d.lrefLane k)

/-- The quality in force of reference i (R391 to R394). -/
def Dev.refQuality (d : Dev) (i : Nat) : Nat :=
  let fixed := d.get (F.TIM_REF_CFG_FIXED_QL i)
  let adv := if i < 4 then (Tab.get (15, 15) d.tim.lines i).1
    else if i < 8 then (if d.lrefUp (i - 4) then Tab.get 15 d.tim.laneQl (d.lrefLane (i - 4)) else 15)
    else if i < 10 then 15 else d.get F.TIM_PTP_REF_QL
  let q := if fixed = 0 then adv else fixed
  if q = 0 then 15 else q

/-- Whether a PPS input is active: edges 1 s apart to 100 µs, and none missing for 1.5 s, by the island clock (R395). -/
def Dev.ppsActive (d : Dev) (p : Nat) : Bool :=
  let x := d.ppsIn p
  match x.edge with | some e => x.good && decide (d.ticks ≤ e + 1500 * ticksPerMs) | none => false

/-- The first condition that reference i fails, as a REASON code, 0 for none (R395); `act` and `range` are the measured activity of
REF_A to REF_D and the references within ±10 ppm. -/
def Dev.refFails (d : Dev) (i act range : Nat) : Nat :=
  let q := d.refQuality i
  if d.get (F.TIM_REF_CFG_PRIORITY i) = 0 then 1
  else if 15 ≤ q then 2
  else if i = 10 && d.tim.wdog then 6
  else if !(if i < 4 then bitOf act i else if i < 8 then d.lrefUp (i - 4)
    else if i < 10 then d.ppsActive (i - 8) else true) then 3
  else if i < 10 && !bitOf range i then 4
  else 0

def Dev.refQualified (d : Dev) (i : Nat) : Bool := d.is (F.TIM_REF_STATUS_QUALIFIED i)

/-- Reference i is not qualified, for a reason. -/
def Dev.refLost (d : Dev) (i reason : Nat) : Dev :=
  (d.put (F.TIM_REF_STATUS_QUALIFIED i) 0).put (F.TIM_REF_STATUS_REASON i) reason

/-- Reference i is evaluated (R395). A disagreement stays its REASON until it is qualified again. -/
def Dev.refEvaluate (d : Dev) (act range i : Nat) : Dev :=
  let x := d.ref i
  let now := d.tim.ms
  let d := d.put (F.TIM_REF_STATUS_QL i) (d.refQuality i)
  let f := d.refFails i act range
  if f ≠ 0 then (d.setRef i { x with okAt := none, qualAt := none, dis := false }).refLost i f
  else
    let at_ := x.okAt.getD now
    if x.qualAt.isSome then d
    else if at_ + 1000 * max 1 (d.get F.TIM_SEL_CFG_QUAL) ≤ now then
      let d := d.setRef i { x with okAt := some at_, qualAt := some now, dis := false }
      (d.flag (F.TIM_REF_STATUS_QUALIFIED i)).put (F.TIM_REF_STATUS_REASON i) 0
    else (d.setRef i { x with okAt := some at_ }).refLost i (if x.dis then 5 else 7)

/-! ### States (R397, R398) -/

/-- The flag of a state in HISTORY. -/
def enteredFlag (s : Nat) : RF := ⟨R.TIM_HISTORY, s, s⟩

/-- What STATUS shows: who owns INCREMENT and the quality sent (R387, R393). -/
def Dev.timShow (d : Dev) : Dev :=
  let st := d.timState
  let d := d.put F.TIM_STATUS_HW_OWNS (b2n (d.is F.TIM_CTRL_SERVO && d.refActive != 10 && st != timFree))
  d.put F.TIM_STATUS_QL_TX (if st = timLocked then (if d.refActive ≤ 10 then d.refQuality d.refActive else 15)
    else if st = timSwitching || st = timHoldover then d.get F.TIM_QTX_QL_HOLD else d.get F.TIM_QTX_QL_FREE)

/-- The unit enters a state with an active reference and a target (15 for none): HISTORY shows it, HOLDOVER and FREE_RUN are
recorded (R398), and INCREMENT takes HOLD_EST where the servo owns it (R399, R403). -/
def Dev.timEnter (d : Dev) (st active target : Nat) : Dev :=
  let owned := d.is F.TIM_STATUS_HW_OWNS
  let d := ((d.put F.TIM_STATUS_STATE st).put F.TIM_STATUS_ACTIVE active).put F.TIM_STATUS_TARGET target
  let d := { d with tim := { d.tim with lockMs := 0, lockSecs := 0, sum := 0, samples := 0, swAt := if st = timSwitching then d.time else d.tim.swAt } }
  let d := d.flag (enteredFlag st)
  let d := if st = timHoldover || st = timFree then d.event (enteredFlag st) 0 [] else d
  let hold := d.is F.TIM_STATUS_EST_VALID && ((st = timHoldover && owned) || (st = timSwitching && d.is F.TIM_CTRL_SERVO && owned))
  (if hold then d.put F.TIM_INCREMENT_INC (d.get F.TIM_HOLD_EST_EST) else d).timShow

/-- HOLDOVER, or FREE_RUN without an estimate (R397). -/
def Dev.timLose (d : Dev) : Dev :=
  d.timEnter (if d.is F.TIM_STATUS_EST_VALID then timHoldover else timFree) 15 15

/-! ### Selection (R396, R400) -/

/-- The rank of a reference: quality, PRIORITY, index (R396). -/
def Dev.refRank (d : Dev) (i : Nat) : Nat := d.refQuality i * 256 + d.get (F.TIM_REF_CFG_PRIORITY i) * 16 + i

/-- FORCE names a qualified reference. -/
def Dev.forced (d : Dev) : Option Nat :=
  let i := d.get F.TIM_CTRL_FORCE
  if d.is F.TIM_CTRL_FORCE_EN && i ≤ 10 && d.refQualified i then some i else none

/-- The candidate (R396). -/
def Dev.candidate (d : Dev) : Option Nat :=
  match d.forced with
  | some i => some i
  | none =>
    ((List.range 11).filter fun i => d.refQualified i && !(d.ref i).excl).foldl
      (fun (m : Option Nat) i => match m with | some j => if d.refRank i < d.refRank j then some i else some j | none => some i) none

/-- Whether WTR has passed since reference i became qualified (R400). -/
def Dev.wtrPassed (d : Dev) (i : Nat) : Bool :=
  match (d.ref i).qualAt with | some q => decide (q + 1000 * d.get F.TIM_SEL_CFG_WTR ≤ d.tim.ms) | none => false

/-- Shows which wait-to-restore timers run. -/
def Dev.showWtr (d : Dev) : Dev :=
  d.forN 11 fun d i =>
    d.put (F.TIM_REF_STATUS_WTR_RUN i) (b2n (d.is F.TIM_CTRL_REVERTIVE && d.refQualified i && d.refActive ≤ 10 && d.refActive ≠ i
      && d.refRank i < d.refRank d.refActive && !d.wtrPassed i))

/-- In LOCKED with a qualified active reference: a forced reference, or a revert that is due, starts a switch (R396, R400). -/
def Dev.revertCheck (d : Dev) : Dev :=
  let a := d.refActive
  match d.forced with
  | some i => if i = a then d else d.timEnter timSwitching a i
  | none =>
    match d.candidate with
    | some c =>
      if c ≠ a && d.is F.TIM_CTRL_REVERTIVE && d.refRank c < d.refRank a && d.wtrPassed c then
        (d.flag F.TIM_HISTORY_REVERT).timEnter timSwitching a c
      else d
    | none => d

/-- Selection in one evaluation (R397, R402); `lock` says that the active reference's lock condition holds. -/
def Dev.timSelect (d : Dev) (lock : Bool) : Dev :=
  let st := d.timState
  let a := d.refActive
  let c := d.candidate
  if st = timFree then
    match c with | some c => d.timEnter timAcquire c 15 | none => d
  else if st = timAcquire then
    if !d.refQualified a then
      match c with
      | some c => d.timEnter timAcquire c 15
      | none => if d.is F.TIM_STATUS_EST_VALID then d else d.timLose
    else if !lock then { d with tim := { d.tim with lockMs := 0 } }
    else if 10000 ≤ d.tim.lockMs + 1 then d.timEnter timLocked a 15
    else { d with tim := { d.tim with lockMs := d.tim.lockMs + 1 } }
  else if st = timLocked then
    if !d.refQualified a then
      match c with
      | some c => d.timEnter timSwitching a c
      | none => d.timLose
    else d.revertCheck
  else if st = timSwitching then
    let t := d.refTarget
    if !d.refQualified t then
      match c with
      | some c => d.timEnter timSwitching a c
      | none => d.timLose
    else match d.forced with
      | some i => if i = t then d else d.timEnter timSwitching a i
      | none => d
  else match c with
    | some c => d.timEnter timSwitching 15 c
    | none => d

/-! ### Disagreement (R401) -/

/-- REF_DISAGREE is set and recorded (R398). -/
def Dev.disagree (d : Dev) : Dev := (d.flag F.TIM_HISTORY_REF_DISAGREE).event F.TIM_HISTORY_REF_DISAGREE 0 []

/-- Of two references that differ, the active one is kept, else the lower index; the other is not selected. -/
def Dev.keepOne (d : Dev) (i j : Nat) : Dev :=
  let out := if d.refActive = j then i else j
  d.setRef out { d.ref out with excl := true }

/-- One pair of references is compared (R401). -/
def Dev.comparePair (d : Dev) (i j : Nat) : Dev :=
  let tol : Int := d.get F.TIM_ARB_CFG_FREQ_TOL
  let f := fun (r : Nat) => sext 32 (d.get (F.TIM_REF_FREQ_OFFSET r))
  let off := fun (r : Nat) => tol < (f r).natAbs
  if !(d.refQualified i && d.refQualified j && d.refQuality i = d.refQuality j
      && d.get (F.TIM_REF_CFG_PRIORITY i) = d.get (F.TIM_REF_CFG_PRIORITY j) && tol < (f i - f j).natAbs) then d
  else if !d.is F.TIM_STATUS_EST_VALID then (d.keepOne i j).disagree
  else
    let drop := fun (d : Dev) (r : Nat) => (d.setRef r { d.ref r with okAt := none, qualAt := none, dis := true }).refLost r 5
    if off i && off j then (((drop (drop d i) j).disagree).timEnter timHoldover 15 15)
    else if off i then drop d i
    else if off j then drop d j
    else d.keepOne i j

/-- Once per second every pair is compared (R401). -/
def Dev.compareRefs (d : Dev) : Dev :=
  let d := d.forN 11 fun d i => d.setRef i { d.ref i with excl := false }
  d.forN 10 fun d i => d.forN 10 fun d j => if i < j then d.comparePair i j else d

/-! ### Servo and estimate (R403, R404) -/

/-- An update of INCREMENT by the hardware servo, of at most 2^20 units and within its limits (R386, R404). -/
def Dev.servoUpdate (d : Dev) : Dev :=
  let s := clampI (-(2 ^ 20)) (2 ^ 20) (Config.servoStep d.free)
  (d.put F.TIM_INCREMENT_INC (clampI incMin incMax ((d.get F.TIM_INCREMENT_INC : Int) + s)).toNat).fresh

/-- Whether the servo steers by the active reference now. -/
def Dev.servoRuns (d : Dev) : Bool := d.is F.TIM_STATUS_HW_OWNS && (d.timState == timAcquire || d.timState == timLocked)

/-- One more millisecond in LOCKED for the holdover estimate (R403). -/
def Dev.holdEstimate (d : Dev) : Dev :=
  if d.timState ≠ timLocked then d
  else
    let t := { d.tim with sum := d.tim.sum + d.get F.TIM_INCREMENT_INC, samples := d.tim.samples + 1 }
    if t.samples < 1000 then { d with tim := t }
    else
      let n := max 1 (d.get F.TIM_ARB_CFG_HOLD_AVG)
      let g := d.get F.TIM_ARB_CFG_GUARD
      let avgs := (t.sum / t.samples :: t.avgs).take (n + g)
      let secs := t.lockSecs + 1
      let d := { d with tim := { t with sum := 0, samples := 0, avgs := avgs, lockSecs := secs } }
      let d := if n + g ≤ secs then d.flag F.TIM_STATUS_EST_VALID else d
      let w := (avgs.drop g).take n
      if d.is F.TIM_STATUS_EST_VALID && w.length = n then d.put F.TIM_HOLD_EST_EST (sumN w / n) else d

/-- Whether the active reference's lock condition holds (R397): measured for a frequency reference, its phase for a PPS, SW_LOCK
for PTP. -/
def Dev.lockHolds (d : Dev) (measured : Bool) : Bool :=
  let a := d.refActive
  if a = 10 then d.is F.TIM_PTP_REF_SW_LOCK
  else if 8 ≤ a then
    let x := d.ppsIn (a - 8)
    x.edge.isSome && decide ((halfSecond (x.phase - x.off)).natAbs < 1000 * nsUnit)
  else measured

/-- REFERENCE_EVALUATION (R395 to R404): the evaluation of this millisecond. `act` and `range` are what was measured of REF_A to
REF_D's activity and of the references within ±10 ppm, `lock` whether the active frequency reference's error is below
10^-9, and `freqs` the REF_FREQ values of references 0 to 9 at the end of a second, else empty. -/
def Dev.referenceEvaluation (d : Dev) (act range : Nat) (lock : Bool) (freqs : List Int) : Dev :=
  let d := { d with tim := { d.tim with ms := d.tim.ms + 1 } }
  let d := (freqs.take 10).zipIdx.foldl (fun (d : Dev) (e : Int × Nat) => d.put (F.TIM_REF_FREQ_OFFSET e.2) (ofInt 32 e.1)) d
  let d := d.forN 11 fun d i => d.refEvaluate act range i
  let d := if freqs.isEmpty then d else d.compareRefs
  let d := d.timSelect (d.lockHolds lock)
  let d := d.holdEstimate
  let d := if d.servoRuns && d.refActive < 8 then d.servoUpdate else d
  d.timShow.showWtr

/-- Whether a switch has lasted SEL_CFG.BO seconds of device time (R399). -/
def Dev.builtOut (d : Dev) : Bool := decide (d.tim.swAt + max 1 (d.get F.TIM_SEL_CFG_BO) * secUnit ≤ d.time)

/-- BUILD_OUT_END (R399, R400): the switch has lasted its time and ends, the target's phase becomes its build-out offset, and the target
is active. A revert that is due begins at once. -/
def Dev.buildOutEnd (d : Dev) : Dev :=
  if d.timState ≠ timSwitching || !d.builtOut then d
  else
    let t := d.refTarget
    let d := if t = 8 || t = 9 then let x := d.ppsIn (t - 8); d.setPps (t - 8) { x with off := x.phase } else d
    ((d.timEnter timLocked t 15).revertCheck).showWtr

/-- INCREMENT_WRITE (R386, R387): whether the write is taken; one that is not receives an error response. -/
def Dev.incrementAllowed (d : Dev) : Bool := !d.is F.TIM_STATUS_HW_OWNS

/-- INCREMENT_WRITE (R386, R387, R394): a whole-width write of `v` to TIM.INCREMENT. -/
def Dev.incrementWrite (d : Dev) (v : Nat) : Dev :=
  if !d.incrementAllowed then d
  else
    let d := { d with tim := { d.tim with wdog := false } }
    let c := max incMin (min incMax v)
    (if c = v then d else d.flag F.TIM_HISTORY_INC_CLAMP).put F.TIM_INCREMENT_INC c

/-- PTP_WATCHDOG_EXPIRE (R394): the PTP reference is disqualified with reason WDOG. -/
def Dev.ptpWatchdogExpire (d : Dev) : Dev :=
  if d.get F.TIM_PTP_REF_WDOG = 0 then d
  else
    let d := { d with tim := { d.tim with wdog := true } }
    (d.setRef 10 { d.ref 10 with okAt := none, qualAt := none }).refLost 10 6

/-! ### Quality (R392, R393) -/

/-- QL_MESSAGE_RECEIVE (R392): a 16-bit message on quality line i; a level takes effect with its second message in a row. -/
def Dev.qlMessage (d : Dev) (i m : Nat) : Dev :=
  let l := bitsOf m 11 8
  if bitsOf m 7 0 ≠ 0xA5 || bitsOf m 15 12 ≠ 15 - l then d
  else
    let x := Tab.get (15, 15) d.tim.lines i
    { d with tim := { d.tim with lines := Tab.set (15, 15) d.tim.lines i (if x.2 = l then (l, l) else (x.1, l)) } }

/-- QL_TIMEOUT (R392). -/
def Dev.qlTimeout (d : Dev) (i : Nat) : Dev := { d with tim := { d.tim with lines := Tab.set (15, 15) d.tim.lines i (15, 15) } }

/-- QUALITY_RECEIVE (R117, R393): the QUALITY block at the head of lane n's elastic buffer. -/
def Dev.qualityReceive (d : Dev) (n : Nat) : Dev :=
  match d.takeCtrl n 4 with
  | none => d
  | some (p, d) =>
    let q := pf p 1 0 4
    let d := d.afterCtrl n
    { d with tim := { d.tim with laneQl := Tab.set 15 d.tim.laneQl n (if q = 0 then 15 else q) } }

/-- LREF_QUALITY_TIMEOUT (R393). -/
def Dev.lrefTimeout (d : Dev) (k : Nat) : Dev :=
  { d with tim := { d.tim with laneQl := Tab.set 15 d.tim.laneQl (d.lrefLane k) 15 } }

/-- QUALITY_SEND (R97, R393): a QUALITY block is queued on every lane that is due one. -/
def Dev.qualitySend (d : Dev) : Dev :=
  d.forN 96 fun d n =>
    let up := d.get (F.LANE_STATE_STATE n) = 2
    if up && (d.get (F.LANE_CFG_ROLE n) = 3 || d.is F.TIM_QTX_ALL) then
      let a := d.refActive
      let q := if 4 ≤ a && a < 8 && d.lrefLane (a - 4) = n then 15 else d.get F.TIM_STATUS_QL_TX
      d.updTx n fun t => { t with qual := t.qual ++ [sealBlock ([4, q] ++ toBytes 2 t.qualCount)], qualCount := (t.qualCount + 1) % 65536 }
    else d

/-! ### Outputs (R405 to R407) -/

/-- A quantity in 1/1024 ns in units of 2^-32 ns. -/
def ns10 (x : Int) : Int := x * 2 ^ 22

/-- An align pulse at device time t: every FRAME_OUT armed for it starts its train (R406). -/
def Dev.alignPulse (d : Dev) (which : Nat) (t : Nat) : Dev :=
  d.forN 4 fun d k =>
    let a := d.get (F.TIM_FO_CFG_ALIGN k)
    let a := if a = 3 then 0 else a
    if d.is (F.TIM_FO_CFG_ARM k) && d.is (F.TIM_FO_CFG_EN k) && a = which && !(d.tim.trains.any fun e => e.1 == k && e.2.2 == 0) then
      { d with tim := { d.tim with trains := (d.tim.trains.filter fun e => e.1 != k) ++ [(k, t, 0)] } }
    else d

/-- EPOCH (R390, R405, R406): device time has crossed a whole second for which no epoch message was sent: one goes out, PPS_OUT rises, and
trains align. -/
def Dev.epochMark (d : Dev) : Dev :=
  if timeSec d.time = d.tim.epoch then d else
  let t := timeSec d.time * secUnit
  let d := { d with tim := { d.tim with epoch := timeSec d.time } }
  let d := d.timeMessage
  let d := if d.is F.TIM_PPS_OUT_PPS_EN then { d with tim := { d.tim with ppsRise := some ((t : Int) + ns10 d.tim.phase) } } else d
  d.alignPulse 0 t

/-- FRAME_OUT_ARM (R406): the output waits for its next align pulse. -/
def Dev.frameOutArm (d : Dev) (k : Nat) : Dev :=
  { d.flag (F.TIM_FO_CFG_ARM k) with tim := { d.tim with trains := d.tim.trains.filter fun e => !(e.1 == k && e.2.2 == 0) } }

/-- FRAME_OUT_k is stopped as its EN is cleared (R406). -/
def Dev.frameOutStop (d : Dev) (k : Nat) : Dev :=
  if d.is (F.TIM_FO_CFG_EN k) then d
  else { d.put (F.TIM_FO_CFG_ARM k) 0 with tim := { d.tim with trains := d.tim.trains.filter fun e => e.1 != k } }

/-- The device time at which pulse m of a train of FRAME_OUT_k that is aligned at t rises (R406). -/
def Dev.frameOutRise (d : Dev) (k t m : Nat) : Int :=
  (t + d.get (F.TIM_FO_OFFSET_NS k) * nsUnit + m * d.get (F.TIM_FO_PERIOD_PERIOD k) * 65536 : Nat) + ns10 d.tim.phase

/-- FRAME_OUT_PULSE (R390, R406): the next pulse of FRAME_OUT_k rises at its device time, and a time message is sent. -/
def Dev.frameOutPulse (d : Dev) (k : Nat) : Dev :=
  match d.tim.trains.find? fun e => e.1 == k with
  | none => d
  | some (_, t, m) =>
    let period := d.get (F.TIM_FO_PERIOD_PERIOD k)
    let rise := d.frameOutRise k t m
    if d.time < rise then d else
    let rest := d.tim.trains.filter fun e => e.1 != k
    let d := if m = 0 then d.put (F.TIM_FO_CFG_ARM k) 0 else d
    { d with tim := { d.tim with rises := Tab.set none d.tim.rises k (some rise), trains := if period = 0 then rest else rest ++ [(k, t, m + 1)] } }.timeMessage

/-- Whether a pulse that rose at r and lasts w is still high. -/
def Dev.pulseHigh (d : Dev) (r : Int) (w : Nat) : Bool := decide (r ≤ (d.time : Int)) && decide ((d.time : Int) < r + w)

/-- The level of PPS_OUT (R405): high for WIDTH µs from its rise. -/
def Dev.ppsOut (d : Dev) : Bool :=
  d.is F.TIM_PPS_OUT_PPS_EN && match d.tim.ppsRise with
    | some r => d.pulseHigh r (max 1 (d.get F.TIM_PPS_OUT_WIDTH) * 1000 * nsUnit)
    | none => false

/-- The level of CLK10_OUT (R405): a square wave whose rising edges fall at every 100 ns of device time plus the output phase. -/
def Dev.clk10Out (d : Dev) : Bool :=
  d.is F.TIM_PPS_OUT_CLK10_EN && decide (((d.time : Int) - ns10 d.tim.phase) % (100 * nsUnit : Nat) < (50 * nsUnit : Nat))

/-- The level of FRAME_OUT_k (R406): high for WIDTH ns from its last rise, while EN is 1. -/
def Dev.frameOut (d : Dev) (k : Nat) : Bool :=
  d.is (F.TIM_FO_CFG_EN k) && match Tab.get none d.tim.rises k with
    | some r => d.pulseHigh r (max 1 (d.get (F.TIM_FO_CFG_WIDTH k)) * nsUnit)
    | none => false

/-- PHASE_PEND takes a value, and SLEWING shows it (R407). -/
def Dev.setPend (d : Dev) (x : Int) : Dev :=
  let x := clampI (-(2 ^ 39)) (2 ^ 39 - 1) x
  (d.wrReg R.TIM_PHASE_PEND (BitVec.ofInt 64 x)).put F.TIM_STATUS_SLEWING (b2n (x != 0))

def Dev.phasePend (d : Dev) : Int := sext 40 (d.get F.TIM_PHASE_PEND_PEND)

/-- PHASE_STEP (R407): a write of a signed amount to TIM.PHASE_STEP. -/
def Dev.phaseStep (d : Dev) (v : Nat) : Dev := d.setPend (d.phasePend + sext 32 v)

/-- PHASE_SLEW (R407): 10 ms on, the output phase has moved by at most 1 ns. -/
def Dev.phaseSlew (d : Dev) : Dev :=
  let m := clampI (-1024) 1024 d.phasePend
  { d.setPend (d.phasePend - m) with tim := { d.tim with phase := d.tim.phase + m } }

/-- With ALIGN set the servo removes what is left of a PPS reference's build-out offset, 100 ns at most with each edge, which is once a
second (R399). -/
def PpsIn.removeOffset (x : PpsIn) : PpsIn := { x with off := x.off - clampI (-(100 * nsUnit : Nat)) (100 * nsUnit : Nat) x.off }

/-- PPS_EDGE (R388, R395, R404, R406): a rising edge of PPS_A (0) or PPS_B (1) at the device time of this cycle. -/
def Dev.ppsEdge (d : Dev) (p : Nat) : Dev :=
  let x := d.ppsIn p
  let gap := match x.edge with | some e => some (d.ticks - e) | none => none
  let good := match gap with | some g => decide (1000 * ticksPerMs ≤ g + ticksPerMs / 10) && decide (g ≤ 1000 * ticksPerMs + ticksPerMs / 10) | none => false
  let phase := halfSecond ((d.time : Int) - d.ppsDelay p)
  let x := { x with edge := some d.ticks, good := good, phase := phase }
  let steers := d.servoRuns && d.refActive = 8 + p
  let d := d.setPps p (if steers && d.is (F.TIM_REF_CFG_ALIGN (8 + p)) then x.removeOffset else x)
  let d := if steers then d.servoUpdate else d
  let d := d.alignPulse (1 + p) ((d.time : Int) - d.ppsDelay p).toNat
  match d.tim.load with
  | some (at_, sec, ns) =>
    if at_ = 1 + p then d.loadNow ((timeOf sec ns 0 : Int) + d.ppsDelay p).toNat else d
  | none => d

end Sys2Proof.Machine
end

