-- ==== Sys2Proof/Machine/Intc.lean ====
section
/-! DEFINITION. The interrupt controller, the hart timer and the harts' reset (R418 to R423). -/
namespace Sys2Proof.Machine

/-! ### Device-wide conditions (R339, R502) -/

/-- SDRAM is degraded: a channel of the interleave set is TRAINING or OFFLINE (R339). -/
def Dev.degraded (d : Dev) : Bool := d.ilvSet.any fun c => d.chanState c == chTraining || d.chanState c == chOffline

/-- Bits 5 to 0 of DEV.STATUS (R502). -/
def Dev.devStatus (d : Dev) : Nat :=
  d.get F.DEV_STATUS_DRAM_CHANNEL_LOST + 2 * b2n d.degraded + 4 * b2n d.active + 8 * b2n (d.get F.EGR_LINK_FAIL_GROUP != 0)
    + 16 * b2n (d.timState == timLocked) + 32 * b2n (Tab.get 0 d.mirror 0 % 8 == 1)

/-! ### Sources (R420, R422) -/

/-- The low w bits of a register masked by an enable field. -/
def Dev.enabled (d : Dev) (r : Reg) (w : Nat) (en : RF) : Bool := (d.rdReg r).toNat % 2 ^ w &&& d.get en != 0

/-- Whether level source s is asserted (R422). -/
def Dev.sourceOn (d : Dev) (s : Nat) : Bool :=
  if s = 0 then false
  else if s ≤ 96 then d.enabled (R.LANE_EVENTS (s - 1)) 8 (F.LANE_CTRL_IRQ_EN (s - 1))
  else if s ≤ 160 then (d.rdReg (R.PNL_EVENTS (s - 97))).toNat % 32 &&& (d.rdReg (R.PNL_IRQ_EN (s - 97))).toNat != 0
  else if s ≤ 176 then d.enabled (R.AWL_EVENTS (s - 161)) 4 (F.AWL_CTRL_IRQ_EN (s - 161))
  else if s ≤ 184 then d.rdReg (R.ISL_BEAM_EVENTS (s - 177)) != 0
  else if s = 185 then d.is F.DEV_DRAIN_STATUS_DONE
  else if s = 186 then d.enabled R.EGR_EVENTS 5 F.EGR_IRQ_EN_EN || d.get F.EGR_LINK_FAIL_GROUP != 0
  else if s = 187 then d.enabled R.PAT_EVENTS 8 F.PAT_CTRL_IRQ_EN
  else if s = 188 then d.enabled R.CAP_EVENTS 4 F.CAP_EVENTS_IRQ_EN
  else if s ≤ 192 then d.is (F.PCIE_STATUS_LINK_DOWN (s - 189)) || d.is (F.PCIE_STATUS_AER (s - 189))
  else if s = 193 then d.get F.MEM_STATUS_LOST != 0
  else if s = 194 then d.enabled R.ECC_EVENTS 4 F.ECC_EVENTS_IRQ_EN
  else if s = 195 then d.enabled R.WELT_EVENTS 5 F.WELT_EVENTS_IRQ_EN
  else if s = 196 then (d.get F.DMA_EVENTS_HALTED ||| d.get F.DMA_DONE_DONE) &&& d.get F.DMA_IRQ_EN_EN != 0
  else if s = 197 then d.enabled R.TIM_HISTORY 10 F.TIM_HISTORY_IRQ_EN
  else if s = 198 then !d.ptp.fifo.isEmpty && d.is F.PTP_STATUS_IRQ_EN
  else if s = 199 then bitsOf (d.rdReg R.MGMT_STATUS).toNat 8 4 &&& d.get F.MGMT_STATUS_IRQ_EN != 0
  else if s = 200 then d.enabled R.EVR_EVENTS 4 F.EVR_EVENTS_IRQ_EN
  else if s = 201 then d.enabled R.HK_STATUS 3 F.HK_STATUS_IRQ_EN
  else if s = 202 then
    d.enabled (R.MON_EVENTS 0) 6 (F.MON_EVENTS_IRQ_EN 0) || d.enabled (R.MON_EVENTS 1) 6 (F.MON_EVENTS_IRQ_EN 1)
      || bitsOf (d.rdReg R.MON_IN_STATUS).toNat 6 4 &&& d.get F.MON_IN_STATUS_IRQ_EN != 0
  else if s = 203 then d.enabled R.FO_EVENTS 4 F.FO_EVENTS_IRQ_EN
  else if s = 204 then d.enabled R.SMU_NOTE 3 F.SMU_NOTE_IRQ_EN
  else if s = 205 then d.devStatus &&& d.get F.DEV_STATUS_IRQ_EN != 0
  else false

def Dev.setIntc (d : Dev) (x : IntcSt) : Dev := { d with intc := x }

/-- The gateways of the level sources: an asserted source that no context has claimed becomes pending, and stays so until
it is claimed (R420, PLIC). -/
def Dev.irqSettle (d : Dev) : Dev :=
  d.setIntc { d.intc with
    pend := (List.range 206).foldl (fun (p s : Nat) => if d.sourceOn s && Tab.get 0 d.intc.claimed s == 0 then p ||| 2 ^ s else p) d.intc.pend }

/-- A message-signalled interrupt on source s: pending at once, or kept while its source is claimed (R420). -/
def Dev.msi (d : Dev) (s : Nat) : Dev :=
  if Tab.get 0 d.intc.claimed s = 0 then d.setIntc { d.intc with pend := d.intc.pend ||| 2 ^ s }
  else d.setIntc { d.intc with kept := d.intc.kept ||| 2 ^ s }

/-- Whether a source is enabled for a context (R421). -/
def Dev.intEnabled (d : Dev) (c s : Nat) : Bool := bitOf (d.get (F.INTC_ENABLE_EN c (s / 32))) (s % 32) && s != 0

/-- The sources that qualify for a context: pending, enabled, of a priority above 0 and above the threshold (R419, R421). -/
def Dev.qualifying (d : Dev) (c : Nat) : List Nat :=
  (List.range 384).filter fun s =>
    bitOf d.intc.pend s && d.intEnabled c s && decide (d.get (F.INTC_THRESHOLD_THRESH c) < d.get (F.INTC_PRIO_PRIO s))

/-- The source of highest priority, ties to the lower ID (R421). -/
def Dev.bestSource (d : Dev) (l : List Nat) : Nat :=
  l.foldl (fun (b s : Nat) => if b = 0 || d.get (F.INTC_PRIO_PRIO b) < d.get (F.INTC_PRIO_PRIO s) then s else b) 0

/-- Whether a context's external interrupt is raised (R419, R421). -/
def Dev.externalInt (d : Dev) (c : Nat) : Bool := !(d.qualifying c).isEmpty

/-- INTC_CLAIM (R421): the best qualifying source is claimed by the context, or 0 where none qualifies. -/
def Dev.intcClaim (d : Dev) (c : Nat) : Dev × Nat :=
  let s := d.bestSource (d.qualifying c)
  if s = 0 then (d, 0)
  else (d.setIntc { d.intc with pend := d.intc.pend ^^^ 2 ^ s, claimed := Tab.set 0 d.intc.claimed s (c + 1) }, s)

/-- A claimed source is completed: its gateway opens, and an MSI kept becomes pending (R420). -/
def Dev.complete (d : Dev) (s : Nat) : Dev :=
  let kept := bitOf d.intc.kept s
  d.setIntc { d.intc with
    claimed := Tab.set 0 d.intc.claimed s 0
    kept := if kept then d.intc.kept ^^^ 2 ^ s else d.intc.kept
    pend := if kept then d.intc.pend ||| 2 ^ s else d.intc.pend }

/-- INTC_COMPLETE (R421): ignored for a source that the context has not claimed or that is not enabled for it. -/
def Dev.intcComplete (d : Dev) (c s : Nat) : Dev :=
  if Tab.get 0 d.intc.claimed s = c + 1 && d.intEnabled c s then d.complete s else d

/-! ### Hart timer (R423) -/

def Dev.hart (d : Dev) (h : Nat) : HartSt := Tab.get HartSt.init d.harts h
def Dev.setHart (d : Dev) (h : Nat) (x : HartSt) : Dev := { d with harts := Tab.set HartSt.init d.harts h x }
def Dev.hartHeld (d : Dev) (h : Nat) : Bool := bitOf (d.get F.DEV_CORE_CTRL_HOLD) h

/-- The machine timer and software interrupts of hart h as R423 states them; a held hart has none. -/
def Dev.timerInt (d : Dev) (h : Nat) : Dev :=
  d.setHart h { d.hart h with
    mtip := !d.hartHeld h && decide (d.get (F.HTIM_CMP_CMP h) ≤ d.get F.HTIM_TIME_COUNT)
    msip := !d.hartHeld h && d.is (F.HTIM_SWI_SET h) }

/-- After a write of block HTIM or of CORE_CTRL the interrupts of every hart follow at once. -/
def Dev.timerInts (d : Dev) : Dev := d.forN 8 fun d (h : Nat) => d.timerInt h

/-- HTIM.TIME counts at 100 MHz: once in five cycles of the 500 MHz timing island (R24, R423). -/
def Dev.htimTick (d : Dev) : Dev := if d.ticks % 5 = 0 then d.bump F.HTIM_TIME_COUNT 1 else d

/-! ### Harts in reset (R418) -/

/-- Hart h starts in machine mode at an address, with translation off and interrupts disabled. -/
def Dev.startHart (d : Dev) (h pc a0 a1 : Nat) : Dev :=
  d.setHart h { HartSt.init with pc := pc, a0 := a0, a1 := a1 }

/-- Every source that hart h's two contexts have claimed is completed by hardware (R418). -/
def Dev.releaseClaims (d : Dev) (h : Nat) : Dev :=
  d.forL (d.intc.claimed.filter fun e => e.2 == 2 * h + 1 || e.2 == 2 * h + 2) fun d (e : Nat × Nat) => d.complete e.1

end Sys2Proof.Machine
end

