-- ==== Sys2Proof/Machine/WeltCore.lean ====
section
/-! DEFINITION. The Welt's address decode, its errors and its outstanding bursts, and what the targets other than the
control bridge do with a burst (R356, R358 to R369). -/
namespace Sys2Proof.Machine

/-! ### Masters and targets (R358, R359) -/

/-- A Welt master that exists: 6 and 7 are reserved (R358). -/
def weltMaster (m : Nat) : Bool := m ≤ 5 || (8 ≤ m && m ≤ 15)

/-- Outstanding reads, and writes, that a master may have (R358). -/
def weltLimit (m : Nat) : Nat := if m = 0 || m = 3 || m = 4 then 32 else if m = 1 then 64 else 8

/-- The class of a master's requests (R358); a DMA channel's comes with the request. -/
def masterClass (m : Nat) : Nat := if 8 ≤ m then 1 else 3

/-- A control block index of R498. -/
def blockExists (i : Nat) : Bool := i ≤ 0x16 || (0x20 ≤ i && i ≤ 0x28) || (0x40 ≤ i && i ≤ 0x7F)

/-- The target of an address (R359, R497). -/
def weltTarget (a : Nat) : Nat :=
  if a < 0x1800000000 then 0
  else if 0x4000000000 ≤ a && a < 0x6000000000 then 1
  else if 0x6000000000 ≤ a && a < 0x8000000000 then 2
  else if 0xE000000000 ≤ a && a < 0xE020000000 then 3
  else if 0xE800000000 ≤ a && a < 0xE801000000 then 4
  else if 0xF000000000 ≤ a && blockExists (blockOf a) then 5
  else 6

/-! ### Codes and errors (R365 to R367) -/

def weltOkay : Nat := 0
def weltErr : Nat := 1
def weltDecerr : Nat := 2
def weltTimedOut : Nat := 3

/-- The beats of a burst. -/
def Burst.beats (b : Burst) : Nat := b.cells.length / 64

/-- A burst's end with ERR or TIMEOUT is counted and shown (R365, R367). -/
def Dev.weltFail (d : Dev) (b : Burst) (code : Nat) : Dev :=
  let d := d.bump (F.WELT_CNT_COUNT (if code = weltTimedOut then 1 else 2)) 1
  let d := (((((d.put F.WELT_ERR_INFO_RESP code).put F.WELT_ERR_INFO_MASTER b.master).put F.WELT_ERR_INFO_TARGET b.target).put
    F.WELT_ERR_INFO_WRITE (b2n b.write)).put F.WELT_ERR_INFO_TAG b.tag).put F.WELT_ERR_INFO_BEATS_M1 (b.beats - 1)
  let d := d.put F.WELT_ERR_ADDR_ADDR b.addr
  if code = weltTimedOut then (d.flag F.WELT_EVENTS_TIMEOUT).event F.WELT_EVENTS_TIMEOUT 0 [b.master, b.target, b.addr]
  else d.flag F.WELT_EVENTS_ERR

/-- A decode miss is counted, and recorded when DECODE rises (R366). -/
def Dev.decodeMiss (d : Dev) (b : Burst) : Dev :=
  let d := d.bump (F.WELT_CNT_COUNT 0) 1
  if d.is F.WELT_EVENTS_DECODE then d
  else (d.flag F.WELT_EVENTS_DECODE).event F.WELT_EVENTS_DECODE 0 [b.master, b.tag, b.addr]

/-! ### Bursts under way (R361, R368, R369) -/

def Dev.setWelt (d : Dev) (x : WeltSt) : Dev := { d with welt := x }

/-- Shows a master's outstanding bursts (R369): those the master still waits for, and DRAINING. -/
def Dev.weltShow (d : Dev) (m : Nat) : Dev :=
  let mine := d.welt.bursts.filter fun b => b.master == m && !b.dead
  let live := mine.filter fun b => !b.orphan
  let d := d.put (F.WELT_M_STATUS_READS m) (live.filter fun b => !b.write).length
  let d := d.put (F.WELT_M_STATUS_WRITES m) (live.filter fun b => b.write).length
  d.put (F.WELT_M_STATUS_DRAINING m) (b2n (mine.any (·.orphan)))

/-- A reset of some of a master's bursts (R368): those not granted are removed, those granted complete on the master's
behalf and their responses are discarded. -/
def Dev.weltReset (d : Dev) (m : Nat) (sel : Burst → Bool) : Dev :=
  let d := d.setWelt { d.welt with
    bursts := (d.welt.bursts.filter fun b => !(b.master == m && sel b && !b.granted)).map fun b =>
      if b.master = m && sel b then { b with orphan := true } else b }
  d.weltShow m

/-- Whether a master that left reset still waits for its completed bursts (R369). -/
def Dev.draining (d : Dev) (m : Nat) : Bool := d.welt.bursts.any fun b => b.master == m && b.orphan && !b.dead

/-! ### Issue (R358, R360, R361, R369) -/

/-- A master receives a response (R365): the beats of a read are zero where the code is not OKAY. -/
def Dev.weltAnswer (d : Dev) (b : Burst) (code : Nat) (data : List Nat) : Dev :=
  let beats := if b.write then [] else if code = weltOkay then data else List.replicate b.cells.length 0
  d.setWelt { d.welt with last := Tab.set (0, 0, []) d.welt.last b.master (b.tag, code, beats) }

/-- Whether compute island k is held in reset: its crossing answers with ERR (R32). -/
def Dev.islHeld (d : Dev) (k : Nat) : Bool := bitOf (d.get F.DEV_ISL_RESET_ISL) k

/-- A master issues a burst: none while it drains or has its full number outstanding, and none of an island held in reset (R32). One that
crosses 4 KiB is refused with ERR by the matrix. -/
def Dev.weltIssue (d : Dev) (b : Burst) : Dev :=
  let same := (d.welt.bursts.filter fun x => x.master == b.master && x.write == b.write && !x.dead && !x.orphan).length
  if d.draining b.master || weltLimit b.master ≤ same || (8 ≤ b.master && d.islHeld (b.master - 8)) then d
  else if 4096 < b.addr % 4096 + b.cells.length then
    ((d.bump (F.WELT_CNT_COUNT 3) 1).weltFail b weltErr).weltAnswer b weltErr []
  else (d.setWelt { d.welt with bursts := d.welt.bursts ++ [b] }).weltShow b.master

/-- A burst of a master, cut to whole beats from an aligned address: 1 to 16 beats (R360). -/
def burstOf (master tag : Nat) (write : Bool) (kind addr : Nat) (cells : List (Option Nat)) : Burst :=
  let a := addr % 2 ^ 40 / 64 * 64
  let n := min 16 (max 1 (ceilDiv cells.length 64))
  { master := master, tag := tag % 64, write := write, kind := kind, addr := a, cells := padTo (64 * n) none cells, cls := masterClass master,
    target := weltTarget a, granted := false, out := [], answer := none, orphan := false, dead := false }

/-! ### SDRAM (R333, R345, R349, R350, R356) -/

/-- The runs of enabled bytes of a burst, as (address, bytes). -/
def cellRuns (a : Nat) : List (Option Nat) → List (Nat × List Nat)
  | [] => []
  | none :: t => cellRuns (a + 1) t
  | some v :: t => match cellRuns (a + 1) t with
    | (b, l) :: rest => if b = a + 1 then (a, v :: l) :: rest else (a, [v]) :: (b, l) :: rest
    | [] => [(a, [v])]

/-- The aligned 64-bit words that a run of bytes covers whole. -/
def wholeWords (a n : Nat) : List Nat :=
  (List.range (n / 8 + 1)).filterMap fun i =>
    let w := ceilDiv a 8 * 8 + 8 * i
    if w + 8 ≤ a + n then some w else none

/-- Each word written whole into the spill region takes its check byte, or in diagnostic mode CHK8 (R345, R356). -/
def Dev.spillChecks (d : Dev) (a n : Nat) : Dev :=
  d.forL (wholeWords a n) fun d w =>
    if d.inSpill (w / 64 * 64) && !d.beatLost w then
      (d.memWrite (d.chkNow w) [if d.diagOn 0xFE then d.get F.ECC_DIAG_CTRL_CHK8 else spillCheck (d.rdLE w 8)]).1
    else d

/-- A write of a port at SDRAM by bytes that are enabled, the words of the spill region with their check bytes: whether it receives ERR. -/
def Dev.sdramPut (d : Dev) (port cls a : Nat) (cells : List (Option Nat)) : Dev × Bool :=
  let d := d.memPost port cls true a cells.length
  (cellRuns a cells).foldl (fun (r : Dev × Bool) (w : Nat × List Nat) =>
    let x := r.1.memWrite w.1 w.2
    (x.1.spillChecks w.1 w.2.length, r.2 || x.2)) (d, !d.sdramInUse a cells.length)

/-- The words of the spill region that a range touches, as (address, word, check byte). -/
def Dev.spillIn (d : Dev) (a n : Nat) : List (Nat × Nat × Nat) :=
  ((beatsOf a n).map d.spillWords).flatten.filter fun w => a < w.1 + 8 && w.1 < a + n

/-- A read of a port at SDRAM: its bytes, and whether it receives ERR. Words of the spill region are corrected by their check bytes,
except in diagnostic mode. -/
def Dev.sdramGet (d : Dev) (port cls a n : Nat) : Dev × List Nat × Bool :=
  let r := d.memRead a n
  let d := d.memReportAs r port cls
  let ws := d.spillIn a n
  if d.diagOn 0xFE then
    let d := match ws.getLast? with | some w => d.put F.ECC_DIAG_RAW_CHK w.2.2 | none => d
    (d, r.bytes, r.err || !r.ue.isEmpty)
  else
    let bad := ws.filter fun w => (spillDecode w.2.1 w.2.2).isNone
    let ce := (ws.filter fun w => spillCheck w.2.1 != w.2.2 && (spillDecode w.2.1 w.2.2).isSome).length
    let d := if ce = 0 then d else d.corrected (F.ECC_CNT_COUNT 2) ce
    let d := d.forL bad fun d (w : Nat × Nat × Nat) =>
      let d := (((d.bump (F.ECC_CNT_COUNT 3) 1).put F.ECC_LAST_UE_ADDR w.1).put F.ECC_LAST_UE_MEM_ID 0xFF).flag F.ECC_EVENTS_UE_SDRAM
      d.event F.ECC_EVENTS_UE_SDRAM 0 [w.1, port]
    let fixed := ws.foldl (fun (bs : List Nat) w =>
      match spillDecode w.2.1 w.2.2 with
      | some v => if a ≤ w.1 && w.1 + 8 ≤ a + n then bs.take (w.1 - a) ++ toBytes 8 v ++ bs.drop (w.1 - a + 8) else bs
      | none => bs) r.bytes
    (d, fixed, r.err || !r.ue.isEmpty || !bad.isEmpty)

/-! ### Insole windows and Awl memories (R287, R288, R347, R356) -/

/-- A write of bytes to core n's window at an offset. Diagnostic writes store CHK5 as each byte's check bits (R356). -/
def Dev.awlPut (d : Dev) (n off : Nat) (bs : List Nat) : Dev :=
  let base := awlDataAddr n 0
  let ins := 0x80000 ≤ off && off < 0x90000
  if !ins && !(off < 0x40000) then d
  else
    let mem := if ins then 0x30 + n else 0x20 + n
    let d := d.onchipWrite mem (if ins then awlInstrAddr n 0 else base) (base + off) bs
    if d.diagOn mem then
      { d with chk := (List.range bs.length).foldl (fun (t : Tab Nat) i =>
          Tab.set 0 t (base + off + i) (onchipCheck (bs.getD i 0 % 256) ^^^ d.get F.ECC_DIAG_CTRL_CHK5)) d.chk }
    else d

/-- A read of bytes of core n's window at an offset, and whether it receives ERR. -/
def Dev.awlGet (d : Dev) (n off len : Nat) : Dev × List Nat × Bool :=
  if 0x80000 ≤ off && off < 0x90000 then d.onchipRead (0x30 + n) (awlInstrAddr n 0) (awlDataAddr n off) len
  else if off < 0x40000 then d.awlDataRead n off len
  else (d, List.replicate len 0, false)

/-- A burst at the Insole windows or the Awl memories: the code and the read data. -/
def Dev.onchipServe (d : Dev) (b : Burst) : Dev × Nat × List Nat :=
  let n := b.cells.length
  if b.target = 3 then
    let k := (b.addr - 0xE000000000) / insoleSize
    let off := (b.addr - 0xE000000000) % insoleSize
    if d.islHeld k then (d, weltErr, [])
    else if b.write then ((cellRuns off b.cells).foldl (fun (d : Dev) w => d.insoleWrite k w.1 w.2) d, weltOkay, [])
    else if (List.range n).any fun i => (b.cells.getD i none).isSome && d.insoleBad.contains (b.addr + i) then
      (d.parityCount ((List.range n).filter fun i => (b.cells.getD i none).isSome && d.insoleBad.contains (b.addr + i)).length, weltErr, [])
    else (d, weltOkay, d.rdBytes b.addr n)
  else
    let c := (b.addr - 0xE800000000) / 0x100000
    let off := (b.addr - 0xE800000000) % 0x100000
    let busy := d.awlState c = awlRunning || d.awlState c = awlWaiting
    if d.islHeld (awlIsl c) then (d, weltErr, [])
    else if b.write then
      if busy && decide (0x80000 ≤ off) && decide (off < 0x90000) then (d, weltErr, [])
      else ((cellRuns off b.cells).foldl (fun (d : Dev) w => d.awlPut c w.1 w.2) d, weltOkay, [])
    else
      let r := d.awlGet c off n
      (r.1, if r.2.2 then weltErr else weltOkay, r.2.1)

/-! ### DMA control (R371, R379): what software writes to a channel -/

def dmaHalted : Nat := 0
def dmaWaiting : Nat := 1
def dmaActive : Nat := 2
def dmaAborting : Nat := 3

def Dev.dmaCh (d : Dev) (c : Nat) : DmaCh := Tab.get DmaCh.init d.dma c
def Dev.setDma (d : Dev) (c : Nat) (x : DmaCh) : Dev := { d with dma := Tab.set DmaCh.init d.dma c x }
def Dev.dmaState (d : Dev) (c : Nat) : Nat := d.get (F.DMA_CH_STATUS_STATE c)
def Dev.setDmaState (d : Dev) (c st : Nat) : Dev := d.put (F.DMA_CH_STATUS_STATE c) st
def Dev.dmaIndex (d : Dev) (c : Nat) : Nat := d.get (F.DMA_CH_STATUS_INDEX c)

/-- The address of the descriptor at INDEX (R371). -/
def Dev.dmaDesc (d : Dev) (c : Nat) : Nat := d.get (F.DMA_CH_RING_BASE c) * 32 + 32 * d.dmaIndex c

/-- DMA_RUN (R371, R379): a halted channel reads the descriptor at INDEX; otherwise ignored. -/
def Dev.dmaRun (d : Dev) (c : Nat) : Dev :=
  if d.dmaState c = dmaHalted then (d.setDma c { DmaCh.init with wait := .desc }).setDmaState c dmaWaiting else d

/-- The descriptor is reread by a channel that waits for OWN (R371, R379). -/
def Dev.dmaReread (d : Dev) (c : Nat) : Dev :=
  if d.dmaState c = dmaWaiting && (d.dmaCh c).wait == .none then d.setDma c { d.dmaCh c with wait := .desc } else d

/-- A channel halts with a code: CH_STATUS shows it, and a code other than OK is an event that names the channel, the code
and the address (R377). -/
def Dev.dmaHalt (d : Dev) (c code addr : Nat) : Dev :=
  let d := ((d.setDma c DmaCh.init).setDmaState c dmaHalted).put (F.DMA_CH_STATUS_CODE c) code
  if code = 0 then d
  else (d.put F.DMA_EVENTS_HALTED (d.get F.DMA_EVENTS_HALTED ||| 2 ^ c)).event ⟨R.DMA_EVENTS, c, c⟩ c [c, code, addr]

/-- DMA_ABORT (R379): the channel issues nothing more. A write already issued completes, and the descriptor in progress
completes with ABORTED; without a descriptor in progress the channel halts at once. Its bursts on the Welt, those of the tag of its
number, complete under R368 (DEDUCED 95). -/
def Dev.dmaAbort (d : Dev) (c : Nat) : Dev :=
  let x := d.dmaCh c
  if d.dmaState c = dmaHalted || d.dmaState c = dmaAborting then d else
  let d := d.weltReset 1 fun b => b.tag == c
  if d.dmaState c = dmaWaiting then d.dmaHalt c 7 (d.dmaDesc c)
  else
    let y := match x.wait with
      | .data => { x with abort := true }
      | .status | .own => { x with stop := true }
      | _ => { x with abort := true, wait := .status, code := 7, errElem := d.get (F.DMA_CH_ELEM_INDEX c), errAddr := d.dmaDesc c }
    (d.setDma c y).setDmaState c dmaAborting

/-- A write of DMA.CH_CTRL (R379): ABORT wins over RUN. -/
def Dev.dmaCtrl (d : Dev) (c v : Nat) : Dev :=
  let d := if bitOf v 1 then d.dmaAbort c else if bitOf v 0 then d.dmaRun c else d
  if bitOf v 2 && !bitOf v 1 then d.dmaReread c else d

/-- Whether a write to DMA.CH_CFG or DMA.CH_RING is taken (R379). -/
def Dev.dmaConfigAllowed (d : Dev) (c : Nat) : Bool := d.dmaState c == dmaHalted

end Sys2Proof.Machine
end

