-- ==== Sys2Proof/Machine/Mgmt.lean ====
section
/-! DEFINITION. The management port (R408, R430 to R433): descriptor rings, frames, MDIO and time stamps. Its accesses to
SDRAM take memory port 12 as Welt master 5 (R358). -/
namespace Sys2Proof.Machine

def Dev.setMgmt (d : Dev) (x : MgmtSt) : Dev := { d with mgmt := x }
def Dev.updMgmt (d : Dev) (f : MgmtSt → MgmtSt) : Dev := d.setMgmt (f d.mgmt)

/-- Whether the MAC and both rings run. -/
def Dev.mgmtOn (d : Dev) : Bool := d.is F.MGMT_CFG_EN

/-! ### Link (R430, R432) -/

/-- RGMII is in force (CFG.IF as taken). -/
def MgmtSt.rgmii (m : MgmtSt) : Bool := bitOf m.cfg 0

/-- LINK, SPEED and HALF follow the PHY's word in SGMII, and CFG in RGMII; a change of LINK sets LINK_CHG (R430). -/
def Dev.mgmtLink (d : Dev) : Dev :=
  let m := d.mgmt
  let up := if m.rgmii then d.mgmtOn else m.phyLink && !m.phyHalf
  let sp := if m.rgmii then min 2 (bitsOf m.cfg 7 6) else m.phySpeed
  let was := d.is F.MGMT_STATUS_LINK
  let d := ((d.put F.MGMT_STATUS_LINK (b2n up)).put F.MGMT_STATUS_SPEED sp).put F.MGMT_STATUS_HALF (b2n (!m.rgmii && m.phyHalf))
  if was != up then d.flag F.MGMT_STATUS_LINK_CHG else d

/-- MGMT_LINK_CHANGE (R430): what the PHY reports. -/
def Dev.mgmtLinkChange (d : Dev) (up : Bool) (speed : Nat) (half : Bool) : Dev :=
  (d.updMgmt fun m => { m with phyLink := up, phySpeed := min 2 speed, phyHalf := half }).mgmtLink

/-! ### Rings (R431, R432) -/

/-- Descriptors of ring r (0 transmit, 1 receive). -/
def Dev.mgmtRingLen (d : Dev) (r : Nat) : Nat := 2 ^ d.get (F.MGMT_RING_LOG_N r)

/-- The address of descriptor i of ring r. -/
def Dev.mgmtDesc (d : Dev) (r i : Nat) : Nat := d.get (F.MGMT_RING_BASE r) * 16 + 16 * i

/-- A burst of the MAC, as the Welt's error registers show one. -/
def mgmtBurst (write : Bool) (a n : Nat) : Burst :=
  { master := 5, tag := 0, write := write, kind := 0, addr := a / 64 * 64, cells := List.replicate (64 * min 16 (beatsOf a n).length) none,
    cls := 3, target := 0, granted := true, out := [], answer := none, orphan := false, dead := false }

/-- A read by the MAC; an error response is counted by the Welt (R365). -/
def Dev.mgmtRead (d : Dev) (a n : Nat) : Dev × List Nat × Bool :=
  let r := d.sdramGet 12 3 a n
  (if r.2.2 then r.1.weltFail (mgmtBurst false a n) weltErr else r.1, r.2)

/-- A write by the MAC. -/
def Dev.mgmtWrite (d : Dev) (a : Nat) (bs : List Nat) : Dev :=
  let r := d.sdramPut 12 3 a (bs.map some)
  if r.2 then r.1.weltFail (mgmtBurst true a bs.length) weltErr else r.1

/-- The descriptor at INDEX of ring r as (buffer, length, flags), if the MAC owns it; otherwise the MAC waits for OWN. A
descriptor that cannot be read is not owned (DESIGN CHOICE 70). -/
def Dev.mgmtTake (d : Dev) (r : Nat) : Dev × Option (Nat × Nat × Nat) :=
  let x := d.mgmtRead (d.mgmtDesc r (d.get (F.MGMT_PTR_INDEX r))) 16
  let fl := ofBytes ((x.2.1.drop 8).take 4)
  if x.2.2 || !bitOf fl 0 then (x.1.flag (F.MGMT_PTR_WAITING r), none)
  else
    let d := x.1.put (F.MGMT_PTR_WAITING r) 0
    (d.put (F.MGMT_PTR_INDEX r) ((d.get (F.MGMT_PTR_INDEX r) + 1) % d.mgmtRingLen r), some (ofBytes (x.2.1.take 5), ofBytes ((x.2.1.drop 6).take 2), fl))

/-- A descriptor at an address is completed: bytes 12 to 15, then bytes 8 to 11 with OWN clear, last (R432). -/
def Dev.mgmtComplete (d : Dev) (a flags len : Nat) : Dev :=
  (d.mgmtWrite (a + 12) (toBytes 4 len)).mgmtWrite (a + 8) (toBytes 4 flags)

/-! ### Transmission (R430, R432) -/

/-- Bytes that the transmit buffer holds. -/
def MgmtSt.txBytes (m : MgmtSt) : Nat :=
  sumN (m.ready.map fun f => f.bytes.length) + (match m.gather with | some f => f.bytes.length | none => 0)

/-- Descriptors taken and not completed. -/
def MgmtSt.txDescs (m : MgmtSt) : Nat :=
  sumN (m.ready.map fun f => f.descs.length) + (match m.gather with | some f => f.descs.length | none => 0)

/-- Takes transmit descriptors and their bytes into the 16 KiB transmit buffer while it has room and the MAC owns
descriptors. A frame runs from FIRST to LAST; one that begins anew before LAST, or goes on without FIRST, cannot be sent,
nor can one whose bytes cannot be read or exceed 9,014 (DESIGN CHOICE 70 for the cases that the spec does not name). -/
def Dev.mgmtGather (d : Dev) : Nat → Dev
  | 0 => d
  | fuel + 1 =>
    if !d.mgmtOn || 16384 < d.mgmt.txBytes + 9014 || d.mgmtRingLen 0 ≤ d.mgmt.txDescs then d
    else
      let a := d.mgmtDesc 0 (d.get (F.MGMT_PTR_INDEX 0))
      match d.mgmtTake 0 with
      | (d, none) => d
      | (d, some (buf, len, fl)) =>
        let x := d.mgmtRead buf (min len 9015)
        let first := bitOf fl 1
        let d := match x.1.mgmt.gather with
          | some g => if first then x.1.updMgmt fun m => { m with ready := m.ready ++ [{ g with bad := true }], gather := none } else x.1
          | none => x.1
        let g := (d.mgmt.gather).getD { bytes := [], descs := [], bad := !first }
        let all := g.bytes ++ x.2.1
        let g' : MgmtTx := { bytes := all.take 9014, descs := g.descs ++ [a], bad := g.bad || x.2.2 || 9014 < all.length }
        let d := if bitOf fl 2 then d.updMgmt fun m => { m with ready := m.ready ++ [g'], gather := none }
          else d.updMgmt fun m => { m with gather := some g' }
        d.mgmtGather fuel

/-- The transmit ring proceeds as far as it can. -/
def Dev.mgmtTxRun (d : Dev) : Dev := d.mgmtGather (d.mgmtRingLen 0)

/-- One bit step of the Ethernet frame check sequence (PRESUMED IEEE 802.3, log entry 71). -/
def fcsBit (c : Nat) : Nat := if c % 2 = 1 then (c / 2) ^^^ 0xEDB88320 else c / 2
def fcsByte (c b : Nat) : Nat := (List.range 8).foldl (fun x _ => fcsBit x) (c ^^^ (b % 256))

/-- The frame check sequence of a frame, as its four last bytes. -/
def fcs (bs : List Nat) : List Nat := toBytes 4 ((bs.foldl fcsByte 0xFFFFFFFF) ^^^ 0xFFFFFFFF)

/-- A 16-bit field in network order. -/
def be16 (bs : List Nat) (o : Nat) : Nat := 256 * bs.getD o 0 + bs.getD (o + 1) 0

/-- Where the Ethertype stands, past up to two VLAN tags (R408; PRESUMED IEEE 802.1Q, log entry 71). -/
def etherAt (bs : List Nat) : Nat :=
  let tag (o : Nat) : Bool := be16 bs o == 0x8100 || be16 bs o == 0x88A8
  if tag 12 then (if tag 16 then 20 else 16) else 12

/-- Where the PTP message of a frame stands: over IEEE 802.3, or UDP port 319 over IPv4 or IPv6 (R408). -/
def ptpAt (bs : List Nat) : Option Nat :=
  let e := etherAt bs
  let typ := be16 bs e
  if typ = 0x88F7 then some (e + 2)
  else if typ = 0x0800 && bs.getD (e + 11) 0 == 17 then
    let u := e + 2 + 4 * (bs.getD (e + 2) 0 % 16)
    if be16 bs (u + 2) = 319 then some (u + 8) else none
  else if typ = 0x86DD && bs.getD (e + 8) 0 == 17 then if be16 bs (e + 44) = 319 then some (e + 50) else none
  else none

/-- A frame on the management port is stamped if it is an event message of PTP version 2 (R408, R410). -/
def Dev.mgmtStamp (d : Dev) (tx : Bool) (bs : List Nat) : Dev :=
  match ptpAt bs with
  | none => d
  | some o =>
    let typ := bs.getD o 0 % 16
    let ver := bs.getD (o + 1) 0
    if !d.is (F.PTP_PORT_CFG_EN 0) || 3 < typ || ver % 16 ≠ 2 || 1 < ver / 16 then d
    else d.stamp { tx := tx, port := 0, type := typ, domain := bs.getD (o + 4) 0, seqId := be16 bs (o + 30),
                   time := if tx then d.txStamp 0 (typ == 1) else d.rxStamp 0 d.time (typ == 0), carried := 0 }

/-- The descriptors of a frame are completed, with ERR if it was not sent; LAST sets TX_DONE (R432). -/
def Dev.mgmtTxDone (d : Dev) (f : MgmtTx) : Dev :=
  let n := f.descs.length
  let d := f.descs.zipIdx.foldl (fun (d : Dev) (e : Nat × Nat) =>
    d.mgmtComplete e.1 (2 * b2n (e.2 == 0) + 4 * b2n (e.2 + 1 == n) + 8 * b2n f.bad) 0) d
  let d := d.flag F.MGMT_STATUS_TX_DONE
  if f.bad then (d.flag F.MGMT_STATUS_TX_ERR).bump (F.MGMT_CNT_COUNT 6) 1 else d.bump (F.MGMT_CNT_COUNT 0) 1

/-- MGMT_FRAME_TRANSMIT (R430, R432): the oldest frame held whole is padded, given its FCS and sent, unless a received
PAUSE stops transmission, and its descriptors are completed. -/
def Dev.mgmtTransmit (d : Dev) : Dev :=
  let paused := d.is F.MGMT_CFG_PAUSE_RX && decide (d.ticks < d.mgmt.pause)
  match d.mgmt.ready with
  | [] => d
  | f :: rest =>
    if !d.mgmtOn || (!f.bad && (paused || !d.is F.MGMT_STATUS_LINK)) then d
    else
      let d := d.updMgmt fun m => { m with ready := rest }
      let body := f.bytes ++ List.replicate (60 - f.bytes.length) 0
      let d := if f.bad then d else (d.updMgmt fun m => { m with sent := body ++ fcs body }).mgmtStamp true f.bytes
      (d.mgmtTxDone f).mgmtTxRun

/-! ### Reception (R430, R432) -/

/-- Writes a frame into descriptors held, and completes each (R431). -/
def Dev.mgmtFill (d : Dev) (first : Bool) (bs : List Nat) : List (Nat × Nat × Nat) → Dev
  | [] => d
  | (a, buf, len) :: rest =>
    let d := d.mgmtWrite buf (bs.take len)
    let last := bs.length ≤ len
    let d := d.mgmtComplete a (2 * b2n first + 4 * b2n last) (min len bs.length)
    if last then d else d.mgmtFill false (bs.drop len) rest

/-- How many of the descriptors held a frame of n bytes takes. -/
def holdFor (n : Nat) : List (Nat × Nat × Nat) → Option Nat
  | [] => none
  | (_, _, len) :: rest => if n ≤ len then some 1 else (holdFor (n - len) rest).map (· + 1)

/-- The receive ring proceeds: the oldest waiting frame is written once the descriptors held have room for it; else the
MAC takes the next descriptor, of which it holds one ahead (R432). -/
def Dev.mgmtRxRun (d : Dev) : Nat → Dev
  | 0 => d
  | fuel + 1 =>
    let m := d.mgmt
    let ready := match m.rx with | [] => none | f :: _ => (holdFor f.length m.held).map fun n => (f, n)
    match ready with
    | some (f, n) =>
      let d := (d.mgmtFill true f m.held).updMgmt fun m => { m with rx := m.rx.tail, held := m.held.drop n }
      ((d.flag F.MGMT_STATUS_RX_DONE).bump (F.MGMT_CNT_COUNT 1) 1).mgmtRxRun fuel
    | none =>
      if !d.mgmtOn || (m.rx.isEmpty && !m.held.isEmpty) || d.mgmtRingLen 1 ≤ m.held.length then d
      else
        let a := d.mgmtDesc 1 (d.get (F.MGMT_PTR_INDEX 1))
        match d.mgmtTake 1 with
        | (d, none) => d
        | (d, some (buf, len, _)) => (d.updMgmt fun m => { m with held := m.held ++ [(a, buf, len)] }).mgmtRxRun fuel

/-- The receive ring proceeds as far as it can. -/
def Dev.mgmtRx (d : Dev) : Dev := d.mgmtRxRun (2 * d.mgmtRingLen 1 + d.mgmt.rx.length + 1)

/-- A received frame is dropped and counted under kind i. -/
def Dev.mgmtDrop (d : Dev) (i : Nat) : Dev := (d.flag F.MGMT_STATUS_RX_DROP).bump (F.MGMT_CNT_COUNT i) 1

/-- Whether the filter accepts a destination (R430). -/
def Dev.mgmtAccepts (d : Dev) (bs : List Nat) : Bool :=
  d.is F.MGMT_CFG_PROMISC || ofBytes (bs.take 6) == d.get F.MGMT_MAC_ADDR_ADDR || bs.take 6 == List.replicate 6 255
    || (bs.getD 0 0 % 2 == 1 && d.is F.MGMT_CFG_ALLMULTI)

/-- A PAUSE frame (PRESUMED IEEE 802.3 MAC control, log entry 71). -/
def isPause (bs : List Nat) : Bool := be16 bs 12 == 0x8808 && be16 bs 14 == 1

/-- The timing cycles of n pause quanta of 512 bits at a speed. -/
def pauseTicks (speed n : Nat) : Nat := n * 512 * (if speed = 2 then 1 else if speed = 1 then 10 else 100) / 2

/-- MGMT_FRAME_RECEIVE (R430, R432): a frame with its FCS reaches the MAC. -/
def Dev.mgmtReceive (d : Dev) (bs : List Nat) : Dev :=
  let n := bs.length
  if !d.mgmtOn || !d.is F.MGMT_STATUS_LINK then d
  else if n < 64 || 9018 < n then d.mgmtDrop 3
  else if fcs (bs.take (n - 4)) ≠ bs.drop (n - 4) then d.mgmtDrop 2
  else if isPause bs && d.is F.MGMT_CFG_PAUSE_RX then
    (d.updMgmt fun m => { m with pause := d.ticks + pauseTicks (d.get F.MGMT_STATUS_SPEED) (be16 bs 16) }).bump (F.MGMT_CNT_COUNT 7) 1
  else if !d.mgmtAccepts bs then d.bump (F.MGMT_CNT_COUNT 5) 1
  else ((d.mgmtStamp false bs).updMgmt fun m => { m with rx := m.rx ++ [bs] }).mgmtRx

/-- MGMT_RX_NODESC_TIMEOUT (R432): 64 us have passed since the end of the oldest waiting frame, which is dropped whole. -/
def Dev.mgmtRxTimeout (d : Dev) : Dev :=
  match d.mgmt.rx with
  | [] => d
  | _ :: rest => ((d.updMgmt fun m => { m with rx := rest }).mgmtDrop 4).mgmtRx

/-- A descriptor is reread by a ring that waits for OWN (R432): on MGMT_KICK and MGMT_DESC_POLL. -/
def Dev.mgmtReread (d : Dev) (r : Nat) : Dev :=
  if !d.mgmtOn || !d.is (F.MGMT_PTR_WAITING r) then d else if r = 0 then d.mgmtTxRun else d.mgmtRx

/-- MGMT_ENABLE (R432): EN goes to 1, which starts both rings at INDEX 0 with the other CFG fields taken, or to 0, which
stops them at a frame boundary and resets the MAC as a Welt master (R368). -/
def Dev.mgmtEnable (d : Dev) (on : Bool) : Dev :=
  if d.mgmtOn = on then d
  else
    let d := d.put F.MGMT_CFG_EN (b2n on)
    let fresh := { d.mgmt with gather := none, ready := [], rx := [], held := [], pause := 0 }
    if on then
      let d := d.setMgmt { fresh with cfg := (d.rdReg R.MGMT_CFG).toNat }
      let d := d.forN 2 fun d (r : Nat) => (d.put (F.MGMT_PTR_INDEX r) 0).put (F.MGMT_PTR_WAITING r) 0
      d.mgmtLink.mgmtTxRun.mgmtRx
    else ((d.setMgmt fresh).weltReset 5 fun _ => true).mgmtLink

/-- Whether a write to MGMT.RING is taken (R432). -/
def Dev.mgmtRingAllowed (d : Dev) : Bool := !d.mgmtOn

/-! ### MDIO (R430) -/

/-- MDIO_FRAME (R430): the frame that the register describes starts. -/
def Dev.mdioGo (d : Dev) : Dev :=
  match d.mgmt.mdio with
  | some _ => d
  | none => (d.flag F.MGMT_MDIO_GO).updMgmt fun m => { m with mdio := some (d.rdReg R.MGMT_MDIO).toNat }

/-- MDIO_DONE (R430): the frame finishes; a read leaves the data received in DATA. -/
def Dev.mdioDone (d : Dev) (data : Nat) : Dev :=
  match d.mgmt.mdio with
  | none => d
  | some w =>
    let d := (d.put F.MGMT_MDIO_GO 0).updMgmt fun m => { m with mdio := none }
    if 2 ≤ bitsOf w 29 28 then d.put F.MGMT_MDIO_DATA data else d

end Sys2Proof.Machine
end

