-- ==== Sys2Proof/Machine/Boot.lean ====
section
/-! DEFINITION. The harts' reset, the boot ROM, L2 scratch and the flash interface (R417, R418, R424 to R428). -/
namespace Sys2Proof.Machine

/-! ### Harts in reset (R418) -/

/-- Whether a write of DEV.CORE_CTRL is taken: not all eight harts may be held. -/
def coreHoldAllowed (v : Nat) : Bool := v % 256 != 0xFF

/-- Hart h goes into reset: its uncached requests in flight complete under R368, and hardware completes its claims. -/
def Dev.holdHart (d : Dev) (h : Nat) : Dev :=
  ((d.weltReset 0 fun b => b.tag == h).releaseClaims h).setHart h HartSt.init

/-- CORE_HOLD_WRITE (R418): bits set hold harts, bits cleared start them in machine mode at CORE_RVEC. Gives also whether
the write receives an error response. -/
def Dev.coreHold (d : Dev) (v : Nat) : Dev × Bool :=
  if !coreHoldAllowed v then (d, true)
  else
    let was := d.get F.DEV_CORE_CTRL_HOLD
    let d := d.put F.DEV_CORE_CTRL_HOLD v
    let d := d.forN 8 fun d (h : Nat) =>
      if bitOf v h then if bitOf was h then d else d.holdHart h
      else if bitOf was h then d.startHart h (d.get F.DEV_CORE_RVEC_ADDR * 4) 0 0 else d
    (d.timerInts, false)

/-- A hart's access ends in an access fault (R415, R417): the cause and the address, precisely. -/
def Dev.hartFault (d : Dev) (h kind addr : Nat) : Dev :=
  d.setHart h { d.hart h with mcause := if kind = 1 then 1 else if kind = 0 then 5 else 7, mtval := addr, wfi := false }

/-! ### Boot ROM (R424 to R426) -/

/-- Bytes n of a header at o. -/
def hdr (img : List Nat) (o n : Nat) : Nat := ofBytes ((img.drop o).take n)

/-- Key slot k of FUSE.BOOT_KEY. -/
def bootKey (k : Nat) : List Nat := (List.range 48).map fun i => Config.bootKeyByte k i % 256

/-- The key hash matches a slot that is not revoked and not all zeros (R425). -/
def bootKeyOk (h : List Nat) : Bool :=
  (List.range 4).any fun k => h == bootKey k && !bitOf Config.bootRevoke k && (bootKey k).any (· != 0)

/-- The payload of a slot. -/
def bootPayload (img : List Nat) : List Nat := padTo (hdr img 8 4) 0 (img.drop 256)

/-- The code of the first check that a slot fails; 1 PASS (R425). -/
def bootCheck (img : List Nat) : Nat :=
  let len := hdr img 8 4
  let entry := hdr img 12 4
  if hdr img 0 4 ≠ 0x31425856 || hdr img 4 2 ≠ 1 || hdr img 6 2 ≠ 0 || hdr img 20 44 ≠ 0 then 2
  else if len % 64 ≠ 0 || len < 64 || 2097152 < len || entry % 4 ≠ 0 || len ≤ entry then 3
  else if !bootKeyOk (sha384 ((img.drop 64).take 96)) then 4
  else if hdr img 16 4 < Config.bootMinVersion % 64 then 5
  else if !ecdsaOk ((img.drop 64).take 96) (img.take 160 ++ bootPayload img) ((img.drop 160).take 96) then 6
  else 1

/-- The bytes of a payload stand in L2 scratch from byte 0 (R425, R427). -/
def Dev.scratchLoad (d : Dev) (bs : List Nat) : Dev :=
  { d with l2 := bs.zipIdx.foldl (fun (t : Tab Nat) b => Tab.set 0 t b.2 b.1) d.l2 }

/-- The boot ROM accepts a slot: DEV.BOOT, and hart 0 jumps to ENTRY (R426). -/
def Dev.bootStart (d : Dev) (slot entry : Nat) : Dev :=
  let d := (d.put F.DEV_BOOT_SLOT slot).put F.DEV_BOOT_STAGE 1
  (d.startHart 0 entry 0 slot).timerInt 0

/-- Both slots are rejected: BOOT_FAIL_N is driven low and hart 0 waits for interrupt with interrupts disabled (R425). -/
def Dev.bootFailed (d : Dev) : Dev :=
  let d := { d.put F.DEV_BOOT_STAGE 2 with bootFail := true }
  d.setHart 0 { d.hart 0 with wfi := true, ie := false }

/-- BOOT_SLOT_CHECK (R425, R426): the ROM finishes reading and checking the slot whose turn it is, which holds img. -/
def Dev.bootSlotCheck (d : Dev) (img : List Nat) : Dev :=
  let slot := if d.get F.DEV_BOOT_RESULT_A = 0 then 0 else 1
  if d.get F.DEV_BOOT_STAGE ≠ 0 then d
  else
    let code := bootCheck img
    let d := d.put (if slot = 0 then F.DEV_BOOT_RESULT_A else F.DEV_BOOT_RESULT_B) code
    let d := if code = 1 || code = 6 then d.scratchLoad (bootPayload img) else d
    if code = 1 then d.bootStart slot (hdr img 12 4)
    else
      let d := d.note 0 slot [slot, code]
      if slot = 1 then d.bootFailed else d

/-! ### L2 scratch (R427) -/

/-- Whether the L2 answers a hart's access to an address itself. -/
def Dev.inScratch (d : Dev) (a : Nat) : Bool :=
  (d.is F.DEV_L2_CTRL_SCRATCH || d.is F.DEV_L2_CTRL_BUSY) && decide (a < 0x200000)

/-- SCRATCH_EXIT (R427): scratch mode is left and the write-back starts. -/
def Dev.scratchExit (d : Dev) : Dev :=
  if d.is F.DEV_L2_CTRL_SCRATCH then (d.put F.DEV_L2_CTRL_SCRATCH 0).flag F.DEV_L2_CTRL_BUSY else d

/-- A write-back burst of the L2: an error is recorded by the Welt and traps nothing (R417). -/
def Dev.writeBack (d : Dev) (a : Nat) (bs : List Nat) : Dev :=
  let r := d.sdramPut 12 3 a (bs.map some)
  if r.2 then r.1.weltFail { master := 0, tag := 0, write := true, kind := 3, addr := a, cells := bs.map some, cls := 3, target := 0, granted := true,
                             out := [], answer := none, orphan := false, dead := false } weltErr
  else r.1

/-- SCRATCH_WRITEBACK_DONE (R427): the 2 MiB stand in SDRAM at the same addresses, and the L2 operates as a cache. -/
def Dev.scratchDone (d : Dev) : Dev :=
  if !d.is F.DEV_L2_CTRL_BUSY || d.memBusy 0 0x200000 then d
  else
    let l2 := d.l2
    let d := d.forN 2048 fun d (j : Nat) => d.writeBack (1024 * j) ((List.range 1024).map fun i => Tab.get 0 l2 (1024 * j + i))
    { d.put F.DEV_L2_CTRL_BUSY 0 with l2 := [] }

/-! ### Flash (R428) -/

/-- Whether a write to DEV.QSPI_CTRL or DEV.QSPI_DATA is taken: not while a command runs. -/
def Dev.qspiAllowed (d : Dev) : Bool := !d.is F.DEV_QSPI_CTRL_GO

/-- QSPI_COMMAND (R428): the control register is written whole; with GO set the command runs. -/
def Dev.qspiCommand (d : Dev) (v : Nat) : Dev × Bool :=
  if !d.qspiAllowed then (d, true) else (d.wrReg R.DEV_QSPI_CTRL (BitVec.ofNat 64 v &&& 0x83FF00FFFFFFFF80#64), false)

/-- QSPI_COMMAND_DONE (R428): GO reads 0, and a receiving command leaves its bytes in DATA from byte 0 on. -/
def Dev.qspiDone (d : Dev) (data : List Nat) : Dev :=
  if !d.is F.DEV_QSPI_CTRL_GO then d
  else
    let n := min 8 (d.get F.DEV_QSPI_CTRL_LEN)
    let d := d.put F.DEV_QSPI_CTRL_GO 0
    if d.is F.DEV_QSPI_CTRL_WRITE then d
    else d.put F.DEV_QSPI_DATA_DATA (ofBytes (padTo n 0 data ++ (toBytes 8 (d.get F.DEV_QSPI_DATA_DATA)).drop n))

end Sys2Proof.Machine
end

