-- ==== Sys2Proof/Machine/Monitor.lean ====
section
/-! DEFINITION. The monitor audio port (R453 to R467). -/
namespace Sys2Proof.Machine

/-! ### Arithmetic of the chain -/

/-- Two pi with 60 fraction bits. -/
def twoPi60 : Nat := 7244019458077122842

/-- Cosine and sine of an angle with 60 fraction bits, below a quarter turn, by their power series: term k of `n`. -/
def trigSeries (x : Nat) : Nat → Nat → Int → Int × Int → Int × Int
  | 0, _, _, a => a
  | n + 1, k, t, a =>
    let a := match k % 4 with
      | 0 => (a.1 + t, a.2)
      | 1 => (a.1, a.2 + t)
      | 2 => (a.1 - t, a.2)
      | _ => (a.1, a.2 - t)
    trigSeries x n (k + 1) (t * x / ((k + 1) * 2 ^ 60)) a

/-- round(131071 × v), halves away from zero, of a value with 60 fraction bits. -/
def round131071 (v : Int) : Int :=
  let r : Int := (2 * (v.natAbs * 131071) + 2 ^ 60) / 2 ^ 61
  if v < 0 then -r else r

/-- The mixer's c and s for phase step p of 4,096 (R456). -/
def mixerCS (p : Nat) : Int × Int :=
  let a := trigSeries (twoPi60 * (p % 1024) / 4096) 30 0 (2 ^ 60) (0, 0)
  let c := round131071 a.1
  let s := round131071 a.2
  match p / 1024 % 4 with
  | 0 => (c, s)
  | 1 => (-s, c)
  | 2 => (-c, -s)
  | _ => (s, -c)

/-- An accumulator modulo 2^42, rounded (R457, R458). -/
def round42 (acc : Int) : Int := sext 42 (ofInt 42 (sext 42 (ofInt 42 acc) + 65536)) / 131072

/-- The limit of R458. -/
def monMax : Int := 2 ^ 23 - 1

/-- A clamped value and whether it was clamped (R458). -/
def monClamp (x : Int) : Int × Bool := (clampI (-monMax) monMax x, x < -monMax || monMax < x)

/-- The taps of a half-band stage (R457). -/
def stageTaps (minPhase : Bool) : List Int :=
  if minPhase then [10000, 32000, 44000, 34000, 15500, 1800, -4000, -3400, -1200, 600, 900, 500, 100, -150, 422]
  else [-1950, 0, 5360, 0, -12420, 0, 41778, 65536, 41778, 0, -12420, 0, 5360, 0, -1950]

/-- Σ g[k] · u[k] of the last inputs, newest first. -/
def firSum (g : List Int) (u : List Int) : Int := sumI ((g.zip u).map fun e => e.1 * e.2)

/-- One input to a list of stages: the outputs that reach the end (at most one), the stages, and results clamped (R457). -/
def stagePush (g : List Int) : List (Nat × List (Int × Int)) → Int × Int → Option (Int × Int) × List (Nat × List (Int × Int)) × Nat
  | [], x => (some x, [], 0)
  | (n, h) :: rest, x =>
    let h := (x :: h).take 15
    if n % 2 = 0 then
      let re := monClamp (round42 (firSum g (h.map (·.1))))
      let im := monClamp (round42 (firSum g (h.map (·.2))))
      let y := stagePush g rest (re.1, im.1)
      (y.1, (n + 1, h) :: y.2.1, y.2.2 + b2n re.2 + b2n im.2)
    else (none, (n + 1, h) :: rest, 0)

/-- num / den rounded, halves away from zero, den positive. -/
def roundAway (num : Int) (den : Nat) : Int :=
  let r : Int := (2 * num.natAbs + den) / (2 * den)
  if num < 0 then -r else r

/-- The resampler's coefficients × 2^17 at μ = m / 1,024 (R459). -/
def resampCoeffs (m : Int) : List Int :=
  [roundAway (-(m * (m - 1024) * (m - 2048))) 49152, roundAway ((m + 1024) * (m - 1024) * (m - 2048)) 16384,
   roundAway (-((m + 1024) * m * (m - 2048))) 16384, roundAway ((m + 1024) * m * (m - 1024)) 49152]

/-! ### Registers and state of an output -/

/-- Codes of MON.STATUS.STATE. -/
def monIdle : Nat := 0
def monFilling : Nat := 1
def monWaitZc : Nat := 2
def monRun : Nat := 3
def monFadeOut : Nat := 4
def monFadeIn : Nat := 5
def monStopZc : Nat := 6

def Dev.mon1 (d : Dev) (o : Nat) : MonSt := Tab.get MonSt.init d.mon o
def Dev.setMon (d : Dev) (o : Nat) (x : MonSt) : Dev := { d with mon := Tab.set MonSt.init d.mon o x }
def Dev.monState (d : Dev) (o : Nat) : Nat := d.get (F.MON_STATUS_STATE o)
def Dev.setMonState (d : Dev) (o st : Nat) : Dev := d.put (F.MON_STATUS_STATE o) st

/-- The source buffer of an output becomes `buf`, and FILL shows it (R454). -/
def Dev.setMonBuf (d : Dev) (o : Nat) (buf : List (Int × Int)) : Dev :=
  (d.setMon o { d.mon1 o with buf := buf }).put (F.MON_STATUS_FILL o) buf.length

/-- The target in samples (R461). -/
def Dev.monTarget (d : Dev) (o : Nat) : Nat := max 1 (d.get (F.MON_CFG_TARGET o)) * 256

/-- The step of a fade, and the frames of the longest wait for a crossing (R461, R462). -/
def Dev.monStep (d : Dev) (o : Nat) : Nat := if d.is (F.MON_CFG_RATE o) then 69 else 137
def Dev.monWait (d : Dev) (o : Nat) : Nat := if d.is (F.MON_CFG_RATE o) then 480 else 240

/-- Results were clamped (R458). -/
def Dev.monClip (d : Dev) (o n : Nat) : Dev :=
  if n = 0 then d else (d.bump (F.MON_CNT_COUNT o 3) n).flag (F.MON_EVENTS_CLIP o)

/-- n overruns (R454, R461): one that is met in RUN starts a fade. -/
def Dev.monOverrun (d : Dev) (o n : Nat) : Dev :=
  if n = 0 then d
  else
    let d := (d.bump (F.MON_CNT_COUNT o 1) n).flag (F.MON_EVENTS_OVERRUN o)
    if d.monState o = monRun || d.monState o = monStopZc then
      let x := d.mon1 o
      (d.setMon o { x with gain := 65536, cause := 2, stop := x.stop || d.monState o = monStopZc }).setMonState o monFadeOut
    else d

/-! ### Samples (MON_SOURCE_SAMPLE) -/

/-- MON_SOURCE_SAMPLE (R454): the next source sample of output o enters its buffer; missing counters are filled with zero, an
older one is discarded, and what finds the buffer full is an overrun. An IDLE output takes none. -/
def Dev.monSourceSample (d : Dev) (o : Nat) : Dev :=
  let x := d.mon1 o
  match x.src with
  | [] => d
  | m :: rest =>
    let rest := if m.left ≤ 1 then rest else { m with cnt := m.cnt + 1, left := m.left - 1, at_ := m.at_ + 1 } :: rest
    let d := d.setMon o { x with src := rest }
    let v := Tab.get ((0 : Int), (0 : Int)) m.codes m.at_
    if d.monState o = monIdle then d
    else
      let next := x.next.getD m.cnt
      if m.cnt < next then d
      else
        let gap := m.cnt - next
        let d := if gap = 0 then d else (d.bump (F.MON_CNT_COUNT o 2) gap).flag (F.MON_EVENTS_GAP o)
        let zeros := min gap (16384 - x.buf.length)
        let buf := x.buf ++ List.replicate zeros ((0 : Int), (0 : Int))
        let fits : Bool := buf.length < 16384
        let d := d.setMonBuf o (if fits then buf ++ [v] else buf)
        let d := d.setMon o { d.mon1 o with next := some (m.cnt + 1) }
        d.monOverrun o (gap - zeros + b2n (!fits))

/-! ### The chain (R456 to R459) -/

/-- One source sample through the mixer and the stages; an output of the last stage enters the resampler. -/
def Dev.monPush (d : Dev) (o : Nat) (v : Int × Int) : Dev :=
  let x := d.mon1 o
  let cs := mixerCS (x.phi / 2 ^ 20)
  let y : Int × Int := ((v.1 * cs.1 + v.2 * cs.2 + 2) / 4, (v.2 * cs.1 - v.1 * cs.2 + 2) / 4)
  let r := stagePush (stageTaps (d.is (F.MON_CFG_MINPHASE o))) x.stages y
  let x := { x with phi := (x.phi + d.get (F.MON_NCO_FREQ o)) % 2 ^ 32, stages := r.2.1 }
  let x := match r.1 with
    | some z => { x with w := (z :: x.w).take 8, nw := x.nw + 1 }
    | none => x
  (d.setMon o x).monClip o r.2.2

/-- Pulls source samples until the resampler holds w[n + 2] for n + 3 = `need`; false if the buffer runs out. -/
def Dev.monPull (d : Dev) (o need : Nat) : Nat → Dev × Bool
  | 0 => (d, false)
  | fuel + 1 =>
    if need ≤ (d.mon1 o).nw then (d, true)
    else match (d.mon1 o).buf with
      | [] => (d, false)
      | v :: rest => ((d.setMonBuf o rest).monPush o v).monPull o need fuel

/-- One resampler result, shifted and clamped (R459, R460); none on an underrun, which leaves the position where it was. -/
def Dev.monResample (d : Dev) (o : Nat) : Dev × Option (Int × Int) :=
  let pos := (d.mon1 o).pos + d.get (F.MON_RATIO_INC o)
  let n := pos / 2 ^ 32
  let r := d.monPull o (n + 3) 16385
  if r.2 then
    let d := r.1
    let x := d.mon1 o
    let cs := resampCoeffs (pos / 2 ^ 22 % 1024)
    let w := (padTo 4 ((0 : Int), (0 : Int)) x.w).reverse
    let re := monClamp (round42 (firSum cs (w.map (·.1))))
    let im := monClamp (round42 (firSum cs (w.map (·.2))))
    let g : Int := 2 ^ d.get (F.MON_CFG_GAIN o)
    let yr := monClamp (re.1 * g)
    let yi := monClamp (im.1 * g)
    let d := d.setMon o { x with pos := pos, last := (yr.1, yi.1) }
    (d.monClip o (b2n (re.2 || yr.2) + b2n (im.2 || yi.2)), some (yr.1, yi.1))
  else (r.1, none)

/-! ### MON_IN (R466, R467) -/

/-- The gain of MON_IN's contribution one frame on: a slip fades it out and in (R461, R466). -/
def MonIn.fade (m : MonIn) (step : Nat) : MonIn :=
  match m.fading with
  | 1 => if m.gain ≤ step then { m with gain := 0, fading := 2 } else { m with gain := m.gain - step }
  | 2 => if 65536 ≤ m.gain + step then { m with gain := 65536, fading := 0 } else { m with gain := m.gain + step }
  | _ => m

/-- A slip of the elastic buffer (R466). -/
def Dev.monSlip (d : Dev) : Dev :=
  ({ d with monIn := { d.monIn with fading := if d.monIn.fading = 0 then 1 else d.monIn.fading } }).flag F.MON_IN_STATUS_SLIP

/-- Output 0 takes MON_IN's sample for its frame; reading begins with 8 frames buffered. -/
def Dev.monInTake (d : Dev) : Dev :=
  let m := d.monIn.fade (d.monStep 0)
  if !m.started && m.buf.length < 8 then { d with monIn := { m with now := (0, 0) } }
  else match m.buf with
    | v :: rest => { d with monIn := { m with started := true, buf := rest, now := v } }
    | [] => { d with monIn := m }.monSlip

/-- What MON_IN adds to a frame: zero while it is muted (R460, R467). -/
def Dev.monInNow (d : Dev) : Int × Int :=
  if d.is F.MON_IN_STATUS_MUTED then (0, 0)
  else ((d.monIn.now.1 * d.monIn.gain + 32768) / 65536, (d.monIn.now.2 * d.monIn.gain + 32768) / 65536)

/-- The AES3 CRCC of channel-status bytes 0 to 22 (R465): bits in the order sent. -/
def crcc (bits : List Bool) : Nat :=
  bits.foldl (fun c b => if b ^^ (c % 2 == 1) then (c / 2) ^^^ 0xB8 else c / 2) 0xFF

/-- The bits of channel-status bytes 0 to 22 of output o as MON.CS holds them. -/
def Dev.csBits (d : Dev) (o : Nat) : List Bool :=
  ((List.range 23).map fun j => toBits 8 (bitsOf (d.get (F.MON_CS_BYTES o (j / 4))) (8 * (j % 4) + 7) (8 * (j % 4)))).flatten

/-- Byte 23 of output o's channel status (R465). -/
def Dev.csCrcc (d : Dev) (o : Nat) : Nat := crcc (d.csBits o)

/-- An indication of non-audio (R467). -/
def Dev.nonAudio (d : Dev) : Dev :=
  ({ d with monIn := { d.monIn with quiet := 0 } }.flag F.MON_IN_STATUS_MUTED).flag F.MON_IN_STATUS_NONAUDIO_SEEN

/-- A whole channel-status block has been received (R466, R467): that of a professional stream must pass its CRCC. -/
def Dev.csBlock (d : Dev) (bits : List Bool) : Dev :=
  let pro := bits.headD false
  if pro && ofBits (bits.drop 184) != crcc (bits.take 184) then d.flag F.MON_IN_STATUS_CRC_BAD
  else
    let d := (d.put F.MON_IN_STATUS_CS_BYTE0 (ofBits (bits.take 8))).put F.MON_IN_STATUS_PRO (b2n pro)
    let mute := bits.getD 1 false
    let d := { d with monIn := { d.monIn with csMute := mute } }
    if mute then d.nonAudio else d

/-- The IEC 61937 preamble in the upper 16 bits of two subframes (R467). -/
def isPaPb (a b : Nat) : Bool := a / 256 == 0xF872 && b / 256 == 0x4E1F

/-- MON_IN_FRAME (R466, R467): a frame arrives on MON_IN, with 24-bit subframe codes a and b, its channel-status bit, and whether it
begins a channel-status block. -/
def Dev.monInFrame (d : Dev) (start : Bool) (a b : Nat) (c : Bool) : Dev :=
  let d := d.flag F.MON_IN_STATUS_LOCK
  let m := d.monIn
  let block := if start then [c] else if m.block.isEmpty then [] else m.block ++ [c]
  let seen := isPaPb m.prev a || isPaPb a b
  let full : Bool := 16 ≤ m.buf.length
  let buf := (if full then m.buf.tail else m.buf) ++ [(sext 24 a, sext 24 b)]
  let d := { d with monIn := { m with buf := buf, block := if block.length = 192 then [] else block, prev := b % 2 ^ 24, quiet := m.quiet + 1 } }
  let d := if full then d.monSlip else d
  let d := if block.length = 192 then d.csBlock block else d
  let d := if seen then d.nonAudio else if d.monIn.csMute then { d with monIn := { d.monIn with quiet := 0 } } else d
  if 8192 ≤ d.monIn.quiet && d.is F.MON_IN_STATUS_MUTED then d.put F.MON_IN_STATUS_MUTED 0 else d

/-! ### Output frames (R455, R460 to R462, R465) -/

/-- A frame leaves on MON_OUT_o: driven while EN is 1, with its channel-status bit (R462, R465). -/
def Dev.monSend (d : Dev) (o : Nat) (v : Int × Int) (invalid : Bool) : Dev :=
  let x := d.mon1 o
  let place := if x.out.on then (x.out.place + 1) % 192 else 0
  let on := d.is (F.MON_CFG_EN o)
  let cs := (d.csBits o ++ toBits 8 (d.csCrcc o)).getD place false
  d.setMon o { x with out := if on then { on := true, a := v.1, b := v.2, invalid := invalid, place := place, cs := cs } else AesOut.init }

/-- Time slots 4 to 31 of a subframe (R465; PRESUMED 99 for AES3's order): 24 audio bits, least significant first, the validity bit, user
bit 0, the channel-status bit and even parity. -/
def AesOut.slots (x : AesOut) (second : Bool) : List Bool :=
  let l := toBits 24 (ofInt 24 (if second then x.b else x.a)) ++ [x.invalid, false, x.cs]
  l ++ [l.foldl (fun p b => p ^^ b) false]

/-- The preamble of a subframe as half cells that follow a low level (R465; PRESUMED 99): Z at the start of a block, else X, and Y for
subframe 2. -/
def AesOut.preamble (x : AesOut) (second : Bool) : List Bool :=
  toBits 8 (if second then 0x27 else if x.place = 0 then 0x17 else 0x47)

/-- Biphase-mark coding after a level (R465): each cell begins with a transition, and a 1 has another in its middle. -/
def biphase : Bool → List Bool → List Bool
  | _, [] => []
  | l, b :: t => (!l) :: (b ^^ !l) :: biphase (b ^^ !l) t

/-- The half cells of a frame on the line (R465): two subframes of 32 time slots. -/
def AesOut.line (x : AesOut) : List Bool :=
  if x.on then x.preamble false ++ biphase false (x.slots false) ++ x.preamble true ++ biphase false (x.slots true) else []

/-- The two subframe values of a chain result, before a fade (R460). -/
def Dev.monMix (d : Dev) (o : Nat) (y : Int × Int) : Dev × (Int × Int) :=
  let b := if d.is (F.MON_CFG_MONO o) then y.1 else y.2
  if d.is (F.MON_CFG_IN_MIX o) then
    let m := d.monInNow
    let p := monClamp (y.1 + m.1)
    let q := monClamp (b + m.2)
    (d.monClip o (b2n p.2 + b2n q.2), (p.1, q.1))
  else (d, (y.1, b))

/-- A value at gain G (R461). -/
def faded (g : Nat) (v : Int × Int) : Int × Int := ((v.1 * g + 32768) / 65536, (v.2 * g + 32768) / 65536)

/-- The output becomes IDLE, its buffer empty. -/
def Dev.monToIdle (d : Dev) (o : Nat) : Dev :=
  ((d.setMonBuf o []).setMon o { MonSt.init with src := (d.mon1 o).src, out := (d.mon1 o).out }).setMonState o monIdle

/-- An underrun (R461): counted, and met outside a fade it starts one; before audio has begun the output fills again. -/
def Dev.monUnderrun (d : Dev) (o : Nat) : Dev :=
  let d := (d.bump (F.MON_CNT_COUNT o 0) 1).flag (F.MON_EVENTS_UNDERRUN o)
  let x := d.mon1 o
  let st := d.monState o
  if st = monRun || st = monStopZc then
    (d.setMon o { x with gain := 65536, cause := 1, stop := x.stop || st = monStopZc }).setMonState o monFadeOut
  else if st = monWaitZc then d.setMonState o monFilling
  else d

/-- Whether a frame's subframe-1 value is zero or differs in sign from the previous frame's (R462). -/
def crossing (prev v : Int) : Bool := v == 0 || (prev < 0 && 0 < v) || (0 < prev && v < 0)

/-- One frame of a fade out is sent; at silence it is followed by STOP, refill or the fade in (R461, R462). -/
def Dev.monFadeOutFrame (d : Dev) (o : Nat) : Dev :=
  let r := if (d.mon1 o).cause = 1 then (d, none) else d.monResample o
  let d := if r.2.isNone && (d.mon1 o).cause = 2 then (r.1.bump (F.MON_CNT_COUNT o 0) 1).flag (F.MON_EVENTS_UNDERRUN o) else r.1
  let y := r.2.getD (d.mon1 o).last
  let m := d.monMix o y
  let x := m.1.mon1 o
  let d := m.1.monSend o (faded x.gain m.2) r.2.isNone
  let x := { d.mon1 o with gain := x.gain - d.monStep o }
  let d := d.setMon o x
  if 0 < x.gain then d
  else if x.stop then d.monToIdle o
  else if x.cause = 2 then
    let t := d.monTarget o
    (d.setMonBuf o (x.buf.drop (x.buf.length - t))).setMonState o monFadeIn
  else d.setMonState o monFilling

/-- One frame of a fade in is sent (R461). -/
def Dev.monFadeInFrame (d : Dev) (o : Nat) : Dev :=
  let r := d.monResample o
  let d := if r.2.isNone then r.1.monUnderrun o else r.1
  let m := d.monMix o (r.2.getD (d.mon1 o).last)
  let g := min 65536 ((m.1.mon1 o).gain + d.monStep o)
  let d := m.1.monSend o (faded g m.2) r.2.isNone
  let x := { d.mon1 o with gain := g, prev := m.2.1 }
  let d := d.setMon o x
  if g < 65536 then d
  else if x.stop then (d.setMon o { x with waited := 0, stop := false, cause := 0 }).setMonState o monStopZc
  else (d.setMon o { x with cause := 0 }).setMonState o monRun

/-- A frame with the chain running: WAIT_ZC, RUN and STOP_ZC (R462). -/
def Dev.monRunFrame (d : Dev) (o : Nat) : Dev :=
  let st := d.monState o
  let r := d.monResample o
  match r.2 with
  | none =>
    let d := r.1.monUnderrun o
    if st = monWaitZc then d.monSend o (0, 0) false
    else d.monFadeOutFrame o
  | some y =>
    let m := r.1.monMix o y
    let d := m.1
    let x := d.mon1 o
    let cross := crossing x.prev m.2.1
    let d := d.setMon o { x with prev := m.2.1, waited := x.waited + 1 }
    let late : Bool := d.monWait o ≤ x.waited + 1
    if st = monRun then d.monSend o m.2 false
    else if st = monWaitZc then
      if cross then (d.monSend o m.2 false).setMonState o monRun
      else
        let d := d.monSend o (0, 0) false
        if late then (d.flag (F.MON_EVENTS_ZC_TIMEOUT o)).setMonState o monRun else d
    else if cross then (d.monSend o (0, 0) false).monToIdle o
    else
      let d := d.monSend o m.2 false
      if late then (d.flag (F.MON_EVENTS_ZC_TIMEOUT o)).monToIdle o else d

/-- MON_OUTPUT_FRAME (R455, R460 to R462): output o produces the frame of this output frame time. -/
def Dev.monOutputFrame (d : Dev) (o : Nat) : Dev :=
  let d := if o = 0 then d.monInTake else d
  let st := d.monState o
  if st = monIdle then d.monSend o (0, 0) false
  else if st = monFilling then
    let d := d.monSend o (0, 0) false
    let x := d.mon1 o
    if d.monTarget o ≤ x.buf.length then
      if x.cause = 0 then (d.setMon o { x with waited := 0 }).setMonState o monWaitZc
      else (d.setMon o { x with gain := 0 }).setMonState o monFadeIn
    else d
  else if st = monFadeOut then d.monFadeOutFrame o
  else if st = monFadeIn then d.monFadeInFrame o
  else d.monRunFrame o

/-! ### START, STOP and configuration (R462, R463) -/

/-- MON_START (R462, R463): starts an IDLE output, or refuses a bad configuration. -/
def Dev.monStart (d : Dev) (o : Nat) : Dev :=
  let inc := d.get (F.MON_RATIO_INC o)
  if inc < 2 ^ 29 || 2 ^ 33 ≤ inc || 12 < d.get (F.MON_CFG_STAGES o) then d.flag (F.MON_EVENTS_BAD_CFG o)
  else if d.monState o = monIdle then
    let x := d.mon1 o
    let d := d.setMonBuf o []
    (d.setMon o { MonSt.init with src := x.src, out := x.out, stages := List.replicate (d.get (F.MON_CFG_STAGES o)) (0, []) }).setMonState o monFilling
  else d

/-- MON_STOP (R462): audio stops at the next crossing, or at the end of a fade; silence counts as the crossing. -/
def Dev.monStop (d : Dev) (o : Nat) : Dev :=
  let x := d.mon1 o
  let st := d.monState o
  if st = monRun then (d.setMon o { x with waited := 0 }).setMonState o monStopZc
  else if st = monFilling || st = monWaitZc then d.monToIdle o
  else if st = monFadeOut || st = monFadeIn then d.setMon o { x with stop := true }
  else d

/-- Whether a write to MON.CFG or MON.SRC of output o is taken; one that is not receives an error response (R463). -/
def Dev.monConfigAllowed (d : Dev) (o : Nat) : Bool := d.monState o == monIdle

end Sys2Proof.Machine
end

