-- ==== Sys2Proof/Machine/Pcie.lean ====
section
/-! DEFINITION. The PCIe root ports: links, inbound requests and outbound requests in flight (R326 to R330). -/
namespace Sys2Proof.Machine

/-- The Welt master of port p's inbound requests (R358). -/
def pcieMaster (p : Nat) : Nat := 3 + p / 2

/-- BIFURCATE and SPEED_MAX of port p in force, as PCIE.CFG holds them (R327). -/
def Dev.pcieCfg (d : Dev) (p : Nat) : Nat := Tab.get 0xA0 d.pcie.cfg p

/-- Whether logical port p exists: RP_1 and RP_3 only where their physical port is bifurcated (R327). -/
def Dev.pciePort (d : Dev) (p : Nat) : Bool := p % 2 == 0 || bitOf (d.pcieCfg (p - 1)) 4

def Dev.pcieUp (d : Dev) (p : Nat) : Bool := d.is (F.PCIE_STATUS_L0 p)

/-- Whether a burst is an outbound request on port p that waits for its completion (R328). -/
def Burst.outboundOn (b : Burst) (p : Nat) : Bool :=
  (b.target == 1 || b.target == 2) && b.granted && b.answer.isNone && (b.addr - 0x4000000000) / 0x1000000000 == p

/-- Every outbound request in flight on port p receives an error response. -/
def Dev.pcieFail (d : Dev) (p : Nat) : Dev :=
  d.setWelt { d.welt with bursts := d.welt.bursts.map fun b => if b.outboundOn p then { b with answer := some (weltErr, []) } else b }

/-- The link of port p leaves L0: its inbound master's bursts complete under R368. -/
def Dev.pcieLeave (d : Dev) (p : Nat) : Dev :=
  let d := ((d.put (F.PCIE_STATUS_L0 p) 0).put (F.PCIE_STATUS_SPEED p) 0).put (F.PCIE_STATUS_WIDTH p) 0
  d.weltReset (pcieMaster p) fun b => b.kind == p

/-- PCIE_LINK_DOWN (R329): the link leaves L0 without a software request, and stays down until software writes RETRAIN. -/
def Dev.pcieLinkDown (d : Dev) (p : Nat) : Dev :=
  if !d.pcieUp p then d
  else
    let d := (((d.pcieLeave p).pcieFail p).flag (F.PCIE_STATUS_LINK_DOWN p)).event (F.PCIE_STATUS_LINK_DOWN p) p [p]
    { d with pcie := { d.pcie with down := p :: d.pcie.down } }

/-- PCIE_LINK_UP (R327, R329): the link finishes training at a speed, no more than the port was configured for, and at its configured width
or x1. -/
def Dev.pcieLinkUp (d : Dev) (p speed width : Nat) : Dev :=
  if !d.is (F.PCIE_CFG_ENABLE p) || !d.pciePort p || d.pcieUp p || d.pcie.down.contains p then d
  else
    let most := if bitOf (d.pcieCfg (p / 2 * 2)) 4 then 2 else 4
    ((d.flag (F.PCIE_STATUS_L0 p)).put (F.PCIE_STATUS_SPEED p) (max 1 (min speed (bitsOf (d.pcieCfg p) 7 5)))).put (F.PCIE_STATUS_WIDTH p)
      (if width = most then most else 1)

/-- PCIE_RETRAIN (R329): software retrains an enabled port's link, which leaves L0 until it has trained. -/
def Dev.pcieRetrain (d : Dev) (p : Nat) : Dev :=
  if d.is (F.PCIE_CFG_ENABLE p) then
    let d := d.pcieLeave p
    { d with pcie := { d.pcie with down := d.pcie.down.filter (· ≠ p) } }
  else d

/-- A write of PCIE.CFG (R327): BIFURCATE and SPEED_MAX take effect as ENABLE is 0, before the write or after it; a port disabled leaves L0,
and once enabled again it trains. -/
def Dev.pcieConfig (d : Dev) (p : Nat) (was : Bool) : Dev :=
  let on := d.is (F.PCIE_CFG_ENABLE p)
  let d := if was && on then d else { d with pcie := { d.pcie with cfg := Tab.set 0xA0 d.pcie.cfg p ((d.rdReg (R.PCIE_CFG p)).toNat &&& 0xF0) } }
  if was && !on then
    let d := (d.pcieLeave p).pcieFail p
    { d with pcie := { d.pcie with down := d.pcie.down.filter (· ≠ p) } }
  else d

/-- PCIE_AER_MESSAGE (R327). -/
def Dev.pcieAer (d : Dev) (p : Nat) : Dev := d.flag (F.PCIE_STATUS_AER p)

/-- PCIE_COMPLETION_TIMEOUT (R327): the oldest outbound request on port p receives an error response. -/
def Dev.pcieTimeout (d : Dev) (p : Nat) : Dev :=
  match d.welt.bursts.findIdx? fun b => b.outboundOn p with
  | none => d
  | some i => d.setWelt { d.welt with bursts := d.welt.bursts.zipIdx.map fun e => if e.2 = i then { e.1 with answer := some (weltErr, []) } else e.1 }

/-- The completion that a port sends: 0 successful, 1 Unsupported Request, 4 Completer Abort. -/
def Dev.pcieComplete (d : Dev) (p status : Nat) (data : List Nat) : Dev :=
  { d with pcie := { d.pcie with done := Tab.set (0, []) d.pcie.done p (status, data) } }

/-- An unsupported request is answered, counted and recorded (R328). -/
def Dev.pcieUnsupported (d : Dev) (p : Nat) : Dev :=
  ((d.pcieComplete p 1 []).bump (F.PCIE_STATUS_CNT_UR p) 1).note 0x13 p []

/-- The physical address of a bus address inside port p's inbound window, if it has one in SDRAM (R328). -/
def Dev.pcieInbound (d : Dev) (p bus len : Nat) : Option Nat :=
  let lg := d.get (F.PCIE_IB_BASE_IB_LOG p)
  let base := d.get (F.PCIE_IB_BASE_BUS p) * 4096
  let a := d.get (F.PCIE_IB_XLATE_ADDR p) * 4096 + (bus - base)
  if lg < 12 || bus < base || base + 2 ^ lg ≤ bus then none
  else if a + len ≤ 0x1800000000 then some a else none

/-- PCIE_INBOUND_REQUEST (R328, R358): a memory request of the port's device, with one byte or none (not enabled) for each
byte from a bus address on, goes to SDRAM, is taken as an MSI, or is unsupported. One of more than 256 bytes of payload or 512 bytes to
read is unsupported too (R327; DEDUCED 111). -/
def Dev.pcieRequest (d : Dev) (p tag : Nat) (write : Bool) (bus : Nat) (cells : List (Option Nat)) : Dev :=
  if !d.pcieUp p then d
  else if (if write then 256 else 512) < cells.length then d.pcieUnsupported p
  else match d.pcieInbound p bus cells.length with
    | some a => d.weltIssue (burstOf (pcieMaster p) tag write p a (List.replicate (a % 64) none ++ cells))
    | none =>
      if write && bus == d.get (F.PCIE_MSI_ADDR_BUS p) * 4 && cells.length == 4 && cells.all Option.isSome then
        d.msi (256 + 32 * p + (cells.getD 0 none).getD 0 % 32)
      else d.pcieUnsupported p

end Sys2Proof.Machine
end

