-- ==== Sys2Proof/Machine/RegView.lean ====
section
/-! DEFINITION. What software reads: registers that show stored, fused or computed values, and reads of control space that
have no effect (R15, R16, R19, R20). -/
namespace Sys2Proof.Machine

/-- Bits 3 to 0 of ING.STREAM_ST: MASKED, OUT, ABSENT and MAPPED of stream s (R139). -/
def Dev.streamBits (d : Dev) (s : Nat) : Nat :=
  let on := d.is (F.ING_SIG_ENTRY_MAPPED s)
  let lane := d.get (F.ING_SIG_ENTRY_LANE s)
  let slot := d.get (F.ING_SIG_ENTRY_SLOT s)
  let mask := d.get (F.ING_SLOT_MASK_MASK (d.get (F.ING_SIG_ENTRY_IG s)))
  b2n on + 2 * b2n (on && !d.laneUp lane) + 4 * d.get (F.ING_STREAM_ST_OUT s) + 8 * b2n (on && !bitOf mask slot)

/-- Word w of EVR.STORE: eight bytes of the store half that WIN_SEL names (R483); erased bytes read 0xFF, and so does the block that is
being erased. -/
def Dev.storeWord (d : Dev) (w : Nat) : Nat :=
  let a := 0x80000 * d.get F.EVR_WIN_SEL_HALF + 8 * w
  if d.evr.mustEnter && a / 4096 * 4096 == nextBlock d.evr.head then 2 ^ 64 - 1
  else ofBytes ((List.range 8).map fun j => (Tab.get 0xFF#8 d.evr.store (a + j)).toNat)

/-- The value of a register as software reads it (R15, R16): fields without a row of their own read as stored. -/
def Dev.view (d : Dev) (id : RegId) (ix : List Nat) (r : Reg) : Nat :=
  let v := (d.rdReg r).toNat
  let i := ix.getD 0 0
  let j := ix.getD 1 0
  match id with
  | .DEV_STATUS => v / 64 * 64 + d.devStatus
  | .FUSE_PART_CODE => Config.partCode % 4
  | .FUSE_BOOT_KEY => ofBytes ((List.range 8).map fun b => Config.bootKeyByte i (8 * j + b) % 256)
  | .FUSE_BOOT_CFG => Config.bootMinVersion % 64 * 256 + Config.bootRevoke % 16
  | .FUSE_REPAIR => Tab.get 0 d.fuses i
  | .EVR_POWER_CYCLES => d.evr.powerCycle % 2 ^ 32
  | .EVR_OP_TIME => d.evr.hours % 2 ^ 24 * 4096 + d.evr.sec % 4096
  | .EVR_HEAD => d.evr.head
  | .EVR_OLDEST => d.evr.oldest
  | .EVR_ONCE_NEXT => d.evr.onceNext
  | .EVR_STORE => d.storeWord i
  | .EVR_EVENTS => v ||| 16 * b2n (decide (0x40000 ≤ d.evr.onceNext))
  | .ING_STREAM_ST => v / 16 * 16 + d.streamBits i
  | .MEM_ILV => v % 4096 + 4096 * d.ilvSet.length + 2 ^ 32 * (d.ilvSet.length * d.chanCap / 2 ^ 30)
  | .MEM_STATUS => v / 8192 * 8192 + 4096 * b2n d.degraded + sumN ((List.range 12).map fun c => if d.chanState c = chOnline then 2 ^ c else 0)
  | .EGR_WIN_DATA => (Tab.get 0 (d.win i).shown j).toNat
  | .AWL_STATUS => v / 65536 * 65536 + 32 * bitsOf (d.stat i) 5 5 + 8 * bitsOf (d.stat i) 7 6 + v % 8
  | .MON_CS => if j = 5 then v % 2 ^ 24 + 2 ^ 24 * d.csCrcc i else v
  | .TIM_STATUS => v + 2 ^ 19 * b2n Config.xo20M
  | .INTC_PENDING => bitsOf d.intc.pend (32 * i + 31) (32 * i)
  | .INTC_PRIO => if i = 0 then 0 else v
  | .SMU_NOTE => v
  | .ISL_VERDICT_POST | .CAP_TRIG_SW | .TIM_PHASE_STEP | .PTP_LANE_TX | .EVR_APPEND | .INTC_CLAIM | .PTP_TS_POP => 0
  | _ => v

/-- The boot ROM's range in block DEV (R424). -/
def inBootRom (a : Nat) : Bool := 0xF000080000 ≤ a && a < 0xF000090000

/-- The SMU's mirror, apart from NOTE (R449). -/
def inMirror (a : Nat) : Bool := 0xF001500000 ≤ a && a < 0xF001600000 && a != 0xF00150F000

/-- A 32-bit read of control space without effect: the half of a 64-bit register, the mirror, the boot ROM, or zero where no
register is named (R19, R20). -/
def Dev.peek32 (d : Dev) (a : Nat) : Nat :=
  if inBootRom a then Config.bootRom (a - 0xF000080000) % 2 ^ 32
  else if inMirror a then Tab.get 0 d.mirror (a - 0xF001500000)
  else match (blockRows (blockOf a)).findSome? fun r => (r.locate a).map fun l => (r, l) with
    | some (r, l) => bitsOf (d.view r.id l.1 (r.id.reg l.1)) (8 * l.2 + 31) (8 * l.2)
    | none => 0

/-- A read of n words of 32 bits of control space without effect. -/
def Dev.peek (d : Dev) (a : Nat) : Nat → List Nat
  | 0 => []
  | n + 1 => d.peek32 a :: d.peek (a + 4) n

end Sys2Proof.Machine
end

