-- ==== Sys2Proof/Machine/Registers.lean ====
section
/-! DEFINITION. What a write to control space does: access types, whole-width registers, error responses, and the actions of
the registers that start something (R15 to R20, R32, R33, R499 to R501). -/
namespace Sys2Proof.Machine

/-! ### Islands in reset (R32, R33) -/

/-- Counters that only power-on reset clears (R84, R138, R139, R261, R472, R496). -/
def keptCounters : List RegId :=
  [.LANE_HDR_ERR_CNT, .LANE_LINK_CNT, .FRM_CNT, .ING_AG_UNDERRUN_CNT, .ING_AG_DISCARD_CNT, .ING_CT_SKIP, .EGR_ROUTE_ERR_CNT, .EGR_CLIP_CNT,
   .EGR_GROUP_LOST, .EGR_RELAY_DROP, .EGR_Q_DROP, .MON_CNT, .FO_SUPP_CNT]

/-- What of a register's value a partial reset of its island keeps: a counter, or the counter SKIPPED of EGR.WIN_CTRL (R261). -/
def keptMask (id : RegId) : Word :=
  if keptCounters.contains id then BitVec.allOnes 64 else if id == .EGR_WIN_CTRL then fieldMask 31 16 else 0

/-- Registers of some control blocks read their power-on values again, counters apart (R21, R33). -/
def Dev.resetBlocks (d : Dev) (blocks : List Nat) : Dev :=
  { d with regs := d.regs.filterMap fun e =>
      if !blocks.contains (blockOf e.1) then some e
      else match regFind e.1 with
        | some (r, reg, _) =>
          let v := (e.2 &&& keptMask r.id) ||| (BitVec.ofNat 64 reg.reset &&& ~~~keptMask r.id)
          if v = BitVec.ofNat 64 reg.reset then none else some (e.1, v)
        | none => none }

/-- The ingest island is held: receive halves, alignment and corner turn start anew (R24, R33). -/
def Dev.ingHold (d : Dev) : Dev :=
  let d := d.resetBlocks [0x08, 0x09, 0x0A]
  { d with ing := IngestSt.init, tap := [], lanes := d.lanes.map fun e => (e.1, { e.2 with rx := LaneSt.init.rx, trn := LaneSt.init.trn, prbs := LaneSt.init.prbs }) }

/-- The egress island is held: queues, transmit halves, monitor and failover start anew (R24, R33). -/
def Dev.egrHold (d : Dev) : Dev :=
  let d := d.resetBlocks [0x0C, 0x0D, 0x14, 0x16]
  { d with egr := EgrSt.init, relay := [], mon := [], monIn := MonIn.init, fo := FoSt.init,
           lanes := d.lanes.map fun e => (e.1, { e.2 with tx := LaneSt.init.tx }) }

/-- Compute island k is held, with its Awl cores and its Welt master (R33, R290, R368). -/
def Dev.computeHold (d : Dev) (k : Nat) : Dev :=
  (((d.islHold k).awlReset (2 * k)).awlReset (2 * k + 1)).weltReset (8 + k) fun _ => true

/-- ISL_RESET_WRITE (R33): islands are held or released. Gives also whether the write receives an error response. -/
def Dev.islReset (d : Dev) (v : Nat) : Dev × Bool :=
  if d.active && bitsOf v 9 8 ≠ 0 then (d, true)
  else
    let was := (d.rdReg R.DEV_ISL_RESET).toNat
    let d := d.wrReg R.DEV_ISL_RESET (BitVec.ofNat 64 (v % 1024))
    let d := d.forN 8 fun d (k : Nat) =>
      if bitOf v k then (if bitOf was k then d else d.computeHold k) else if bitOf was k then d.islRelease k else d
    let d := if bitOf v 8 && !bitOf was 8 then d.ingHold else d
    (if bitOf v 9 && !bitOf was 9 then d.egrHold else d, false)

/-- Whether an address lies in a control block of an island held in reset, whose crossing answers with an error (R24, R32). -/
def Dev.blockHeld (d : Dev) (a : Nat) : Bool :=
  let b := blockOf a
  if b = 0x08 || b = 0x09 || b = 0x0A then d.ingHeld
  else if b = 0x0C || b = 0x0D || b = 0x14 || b = 0x16 then d.egrHeld
  else if 0x20 ≤ b && b ≤ 0x27 then d.islHeld (b - 0x20)
  else if b = 0x28 then d.islHeld (awlIsl ((a - 0xF002800000) / 0x10000))
  else false

/-! ### Fields (R15) -/

/-- Stores the fields of a register that a write covers: RW and, with no pattern active, RW-L fields take their bits, W1C bits
written 1 clear. `m` masks the bits that the write covers. -/
def Dev.storeFields (d : Dev) (r : Reg) (fs : List FieldDef) (v m : Nat) : Dev :=
  d.wrReg r (fs.foldl (fun (w : Word) (f : FieldDef) =>
    let fm := fieldMask f.hi f.lo &&& BitVec.ofNat 64 m
    match f.acc with
    | .rw => (w &&& ~~~fm) ||| (BitVec.ofNat 64 v &&& fm)
    | .rwl => if d.active then w else (w &&& ~~~fm) ||| (BitVec.ofNat 64 v &&& fm)
    | .w1c => w &&& ~~~(BitVec.ofNat 64 v &&& fm)
    | _ => w) (d.rdReg r))

/-- A write that covers an RW-L field while a pattern is active receives an error response (R15). -/
def Dev.lockedWrite (d : Dev) (fs : List FieldDef) (m : Nat) : Bool :=
  d.active && fs.any fun f => f.acc == .rwl && fieldMask f.hi f.lo &&& BitVec.ofNat 64 m != 0

/-- Whether a register refuses a write with an error response beyond R15 and R20. -/
def Dev.writeRefused (d : Dev) (id : RegId) (i v m : Nat) : Bool :=
  match id with
  | .DEV_QSPI_CTRL | .DEV_QSPI_DATA => !d.qspiAllowed
  | .DEV_CORE_CTRL => !coreHoldAllowed v
  | .DEV_ISL_RESET => d.active && bitsOf v 9 8 != 0
  | .MEM_ILV => m % 4096 != 0 && !d.ilvAllowed (v % 4096)
  | .DMA_CH_CFG | .DMA_CH_RING => !d.dmaConfigAllowed i
  | .MGMT_RING => !d.mgmtRingAllowed
  | .TIM_INCREMENT => !d.incrementAllowed
  | .MON_CFG | .MON_SRC => !d.monConfigAllowed i
  | _ => false

/-! ### Registers that act -/

/-- A write of LANE.CTRL: DISABLE wins over TRAIN (R75, R76). -/
def Dev.laneCtrl (d : Dev) (n v : Nat) : Dev :=
  if bitOf v 1 then d.laneOff n else if bitOf v 0 then d.laneTrain n else d

/-- A write of LANE.CFG (R63): a lane whose role becomes UNUSED is held DISABLED, but in TEST. -/
def Dev.laneCfg (d : Dev) (n : Nat) : Dev :=
  if d.laneRole n = roleUnused && d.laneState n ≠ stDisabled && d.laneState n ≠ stTest then d.laneOff n else d

/-- A write of LANE.PRBS_CTRL: the enables as R82 allows, then INJECT, SNAP and, after it, CLEAR (R81, R83). -/
def Dev.prbsCtrl (d : Dev) (n v en : Nat) : Dev :=
  let d := (d.put (F.LANE_PRBS_CTRL_GEN_EN n) (bitsOf en 0 0)).put (F.LANE_PRBS_CTRL_CHK_EN n) (bitsOf en 1 1)
  let d := (d.prbsGenEn n (bitOf v (F.LANE_PRBS_CTRL_GEN_EN n).lo)).prbsChkEn n (bitOf v (F.LANE_PRBS_CTRL_CHK_EN n).lo)
  let d := if bitOf v 5 then d.prbsInject n else d
  let d := if bitOf v 6 then d.prbsSnap n else d
  if bitOf v 7 then d.prbsClear n else d

/-- A write of PAT.CTRL: REQ_SIG and KEY_LOCK first, then CANCEL, then LOAD (DESIGN CHOICE 72 for the order). -/
def Dev.patCtrl (d : Dev) (v : Nat) : Dev :=
  let d := if bitOf v 3 then d.reqSigSet else d
  let d := if bitOf v 2 then d.keyLockSet else d
  let d := if bitOf v 1 then d.patternCancel else d
  if bitOf v 0 then d.patternLoad else d

/-- A write of AWL.CTRL: RESET first, HALT wins over RUN, STEP while HALTED (R315). A reset completes the bursts of the
island's Welt master (R368). -/
def Dev.awlCtrl (d : Dev) (n v : Nat) : Dev :=
  let d := if bitOf v 2 then (d.awlReset n).weltReset (8 + awlIsl n) fun _ => true else d
  let d := if bitOf v 1 then d.awlHalt n else if bitOf v 0 then d.awlRun n else d
  if bitOf v 3 then d.awlStep n else d

/-- A write of TIM.CTRL: SNAP, then LOAD (R388, R389). -/
def Dev.timCtrl (d : Dev) (v : Nat) : Dev :=
  let d := if bitOf v 3 then d.timeSnap else d
  (if bitOf v 0 then d.timeLoadRequest else d).timShow

/-- A write of TIM.FO_CFG of output k (R406). -/
def Dev.frameOutCfg (d : Dev) (k v : Nat) : Dev :=
  (if bitOf v 3 then d.frameOutArm k else d).frameOutStop k

/-- A write of MON.CTRL: START and STOP in one write act as STOP (R462). -/
def Dev.monCtrl (d : Dev) (o v : Nat) : Dev := if bitOf v 1 then d.monStop o else if bitOf v 0 then d.monStart o else d

/-- What a write starts once its fields are stored: `v` holds the bits written at their places and `m` masks them; `was` is the
device before the write. -/
def Dev.writeActs (d was : Dev) (id : RegId) (i j v m : Nat) : Dev :=
  match id with
  | .DEV_ISL_RESET => (was.islReset v).1
  | .DEV_CORE_CTRL => (was.coreHold v).1
  | .DEV_QSPI_CTRL => (was.qspiCommand v).1
  | .DEV_L2_CTRL => if bitOf v 0 then was.scratchExit else was
  | .DEV_DRAIN_AT => was.drainPost v
  | .ING_SLOT_COMMIT => was.slotCommitPost v
  | .ING_AG_COMMIT => if bitOf v 0 then d.armMap i else d
  | .LANE_CFG => d.laneCfg i
  | .LANE_CTRL => d.laneCtrl i v
  | .LANE_PRBS_CTRL => d.prbsCtrl i v (was.rdReg (R.LANE_PRBS_CTRL i)).toNat
  | .ISL_VERDICT_POST => was.verdictPost i v
  | .ISL_WEIGHT_COMMIT => was.weightCommitPost i v
  | .EGR_RING_PTR => if bitOf v 31 then d.ringKick i else d
  | .EGR_WIN_CTRL => if bitOf v 0 then d.winRelease i else d
  | .PAT_CTRL => d.patCtrl v
  | .PAT_ACTIVATE_AT => was.activatePost v
  | .PAT_STOP_AT => was.stopPost v
  | .PAT_PUBKEY => if was.is F.PAT_CTRL_KEY_LOCK then was else d
  | .AWL_CTRL => d.awlCtrl i v
  | .AWL_DOORBELL => if bitOf v 0 then d.doorbellRing i else d
  | .CAP_TRIG_SW => was.trigSw v
  | .CAP_RGN_CTRL => if bitOf v 8 then d.regionRelease i else d
  | .PCIE_CFG => let d := d.pcieConfig i (was.is (F.PCIE_CFG_ENABLE i)); if bitOf v 1 then d.pcieRetrain i else d
  | .MEM_CFG => d.presentSettle
  | .MEM_ILV => if m % 4096 = 0 then was else was.ilvMaskWrite (v % 4096)
  | .MEM_CH_CTRL => if bitOf v 0 then d.channelTrain i else d
  | .FUSE_REPAIR_PROG => was.repairProgram v
  | .DMA_CH_CTRL => d.dmaCtrl i v
  | .DMA_CH_RING => d.put (F.DMA_CH_STATUS_INDEX i) 0
  | .TIM_CTRL => d.timCtrl v
  | .TIM_INCREMENT => was.incrementWrite v
  | .TIM_PHASE_STEP => was.phaseStep v
  | .TIM_PTP_REF => { d with tim := { d.tim with wdog := false } }.timShow
  | .TIM_QTX | .TIM_REF_CFG | .TIM_SEL_CFG | .TIM_ARB_CFG | .TIM_LREF => d.timShow
  | .TIM_FO_CFG => d.frameOutCfg i v
  | .PTP_LANE_TX => was.ptpLaneTx v
  | .INTC_ENABLE => if j = 0 then d.put (F.INTC_ENABLE_EN i 0) (d.get (F.INTC_ENABLE_EN i 0) / 2 * 2) else d
  | .INTC_CLAIM => was.intcComplete i (v % 1024)
  | .HTIM_TIME | .HTIM_CMP | .HTIM_SWI => d.timerInts
  | .MGMT_CFG => (d.put F.MGMT_CFG_EN (was.get F.MGMT_CFG_EN)).mgmtEnable (bitOf v 31)
  | .MGMT_PTR => if bitOf v 31 then d.mgmtReread i else d
  | .MGMT_MDIO => if bitOf v 31 then d.mdioGo else d
  | .MON_CTRL => d.monCtrl i v
  | .MON_CS => if j = 5 then d.put ⟨R.MON_CS i 5, 31, 24⟩ 0 else d
  | .HK_CFG | .HK_SEQ_EN => d.hkKick
  | .HK_URGENT => if bitOf v 31 then d.hkUrgentRequest (bitsOf v (F.HK_URGENT_INPUT).hi (F.HK_URGENT_INPUT).lo) else d
  | .EVR_APPEND => was.evrSoftAppend v
  | _ => d

/-! ### One access (R19, R20) -/

/-- The row, the instance and the byte offset of an address. -/
def regRow (a : Nat) : Option (RegDef × List Nat × Nat) :=
  if inMirror a || inBootRom a then none
  else (blockRows (blockOf a)).findSome? fun r => (r.locate a).map fun l => (r, l.1, l.2)

/-- A write of w bits (32, or a whole 64-bit register) at an address that names a register: the device, and whether the write
receives an error response. -/
def Dev.writeAt (d : Dev) (row : RegDef × List Nat × Nat) (w v : Nat) : Dev × Bool :=
  let (r, ix, off) := row
  let reg := r.id.reg ix
  let i := ix.getD 0 0
  let v := v % 2 ^ w * 2 ^ (8 * off)
  let m := (2 ^ w - 1) * 2 ^ (8 * off)
  let idx := if r.id == .MON_CS || r.id == .INTC_ENABLE then ix.getD 1 0 else 0
  if (r.whole && w < r.width) || d.writeRefused r.id i v m then (d, true)
  else if r.id == .INTC_PRIO && i == 0 then (d, false)
  else ((d.storeFields reg r.fields v m).writeActs d r.id i idx v m, d.lockedWrite r.fields m)

/-- A register write (R15, R19, R20): 32 or 64 bits at an address of control space. A 64-bit write over two 32-bit registers
writes each. A write to an island held in reset receives an error response (R32). -/
def Dev.regWrite (d : Dev) (a w v : Nat) : Dev × Bool :=
  if d.blockHeld a || (w ≠ 32 && w ≠ 64) || a % (w / 8) ≠ 0 then (d, true)
  else if w = 32 then
    match regRow a with
    | some row => d.writeAt row 32 v
    | none => (d, false)
  else
    match regRow a with
    | some row =>
      if row.1.width = 64 then d.writeAt row 64 v
      else
        let x := d.writeAt row 32 (v % 2 ^ 32)
        match regRow (a + 4) with
        | some row => let y := x.1.writeAt row 32 (v / 2 ^ 32); (y.1, x.2 || y.2)
        | none => x
    | none =>
      match regRow (a + 4) with
      | some row => d.writeAt row 32 (v / 2 ^ 32)
      | none => (d, false)

/-- A register write made by a command: the response code stands in `answer` (0 OKAY, 1 ERR, 2 DECERR at an address of no
control block, R366). -/
def Dev.busWrite (d : Dev) (a w v : Nat) : Dev :=
  if weltTarget a ≠ 5 then { d with answer := (weltDecerr, 0) }
  else
  let x := d.regWrite a w v
  { x.1 with answer := (b2n x.2, 0) }

/-! ### Reads (R16, R17, R499) -/

/-- Whether a 32-bit word of control space belongs to a POP register: TS_POP (64 bits) or CLAIM (32 bits). -/
def popWord (a : Nat) : Bool := a == R.PTP_TS_POP.addr || a == R.PTP_TS_POP.addr + 4 || (0xF004200000 ≤ a && a < 0xF004210000 && a % 0x1000 == 4)

/-- A read of w bits: the device, the value, and whether the read receives an error response. -/
def Dev.regRead (d : Dev) (a w : Nat) : Dev × Nat × Bool :=
  if d.blockHeld a || (w ≠ 32 && w ≠ 64) || a % (w / 8) ≠ 0 then (d, 0, true)
  else if a = R.PTP_TS_POP.addr && w = 64 then let r := d.tsPop; (r.1, r.2, false)
  else if popWord a && w = 32 && a ≠ R.PTP_TS_POP.addr && a ≠ R.PTP_TS_POP.addr + 4 then
    let r := d.intcClaim ((a - 0xF004200000) / 0x1000); (r.1, r.2, false)
  else if popWord a || (w = 64 && popWord (a + 4)) then (d, 0, true)
  else if w = 32 then (d, d.peek32 a, false)
  else (d, d.peek32 a + 2 ^ 32 * d.peek32 (a + 4), false)

end Sys2Proof.Machine
end

