-- ==== Sys2Proof/Machine/Welt.lean ====
section
/-! DEFINITION. The Welt's arbitration, the control bridge, responses and timeouts (R360 to R369, R415 to R417). -/
namespace Sys2Proof.Machine

/-! ### The control bridge (R17, R360) -/

/-- The 32-bit words of a burst as (address, enabled): none if a word is enabled in part. -/
def bridgeWords (a : Nat) (cells : List (Option Nat)) : Option (List (Nat × Bool)) :=
  (List.range (cells.length / 4)).foldr (fun i (t : Option (List (Nat × Bool))) =>
    let w := (cells.drop (4 * i)).take 4
    if w.all Option.isSome then t.map ((a + 4 * i, true) :: ·)
    else if w.all Option.isNone then t.map ((a + 4 * i, false) :: ·)
    else none) (some [])

/-- The register accesses of a burst in ascending order, as (address, bits): a naturally aligned 64-bit word enabled whole is
one access. -/
def bridgeAccesses : List (Nat × Bool) → List (Nat × Nat)
  | (a, x) :: (b, y) :: t => (if x && y then [(a, 64)] else if x then [(a, 32)] else if y then [(b, 32)] else []) ++ bridgeAccesses t
  | [(a, x)] => if x then [(a, 32)] else []
  | [] => []

/-- The little-endian number of w bits that a burst's bytes spell at an address. -/
def cellsLE (b : Burst) (a w : Nat) : Nat := ofBytes (((b.cells.drop (a - b.addr)).take (w / 8)).map (·.getD 0))

/-- The bytes of a read, with a value put at an address. -/
def putLE (b : Burst) (bs : List Nat) (a w v : Nat) : List Nat :=
  bs.take (a - b.addr) ++ toBytes (w / 8) v ++ bs.drop (a - b.addr + w / 8)

/-- A burst at the control bridge. -/
def Dev.bridgeServe (d : Dev) (b : Burst) : Dev × Nat × List Nat :=
  let zero := List.replicate b.cells.length 0
  match bridgeWords b.addr b.cells with
  | none => (d, weltErr, zero)
  | some ws =>
    let acc := bridgeAccesses ws
    if b.write then
      let r := acc.foldl (fun (r : Dev × Bool) (x : Nat × Nat) =>
        let y := r.1.regWrite x.1 x.2 (cellsLE b x.1 x.2); (y.1, r.2 || y.2)) (d, false)
      (r.1, if r.2 then weltErr else weltOkay, [])
    else if 1 < b.beats && acc.any fun x => popWord x.1 || (x.2 == 64 && popWord (x.1 + 4)) then (d, weltErr, zero)
    else
      let r := acc.foldl (fun (r : Dev × List Nat × Bool) (x : Nat × Nat) =>
        let y := r.1.regRead x.1 x.2; (y.1, putLE b r.2.1 x.1 x.2 y.2.1, r.2.2 || y.2.2)) (d, zero, false)
      (r.1, if r.2.2 then weltErr else weltOkay, r.2.1)

/-! ### Targets (R359, R365, R366) -/

/-- What a target does with a burst that it is granted: the code and the read data, or none for an outbound PCIe request, whose
completion comes later (R328), and for SDRAM in a channel that is TRAINING (R335). -/
def Dev.weltServe (d : Dev) (b : Burst) : Dev × Option (Nat × List Nat) :=
  if b.target = 0 then
    if d.memBusy b.addr b.cells.length then (d, none)
    else if b.write then let r := d.sdramPut 12 b.cls b.addr b.cells; (r.1, some (if r.2 then weltErr else weltOkay, []))
    else let r := d.sdramGet 12 b.cls b.addr b.cells.length; (r.1, some (if r.2.2 then weltErr else weltOkay, r.2.1))
  else if b.target = 1 || b.target = 2 then (d, none)
  else if b.target = 3 || b.target = 4 then let r := d.onchipServe b; (r.1, some r.2)
  else if b.target = 5 then let r := d.bridgeServe b; (r.1, some r.2)
  else (d.decodeMiss b, some (weltDecerr, List.replicate b.cells.length 0))

/-- Where an access at a Welt address goes on PCIe: whether to configuration space, and the bus address or the offset there (R328). -/
def Dev.pcieOutbound (d : Dev) (a : Nat) : Bool × Nat :=
  let p := (a - 0x4000000000) / 0x1000000000
  let o := (a - 0x4000000000) % 0x1000000000
  if o < 0xFF0000000 then (false, (d.get (F.PCIE_OB_XLATE_BUS p) * 4096 + o) % 2 ^ 64) else (true, o - 0xFF0000000)

/-- A range cut into pieces of at most m bytes, each within one block of m, as (address, bytes). -/
def blockCuts (m a : Nat) : Nat → Nat → List (Nat × Nat)
  | 0, _ => []
  | fuel + 1, n =>
    if n = 0 then []
    else
      let k := min n (m - a % m)
      (a, k) :: blockCuts m (a + k) fuel (n - k)

/-- The requests that a burst to a PCIe window leaves as: its enabled bytes, at most 256 of them in a write and 512 in a read (R327, R328).
Where they are cut is the model's choice (DESIGN CHOICE 111). -/
def Dev.pcieReqs (d : Dev) (b : Burst) : List PcieReq :=
  let m := if b.write then 256 else 512
  ((cellRuns b.addr b.cells).map fun r => (blockCuts m r.1 (r.2.length + 1) r.2.length).map fun c =>
    let x := d.pcieOutbound c.1
    { config := x.1, addr := x.2, len := c.2 }).flatten

/-! ### Requests (R360, R361, R415) -/

/-- Whether the physical-memory attributes let a hart make an access (R415): kind 0 load, 1 fetch, 2 AMO, 3 store. -/
def hartMay (kind a : Nat) (cells : List (Option Nat)) : Bool :=
  let t := weltTarget a
  let n := (cells.filter Option.isSome).length
  let lo := a + cells.findIdx Option.isSome
  let span := match cellRuns a cells with | [_] => true | _ => false
  if t = 0 then true
  else if t = 6 then false
  else if kind = 2 then false
  else if kind = 1 then t = 5 && inBootRom lo
  else span && (n = 4 || n = 8 || (t ≠ 5 && (n = 1 || n = 2))) && lo % n = 0

/-- WELT_REQUEST (R360, R361): a master issues a burst. A hart's access that R415 does not allow raises its access fault and
reaches no target; in scratch mode the L2 answers an access below 2 MiB itself (R427), with an error for an uncorrectable byte (R351). -/
def Dev.weltRequest (d : Dev) (m tag : Nat) (write : Bool) (kind addr : Nat) (cells : List (Option Nat)) : Dev :=
  let b := burstOf m tag write kind addr cells
  if m = 0 && !hartMay kind b.addr b.cells then d.hartFault (b.tag % 8) kind (b.addr + b.cells.findIdx Option.isSome)
  else if m = 0 && d.inScratch b.addr then
    let lo := b.addr + b.cells.findIdx Option.isSome
    let n := (b.cells.filter Option.isSome).length
    if write then
      { d.onchipMend 0 lo n with l2 := (cellRuns b.addr b.cells).foldl (fun (t : Tab Nat) (r : Nat × List Nat) => r.2.zipIdx.foldl (fun (t : Tab Nat) (x : Nat × Nat) => Tab.set 0 t (r.1 + x.2) (x.1 % 256)) t) d.l2 }.weltAnswer b
        weltOkay []
    else if d.onchipBad 0 lo n then ((((d.onchipUe 0 lo).hartFault (b.tag % 8) kind lo).note 0 (b.tag % 8) [b.tag % 8, lo])).weltAnswer b weltErr []
    else d.weltAnswer b weltOkay ((List.range b.cells.length).map fun i => Tab.get 0 d.l2 (b.addr + i))
  else d.weltIssue b

/-! ### Grants (R361, R362, R364) -/

/-- Whether a waiting burst may be granted, given those before it in issue order: no burst of its master and tag waits before
it or is outstanding at another target, and a read has room in its master's 4 KiB response buffer. -/
def mayGrant (before all : List Burst) (b : Burst) : Bool :=
  let same := before.filter fun x => x.master == b.master && x.tag == b.tag && !x.orphan && !x.dead
  let read := sumN ((all.filter fun x => x.master == b.master && !x.write && x.granted && !x.dead).map fun x => x.cells.length)
  same.all (fun x => x.granted && x.target == b.target) && (b.write || read + b.cells.length ≤ 4096)

/-- The bursts that target t may grant, as (rank, place): rank orders class, then master, then issue order. -/
def Dev.grantable (d : Dev) (t : Nat) : List (Nat × Nat) :=
  d.welt.bursts.zipIdx.filterMap fun e =>
    if !e.1.granted && e.1.target == t && mayGrant (d.welt.bursts.take e.2) d.welt.bursts e.1 then some (e.1.cls * 16 + e.1.master, e.2) else none

/-- WELT_GRANT (R362, R364): the free target port t grants the waiting burst of highest class and lowest master, and the target
takes it. -/
def Dev.weltGrant (d : Dev) (t : Nat) : Dev :=
  match (sortBy (·.1) (d.grantable t)).head? with
  | none => d
  | some (_, i) =>
    match d.welt.bursts[i]? with
    | none => d
    | some b =>
      let out := if b.target = 1 || b.target = 2 then d.pcieReqs b else []
      let d := d.setWelt { d.welt with bursts := d.welt.bursts.zipIdx.map fun e => if e.2 = i then { e.1 with granted := true, out := out } else e.1 }
      let r := d.weltServe b
      let here := fun (x : Burst) => x.master == b.master && x.tag == b.tag && x.addr == b.addr && x.target == t && x.granted && x.answer.isNone
      let j := (r.1.welt.bursts.findIdx? here).getD r.1.welt.bursts.length
      r.1.setWelt { r.1.welt with bursts := r.1.welt.bursts.zipIdx.map fun e => if e.2 = j then { e.1 with answer := r.2 } else e.1 }

/-! ### Responses (R365, R367, R368, R417) -/

/-- What the master of a burst does with its response: a hart's fetch, load or AMO that fails is an access fault with an event
record (R417); a PCIe inbound read completes, with Completer Abort on an error (R349). -/
def Dev.weltTaken (d : Dev) (b : Burst) (code : Nat) (data : List Nat) : Dev :=
  if b.master = 0 && code ≠ weltOkay && b.kind ≤ 2 then
    let h := b.tag % 8
    let a := b.addr + b.cells.findIdx Option.isSome
    (d.hartFault h b.kind a).note 0 h [h, a]
  else if (b.master = 3 || b.master = 4) && !b.write then
    if code = weltOkay then d.pcieComplete b.kind 0 ((b.cells.zip data).filterMap fun e => e.1.map fun _ => e.2)
    else d.pcieComplete b.kind 4 []
  else d

/-- A burst without its place in the list. -/
def Dev.weltDrop (d : Dev) (i : Nat) : Dev := d.setWelt { d.welt with bursts := d.welt.bursts.eraseIdx i }

/-- A response reaches the matrix: counted, and delivered unless its master was reset or has timed out (R365, R367, R368). -/
def Dev.weltDeliver (d : Dev) (i : Nat) (b : Burst) (code : Nat) (data : List Nat) : Dev :=
  let d := d.weltDrop i
  if b.dead then d.weltShow b.master
  else
    let d := if code = weltErr then d.weltFail b code else d
    let d := if b.orphan then d else (d.weltAnswer b code data).weltTaken b code data
    d.weltShow b.master

/-- WELT_RESPONSE (R361, R365): the oldest granted burst of a master and tag receives its target's response. For an outbound
PCIe request the completion is the operand: whether it succeeded, and its data. SDRAM whose channel was TRAINING at the grant is accessed
once it no longer is (R335). -/
def Dev.weltResponse (d : Dev) (m tag : Nat) (ok : Bool) (data : List Nat) : Dev :=
  match d.welt.bursts.findIdx? fun b => b.master == m && b.tag == tag && b.granted with
  | none => d
  | some i =>
    match d.welt.bursts[i]? with
    | none => d
    | some b =>
      match b.answer with
      | some (code, bs) => d.weltDeliver i b code bs
      | none =>
        if b.target = 0 then
          let r := d.weltServe b
          match r.2 with
          | some (code, bs) => r.1.weltDeliver i b code bs
          | none => d
        else d.weltDeliver i b (if ok then weltOkay else weltErr) (padTo b.cells.length 0 data)

/-- WELT_TIMEOUT (R367): the oldest granted burst of a master and tag without a response reaches the timeout; its master
receives TIMEOUT and the later response is discarded. -/
def Dev.weltTimeout (d : Dev) (m tag : Nat) : Dev :=
  if d.get F.WELT_TIMEOUT_CYCLES = 0 then d
  else match d.welt.bursts.findIdx? fun b => b.master == m && b.tag == tag && b.granted && !b.dead with
    | none => d
    | some i =>
      match d.welt.bursts[i]? with
      | none => d
      | some b =>
        let d := d.setWelt { d.welt with bursts := d.welt.bursts.zipIdx.map fun e => if e.2 = i then { e.1 with dead := true } else e.1 }
        let d := d.weltFail b weltTimedOut
        let d := if b.orphan then d else (d.weltAnswer b weltTimedOut []).weltTaken b weltTimedOut []
        d.weltShow m

/-! ### Accesses that the engines make within one command -/

/-- A burst of an engine, granted and answered at once; an error or a decode miss is counted by the Welt. `ok` says how the
completion of an outbound PCIe request ended. -/
def Dev.weltAccess (d : Dev) (m cls : Nat) (write ok : Bool) (addr : Nat) (cells : List (Option Nat)) : Dev × Nat × List Nat :=
  let b := { burstOf m 0 write 0 addr cells with cls := cls, granted := true }
  let r := d.weltServe b
  let x := (r.2).getD (if ok then weltOkay else weltErr, List.replicate b.cells.length 0)
  (if x.1 = weltErr then r.1.weltFail b weltErr else r.1, x)

/-- A range cut at the boundaries of a burst: pieces that lie within one 1 KiB block, as (address, bytes). -/
def burstCuts (a fuel n : Nat) : List (Nat × Nat) := blockCuts 1024 a fuel n

/-- An engine's access reaches SDRAM of a channel that is TRAINING, so the engine waits (R335). -/
def Dev.engineBusy (d : Dev) (a n : Nat) : Bool := weltTarget a == 0 && d.memBusy a n

/-- A read of n bytes by an engine in bursts: whether each answered OKAY, and the bytes up to the burst that did not, which a PCIe window
takes from the completions `ext`. -/
def Dev.engineRead (d : Dev) (m cls a n : Nat) (ext : Bool × List Nat) : Dev × Bool × List Nat :=
  let out := weltTarget a = 1 || weltTarget a = 2
  let r := (burstCuts a (n / 1024 + 2) n).foldl (fun (r : Dev × Bool × List Nat) (c : Nat × Nat) =>
    if !r.2.1 then r
    else
      let x := r.1.weltAccess m cls false ext.1 c.1 (List.replicate (c.1 % 64) none ++ List.replicate c.2 (some 0))
      if x.2.1 = weltOkay then (x.1, true, r.2.2 ++ ((x.2.2.drop (c.1 % 64)).take c.2)) else (x.1, false, r.2.2)) (d, true, [])
  (r.1, r.2.1, if !out then r.2.2 else if r.2.1 then padTo n 0 ext.2 else ext.2.take n)

/-- A write of bytes by an engine in bursts: whether each answered OKAY. After one that did not, no more are made. -/
def Dev.engineWrite (d : Dev) (m cls a : Nat) (bs : List Nat) (ok : Bool) : Dev × Bool :=
  (burstCuts a (bs.length / 1024 + 2) bs.length).foldl (fun (r : Dev × Bool) (c : Nat × Nat) =>
    if !r.2 then r
    else
      let x := r.1.weltAccess m cls true ok c.1 (List.replicate (c.1 % 64) none ++ ((bs.drop (c.1 - a)).take c.2).map some)
      (x.1, x.2.1 == weltOkay)) (d, true)

end Sys2Proof.Machine
end

