-- ==== Sys2Proof/Machine/Dma.lean ====
section
/-! DEFINITION. The DMA engine's channels (R370 to R379), the Awl transfer engine's end of transfer (R313, R314), and what the
pattern port reads (R274). Each access of a channel is a burst of Welt master 1. -/
namespace Sys2Proof.Machine

/-- The class of a channel's requests: Slate or Fawn (R370). -/
def Dev.dmaClass (d : Dev) (c : Nat) : Nat := if d.is (F.DMA_CH_CFG_CLASS c) then 2 else 3

def Dev.updDma (d : Dev) (c : Nat) (f : DmaCh → DmaCh) : Dev := d.setDma c (f (d.dmaCh c))

/-- The descriptor in progress ends with a code: its status write is issued (R376, R377). -/
def Dev.dmaFinish (d : Dev) (c code addr : Nat) : Dev :=
  d.updDma c fun x => { x with wait := .status, code := code, errElem := if code = 0 then 0 else d.get (F.DMA_CH_ELEM_INDEX c), errAddr := addr }

/-- An overlap was met (R373, R374). -/
def Dev.dmaOverlap (d : Dev) (c : Nat) : Dev := (d.updDma c fun x => { x with seen := true }).flag (F.DMA_CH_STATUS_OVERLAP_SEEN c)

/-- The pieces of an element, cut at 1 KiB-aligned destination boundaries, as (offset, bytes): descending where the destination
overlaps the source from above (R372, R373). -/
def dmaPieces (src dst len : Nat) : List (Nat × Nat) :=
  let l := (burstCuts dst (len / 1024 + 2) len).map fun p => (p.1 - dst, p.2)
  if src < dst && overlaps src len dst len then l.reverse else l

/-- The next piece's source read, the next element or the descriptor's end is due (R372, R376). -/
def Dev.dmaNext (d : Dev) (c : Nat) : Dev :=
  let x := d.dmaCh c
  if x.abort then (d.dmaFinish c 7 (d.dmaDesc c))
  else if !x.pieces.isEmpty then d.setDma c { x with wait := .src }
  else
    let e := d.get (F.DMA_CH_ELEM_INDEX c)
    let d := d.setDma c { x with past := x.past ++ [x.cur] }
    if e + 1 < x.elems then (d.put (F.DMA_CH_ELEM_INDEX c) (e + 1)).updDma c fun x => { x with wait := .elem } else d.dmaFinish c 0 0

/-- A descriptor has arrived: the channel waits for OWN, or starts its first element (R371). -/
def Dev.dmaDescArrive (d : Dev) (c : Nat) (ok : Bool × List Nat) : Dev :=
  let r := d.engineRead 1 (d.dmaClass c) (d.dmaDesc c) 32 ok
  let d := r.1
  let bs := r.2.2
  if !r.2.1 then d.dmaHalt c 8 (d.dmaDesc c)
  else if !bitOf (bs.getD 12 0) 0 then d.setDma c DmaCh.init
  else
    let elems := ofBytes ((bs.drop 8).take 2)
    let x := { DmaCh.init with wait := .elem, list := ofBytes (bs.take 5) / 16 * 16, elems := elems, irq := bitOf (bs.getD 10 0) 0, stop := bitOf (bs.getD 10 0) 1 }
    let d := ((((d.setDma c x).setDmaState c dmaActive).put (F.DMA_CH_ELEM_INDEX c) 0).put (F.DMA_CH_BYTES_BYTES c) 0).put (F.DMA_CH_REMAIN_BYTES c) 0
    if elems = 0 then d.dmaFinish c 0 0 else d

/-- An element has arrived (R372 to R374). -/
def Dev.dmaElemArrive (d : Dev) (c : Nat) (ok : Bool × List Nat) : Dev :=
  let x := d.dmaCh c
  let a := x.list + 16 * d.get (F.DMA_CH_ELEM_INDEX c)
  let r := d.engineRead 1 (d.dmaClass c) a 16 ok
  let d := r.1
  if !r.2.1 then d.dmaFinish c 4 a
  else
    let src := ofBytes (r.2.2.take 5)
    let dst := ofBytes ((r.2.2.drop 5).take 5)
    let len := ofBytes ((r.2.2.drop 10).take 3)
    if len = 0 then d.dmaFinish c 6 a
    else
      let met := overlaps src len dst len || x.past.any fun p =>
        overlaps p.2.1 p.2.2 src len || overlaps p.2.1 p.2.2 dst len || overlaps p.1 p.2.2 dst len
      let d := d.setDma c { x with wait := .src, cur := (src, dst, len), pieces := dmaPieces src dst len }
      (if met then d.dmaOverlap c else d).put (F.DMA_CH_REMAIN_BYTES c) len

/-- A piece's source data has arrived in the channel's buffer, and its write is issued (R372, R377). -/
def Dev.dmaSrcArrive (d : Dev) (c : Nat) (ok : Bool × List Nat) : Dev :=
  let x := d.dmaCh c
  match x.pieces with
  | [] => d.dmaNext c
  | (off, n) :: _ =>
    let r := d.engineRead 1 (d.dmaClass c) (x.cur.1 + off) n ok
    let d := r.1
    if !r.2.1 then d.dmaFinish c 1 (x.cur.1 + off)
    else if d.storeBad 6 then (d.storeUe 6).dmaFinish c 5 (x.cur.2.1 + off)
    else (d.setDma c { x with wait := .data, buf := r.2.2 }).put (F.DMA_CH_REMAIN_BYTES c) (d.get (F.DMA_CH_REMAIN_BYTES c) - n)

/-- DMA_READ_DONE (R371, R372): what channel c reads has arrived. The operands are what PCIe answered, where the address lies in a
PCIe window. -/
def Dev.dmaReadDone (d : Dev) (c : Nat) (ok : Bool) (ext : List Nat) : Dev :=
  let x := d.dmaCh c
  let at_ : Nat × Nat := match x.wait with
    | .desc => (d.dmaDesc c, 32)
    | .elem => (x.list + 16 * d.get (F.DMA_CH_ELEM_INDEX c), 16)
    | .src => match x.pieces with | (off, n) :: _ => (x.cur.1 + off, n) | [] => (0, 0)
    | _ => (0, 0)
  if d.engineBusy at_.1 at_.2 then d
  else match x.wait with
  | .desc => d.dmaDescArrive c (ok, ext)
  | .elem => d.dmaElemArrive c (ok, ext)
  | .src => d.dmaSrcArrive c (ok, ext)
  | _ => d

/-- The write of a piece has its response (R372, R377, R378). -/
def Dev.dmaDataDone (d : Dev) (c : Nat) (ok : Bool) : Dev :=
  let x := d.dmaCh c
  match x.pieces with
  | [] => d.dmaNext c
  | (off, n) :: rest =>
    let r := d.engineWrite 1 (d.dmaClass c) (x.cur.2.1 + off) x.buf ok
    let d := r.1
    if !r.2 then d.dmaFinish c (if d.get (F.DMA_CH_REMAIN_BYTES c) = 0 then 3 else 2) (x.cur.2.1 + off)
    else ((d.setDma c { x with pieces := rest, buf := [] }).bump (F.DMA_CH_BYTES_BYTES c) n).dmaNext c

/-- Bytes 16 to 31 of a completed descriptor (R371). -/
def Dev.dmaStatus (d : Dev) (c : Nat) : List Nat :=
  let x := d.dmaCh c
  [x.code % 16 + 16 * b2n x.seen, 0] ++ toBytes 2 x.errElem ++ [0, 0, 0, 0] ++ toBytes 8 (d.get (F.DMA_CH_BYTES_BYTES c))

/-- A completion write of a descriptor fails: OWN stays 1, INDEX stays, and the channel halts (R377). A descriptor that ended OK
leaves a code that the spec does not name. -/
def Dev.dmaLost (d : Dev) (c : Nat) : Dev :=
  let x := d.dmaCh c
  if x.code = 0 then d.fresh.dmaHalt c (Config.dmaCode d.free % 16) (d.dmaDesc c) else d.dmaHalt c x.code x.errAddr

/-- The OWN write of a descriptor has received OKAY: DONE, INDEX, and the next descriptor or a halt (R376, R377). -/
def Dev.dmaOwnDone (d : Dev) (c : Nat) : Dev :=
  let x := d.dmaCh c
  let d := if x.irq then d.put F.DMA_DONE_DONE (d.get F.DMA_DONE_DONE ||| 2 ^ c) else d
  let d := d.put (F.DMA_CH_STATUS_INDEX c) ((d.dmaIndex c + 1) % 2 ^ d.get (F.DMA_CH_CFG_LOG_N c))
  if x.code ≠ 0 || x.stop then d.dmaHalt c x.code x.errAddr
  else (d.setDma c { DmaCh.init with wait := .desc }).setDmaState c dmaWaiting

/-- DMA_WRITE_RESPONSE (R376 to R378): the write that channel c has issued receives its response. The operand is what PCIe
answered, where the address lies in a PCIe window. -/
def Dev.dmaWriteResponse (d : Dev) (c : Nat) (ok : Bool) : Dev :=
  let cls := d.dmaClass c
  let x := d.dmaCh c
  let at_ : Nat × Nat := match x.wait with
    | .data => match x.pieces with | (off, n) :: _ => (x.cur.2.1 + off, n) | [] => (0, 0)
    | .status | .own => (d.dmaDesc c, 32)
    | _ => (0, 0)
  if d.engineBusy at_.1 at_.2 then d
  else match x.wait with
  | .data => d.dmaDataDone c ok
  | .status =>
    let r := d.engineWrite 1 cls (d.dmaDesc c + 16) (d.dmaStatus c) ok
    if r.2 then r.1.updDma c fun x => { x with wait := .own } else r.1.dmaLost c
  | .own =>
    let r := d.engineWrite 1 cls (d.dmaDesc c + 12) [0, 0, 0, 0] ok
    if r.2 then r.1.dmaOwnDone c else r.1.dmaLost c
  | _ => d

/-! ### The Awl transfer engine (R313, R314) -/

/-- The local range of a transfer exceeds data memory, or a plane has another length (R313). -/
def AwlXfer.bad (x : AwlXfer) : Bool :=
  let off := x.loc / 32 * 64
  262144 < off + x.len || (x.plane && x.len != 8256 && x.len != 2112)

/-- A transfer's bytes as sent: with PLANE set, the CRC in bytes 60 to 63 (R314). -/
def AwlXfer.sent (x : AwlXfer) (bs : List Nat) : List Nat :=
  if x.plane then bs.take 60 ++ toBytes 4 (crc32c (bs.take 60 ++ bs.drop 64)) ++ bs.drop 64 else bs

/-- The beats of a transfer at SDRAM through the island's memory port (R313, R341): after one that meets an error no other is accessed.
`bs` are the bytes sent, for DIR 0. -/
def Dev.xferBeats (d : Dev) (n : Nat) (x : AwlXfer) (bs : List Nat) : List Nat → Dev × Bool
  | [] => (d, false)
  | i :: rest =>
    let port := 1 + awlIsl n
    let a := x.far / 64 * 64 + 64 * i
    let r := if x.dir then
        let m := d.sdramGet port 1 a 64
        (if m.2.2 then m.1 else m.1.awlDataWrite n (x.loc / 32 * 64 + 64 * i) m.2.1, m.2.2)
      else d.sdramPut port 1 a (((bs.drop (64 * i)).take 64).map some)
    if r.2 then r else r.1.xferBeats n x bs rest

/-- A transfer of core n between data memory and SDRAM through the island's memory port, or elsewhere through the Welt (R313,
R341, R358): the device, and whether it met an error. -/
def Dev.xferMove (d : Dev) (n : Nat) (x : AwlXfer) (ext : Bool × List Nat) : Dev × Bool :=
  let k := awlIsl n
  let off := x.loc / 32 * 64
  let far := x.far / 64 * 64
  let sdram := weltTarget far = 0
  let l := if x.dir then (d, [], false) else d.awlDataRead n off x.len
  let bs := x.sent l.2.1
  if l.2.2 then (l.1, true)
  else if sdram then l.1.xferBeats n x bs (List.range (x.len / 64))
  else if x.dir then
    let r := d.engineRead (8 + k) 1 far x.len ext
    (r.1.awlDataWrite n off r.2.2, !r.2.1)
  else let r := l.1.engineWrite (8 + k) 1 far bs ext.1; (r.1, !r.2)

/-- XFER_END (R313, R314): core n's oldest transfer ends. The operands are what PCIe answered, where the far address lies in a PCIe
window. -/
def Dev.xferEnd (d : Dev) (n : Nat) (ok : Bool) (ext : List Nat) : Dev :=
  match (d.awl1 n).xq with
  | [] => d
  | x :: rest =>
    let go := d.updAwl n fun a => { a with xq := rest }
    if x.bad then go.updAwl n fun a => { a with xerr := true }
    else if d.engineBusy (x.far / 64 * 64) x.len then d
    else
      let r := go.xferMove n x (ok, ext)
      if r.2 then (r.1.updAwl n fun a => { a with xerr := true }).note 0x28 n [n, x.far / 64 * 64]
      else (r.1.updAwl n fun a => { a with xdone := (a.xdone + 1) % 65536 }).awlPend n 2

/-! ### The pattern port (R274) -/

/-- PATTERN_LOAD_DONE (R274 to R276): the port reads the image over the Welt as master 2, twice, and checks it. The operands are what a
PCIe window answers: whether every read succeeded, and the bytes of pass 1 and then of pass 2, up to the read that did not. -/
def Dev.patternLoadEnd (d : Dev) (ok : Bool) (ext : List Nat) : Dev :=
  let a := d.pat.load.1
  if d.patState ≠ patLoading || d.engineBusy a d.pat.load.2 then d
  else
    let h := d.engineRead 2 3 a 64 (ok || 64 ≤ ext.length, ext)
    let n := le h.2.2 8 4
    if !h.2.1 then h.1.loadRefused 15 h.2.2.length
    else if !lengthOk n d.pat.load.2 then h.1.loadRefused 1 8
    else
      let b := h.1.engineRead 2 3 a n (ok || n ≤ ext.length, ext.take n)
      if !b.2.1 then b.1.loadRefused 15 b.2.2.length
      else match b.1.passOne b.2.2 with
        | some (c, o) => b.1.loadRefused c o
        | none =>
          let s := b.1.engineRead 2 3 a n (ok, ext.drop n)
          if s.2.1 then s.1.loadSecond a (imageCrc b.2.2) s.2.2
          else ((s.1.loadRuns (((s.1.runsBefore s.2.2).take (Config.runsWritten s.1.free)).map (·.2))).fresh).loadRefused 15 s.2.2.length

end Sys2Proof.Machine
end

