-- ==== Sys2Proof/Machine/Smu.lean ====
section
/-! DEFINITION. The sealed measurement unit (R434 to R452): its tap, its sums, its signed records and their store, its SPI
port, its firmware check and its seal. Every definition here works on the SMU's own state, and on a frame of the tap. -/
namespace Sys2Proof.Machine

/-! ### Fused values and small views -/

/-- The device key (R441). -/
def smuKey : List Nat := tabulate 32 fun i => Config.smuKeyByte i % 256

/-- The fused firmware hash (R444). -/
def smuFwHash : List Nat := tabulate 32 fun i => Config.smuFwHashByte i % 256

/-- STATUS.STATE (R444). -/
def smuWait : Nat := 0
def smuRun : Nat := 1
def smuFwBad : Nat := 2

/-- STATUS.SEAL (R445): 0 OPEN, 1 SEALED, 2 BROKEN, as the fuses say: the break fuse of the current generation. -/
def SmuSt.seal (u : SmuSt) : Nat := if u.sealGen = 0 then 0 else if bitOf u.broken (u.sealGen - 1) then 2 else 1

/-- The hash as bytes (R446). -/
def SmuSt.hashBytes (u : SmuSt) : List Nat := toBytesBE 32 u.hash

/-- CFG_HASH[31:0]. -/
def SmuSt.hashLow (u : SmuSt) : Nat := ofBytes (u.hashBytes.take 4)

/-- The registers of the configuration region in address order (R446). -/
def SmuRegion.bytes (r : SmuRegion) : List Nat :=
  toBytes 8 r.cfg ++ toBytes 8 r.timeCfg ++ ((padTo 4 0 r.occ).map (toBytes 8)).flatten
    ++ (tabulate 256 fun w => toBytes 4 (Tab.get 0 r.sel w)).flatten
    ++ (tabulate 2048 fun w => toBytes 4 (Tab.get 0xFFFFFFFF r.thr w)).flatten

/-- The configuration region takes a value, and its hash is computed again (R446). -/
def SmuSt.setRegion (u : SmuSt) (r : SmuRegion) : SmuSt := { u with region := r, hash := ofBytesBE (sha256 r.bytes) }

/-- SMU.CFG's fields. -/
def SmuRegion.en (r : SmuRegion) : Bool := bitOf r.cfg 63
def SmuRegion.div (r : SmuRegion) : Nat := bitsOf r.cfg 55 48 + 1
def SmuRegion.refStream (r : SmuRegion) : Nat := bitsOf r.cfg 28 16
def SmuRegion.offset (r : SmuRegion) : Nat := bitsOf r.cfg 11 0

/-- Whether SMU.SEL selects a stream. -/
def SmuRegion.selected (r : SmuRegion) (s : Nat) : Bool := bitOf (Tab.get 0 r.sel (s / 32)) (s % 32)

/-- SMU.THR[c], the threshold of channel c. -/
def SmuRegion.threshold (r : SmuRegion) (c : Nat) : Nat :=
  let w := Tab.get 0xFFFFFFFF r.thr (c / 2)
  if c % 2 = 1 then bitsOf w 31 16 else bitsOf w 15 0

/-- Measurement runs (R444). -/
def SmuSt.measuring (u : SmuSt) : Bool := u.up && u.state == smuRun && u.region.en

/-- Sets a bit of EVENTS. -/
def SmuSt.event (u : SmuSt) (bit : Nat) : SmuSt := { u with events := u.events ||| 2 ^ bit }

def evFwBad : Nat := 0
def evTapDrop : Nat := 1
def evTimeBad : Nat := 2
def evLate : Nat := 3
def evStoreWrap : Nat := 4
def evSealChange : Nat := 5
def evEvrLost : Nat := 6
def evCmdRefused : Nat := 7

/-- Adds to SMU.CNT of kind i. -/
def SmuSt.bump (u : SmuSt) (i n : Nat) : SmuSt := { u with cnt := setAt u.cnt i ((u.cnt.getD i 0 + n) % 2 ^ 32) }

/-! ### Event-recorder appends (R447, R481) -/

/-- The 64 bytes of an SMU event record (R481). -/
def SmuSt.eventBody (u : SmuSt) (bit arg : Nat) : List Nat :=
  let b := toBytes 8 u.tick ++ toBytes 4 u.boot ++ [bit, u.seal + 16 * u.sealGen, 0, 0] ++ toBytes 8 arg ++ toBytes 8 0
  b ++ hmacSha256 smuKey b

/-- Appends an event record; beyond 64 waiting it is lost (R447). -/
def SmuSt.append (u : SmuSt) (bit arg : Nat) : SmuSt :=
  if u.appends.length < 64 then { u with appends := u.appends ++ [(u.refSc, ⟨4, 0x15, 0, .bytes (u.eventBody bit arg), false⟩)] }
  else (u.bump 5 1).event evEvrLost

/-! ### Records and their store (R441 to R443) -/

/-- Bytes of the result store, and its SPI address (DESIGN CHOICE 81 for the address). -/
def smuStoreBytes : Nat := 0x80000
def smuStoreBase : Nat := 0x80000

/-- Writes 32-bit words into the store. -/
def SmuSt.storeWords (u : SmuSt) (off : Nat) : List Nat → SmuSt
  | [] => u
  | w :: t => ({ u with store := Tab.set 0 u.store off w, out := u.out ++ [(smuStoreBase + off, w)] }).storeWords (off + 4) t

/-- The 32-bit words that bytes spell. -/
def wordsOf : Nat → List Nat → List Nat
  | 0, _ => []
  | n + 1, b => ofBytes (b.take 4) :: wordsOf n (b.drop 4)

/-- The oldest records that a range of the store overlaps are given up: REC_TAIL advances, and STORE_WRAP is set. -/
def SmuSt.makeRoom (u : SmuSt) (off len : Nat) : SmuSt :=
  let keep := u.recs.filter fun e => !(e.2.1 < off + len && off < e.2.1 + e.2.2)
  if keep.length = u.recs.length then u else { u with recs := keep }.event evStoreWrap

/-- Writes bytes at REC_HEAD.OFF, which moves behind them and wraps. -/
def SmuSt.store1 (u : SmuSt) (bs : List Nat) : SmuSt :=
  let off := u.off
  let u := (u.makeRoom off bs.length).storeWords off (wordsOf (bs.length / 4) bs)
  { u with off := (off + bs.length) % smuStoreBytes }

/-- A result record of a type with a body (R441, R443): header, body and tag, behind a PAD record where it would run past
the end of the store. -/
def SmuSt.record (u : SmuSt) (type : Nat) (body : List Nat) : SmuSt :=
  let len := 64 + body.length
  let rest := smuStoreBytes - u.off
  let u := if rest < len then u.store1 ([0, 0] ++ toBytes 2 rest ++ tabulate (rest - 4) fun i => Config.smuPad u.boot u.seq (4 + i) % 256) else u
  let msg := toBytes 2 type ++ toBytes 2 len ++ toBytes 4 u.seq ++ toBytes 4 u.boot ++ toBytes 8 u.tick
    ++ [u.seal + 16 * u.sealGen, b2n Config.vx4m, 0, 0] ++ smuFwHash.take 4 ++ u.hashBytes.take 4 ++ body
  let off := u.off
  let u := u.store1 (msg ++ hmacSha256 smuKey msg)
  { u with recs := u.recs ++ [(u.seq, off, len)], seq := (u.seq + 1) % 2 ^ 32 }.bump 4 1

/-! ### Streams and SMU frames (R437 to R439, R442) -/

def SmuSt.stream (u : SmuSt) (s : Nat) : SmuStream := Tab.get SmuStream.init u.streams s
def SmuSt.setStream (u : SmuSt) (s : Nat) (x : SmuStream) : SmuSt := { u with streams := Tab.set SmuStream.init u.streams s x }

/-- Changes the sums of frame m of stream s. -/
def SmuSt.updSum (u : SmuSt) (s m : Nat) (f : SmuSum → SmuSum) : SmuSt :=
  let x := u.stream s
  u.setStream s { x with sums := Tab.upd SmuSum.zero x.sums m f }

/-- The selected streams, ascending. -/
def SmuSt.selection (u : SmuSt) : List Nat := (List.range 8192).filter u.region.selected

/-- The 16-byte head and the counts of an OCCUPANCY record (R442). -/
def SmuSt.occRecord (u : SmuSt) (s m k : Nat) : SmuSt :=
  let e := u.region.occ.getD k 0
  if !bitOf e 63 || bitsOf e 44 32 ≠ s then u
  else
    let t := (Tab.get SmuSum.zero (u.stream s).sums m).occ
    let c0 := bitsOf e 11 0
    let n := bitsOf e 27 16 + 1
    let counts := (tabulate n fun c => toBytes 2 (Tab.get 0 t (4096 * k + c0 + c))).flatten
    u.record 2 (toBytes 6 m ++ [k, 0] ++ toBytes 2 c0 ++ toBytes 2 (n - 1) ++ [0, 0, 0, 0]
      ++ padTo (ceilDiv counts.length 16 * 16) 0 counts)

/-- Frame m of stream s closes (R437): its OCCUPANCY records are made, and at the last of its POWER_DIV frames its entry
waits for the POWER records. -/
def SmuSt.closeFrame (u : SmuSt) (s m : Nat) : SmuSt :=
  let u := (List.range 4).foldl (fun (u : SmuSt) k => u.occRecord s m k) u
  let x := u.stream s
  let u := u.setStream s { x with next := some (m + 1) }
  let div := u.region.div
  let first := m + 1 - div
  if (m + 1) % div = 0 && !u.waiting.any (fun w => w.1 == first) then
    { u with waiting := sortBy (fun w => w.1) (u.waiting ++ [(first, div, u.tick)]) }
  else u

/-- Every frame of stream s below m closes. -/
def SmuSt.closeTo (u : SmuSt) (s m : Nat) : SmuSt :=
  match (u.stream s).next with
  | none => u
  | some a => (List.range (m - a)).foldl (fun (u : SmuSt) i => u.closeFrame s (a + i)) u

/-- The entry of stream s for `div` frames from `first` on (R442): NO_DATA for a stream that is still open or delivered
nothing. The sums of one that delivered nothing are zero; COUNT and POWER of one still open are free values (log 82). -/
def SmuSt.entry (u : SmuSt) (first div s : Nat) : List Nat :=
  let x := u.stream s
  let fs := (List.range div).map fun i => Tab.get SmuSum.zero x.sums (first + i)
  let closed := match x.next with | some n => decide (first + div ≤ n) | none => false
  let data := closed && fs.any fun f => f.got
  let drop := min (sumN (fs.map fun f => f.dropped)) 65535
  let sum (i v : Nat) : Nat := if data || !fs.any (fun f => f.got) then v else Config.smuOpenSum u.boot first s i
  toBytes 2 (s + 8192 * b2n (!data) + 16384 * b2n (fs.any fun f => f.bad) + 32768 * b2n (drop != 0))
    ++ toBytes 4 (sum 0 (sumN (fs.map fun f => f.count))) ++ toBytes 6 (sum 1 (sumN (fs.map fun f => f.power)))
    ++ toBytes 2 drop ++ [0, 0]

/-- Lists of at most n items. -/
def chunks {α : Type} (n : Nat) : Nat → List α → List (List α)
  | 0, _ => []
  | f + 1, l => if l.isEmpty then [] else l.take n :: chunks n f (l.drop n)

/-- The POWER records of the frames from `first` on are made (R442): entries in ascending STREAM order, 64 to a record. A
stream still open closes those frames. -/
def SmuSt.makePower (u : SmuSt) (first div : Nat) : SmuSt :=
  let sel := u.selection
  let es := sel.map (u.entry first div)
  let u := (chunks 64 128 es).foldl (fun (u : SmuSt) c =>
    u.record 1 (toBytes 6 first ++ [div % 256, c.length] ++ toBytes 8 0 ++ c.flatten)) u
  let u := { u with waiting := u.waiting.filter (fun w => first < w.1), made := max u.made (first + div) }
  let u := sel.foldl (fun (u : SmuSt) s => match (u.stream s).next with
    | some _ => u.closeTo s (first + div)
    | none => u) u
  let u := { u with waiting := u.waiting.filter fun w => first < w.1 }
  sel.foldl (fun (u : SmuSt) s =>
    let x := u.stream s
    u.setStream s { x with sums := x.sums.filter fun e => first + div ≤ e.1 }) u

/-- Whether every selected stream has closed the frames below m. -/
def SmuSt.allClosed (u : SmuSt) (m : Nat) : Bool :=
  u.selection.all fun s => match (u.stream s).next with | some n => decide (m ≤ n) | none => false

/-- The POWER records that every selected stream has closed are made, lowest frame first. -/
def SmuSt.settle (u : SmuSt) : SmuSt :=
  (u.waiting.filter fun w => u.allClosed (w.1 + w.2.1)).foldl (fun (u : SmuSt) w => u.makePower w.1 w.2.1) u

/-! ### The tap (R435, R436) -/

/-- Whether SMU frame m of a stream has closed. -/
def SmuSt.isClosed (u : SmuSt) (s m : Nat) : Bool :=
  match (u.stream s).next with | some n => decide (m < n) | none => decide (m < u.made)

/-- One valid sample of channel c of stream s in frame m is summed (R438, R439). -/
def SmuSt.sum1 (u : SmuSt) (s m c : Nat) (p : Int × Int) : SmuSt :=
  let q := (p.1 * p.1 + p.2 * p.2).toNat
  u.updSum s m fun f =>
    let occ := (List.range 4).foldl (fun (t : Tab Nat) k =>
      let e := u.region.occ.getD k 0
      let c0 := bitsOf e 11 0
      if bitOf e 63 && bitsOf e 44 32 == s && decide (c0 ≤ c ∧ c ≤ c0 + bitsOf e 27 16 ∧ u.region.threshold c ≤ q)
      then Tab.upd 0 t (4096 * k + c) (· + 1) else t) f.occ
    { f with count := f.count + 1, power := f.power + q, occ := occ }

/-- One time index of a frame of a selected stream (R435, R437, R438): a sample of frame m + 2 closes m; samples of a closed frame
are late; the others are summed. Those of units whose VALID bit is clear are left out of all of this. -/
def SmuSt.tapTime (u : SmuSt) (f : TapFrame) (payload : List Nat) (t : Nat) : SmuSt :=
  let h := f.hdr
  let s := pf h 5 0 13
  let fmt := pf h 5 13 2
  let b := fmt + 1
  let nch := pf h 17 0 12 + 1
  let sc := (pf h 7 0 64 + t) % 2 ^ 64
  if sc < u.region.offset then u
  else
    let m := (sc - u.region.offset) / 4096
    let samples := (List.range nch).filterMap fun ci =>
      let off := (t * nch + ci) * b
      if !f.bad && bitOf (pf h 19 0 32) (off / 32) then some (pf h 15 0 12 + ci, ofBytes ((payload.drop off).take b)) else none
    let u := if samples.isEmpty then u else match (u.stream s).next with
      | some _ => u.closeTo s (m - 1)
      | none => if m < u.made then u else u.setStream s { u.stream s with next := some m }
    if samples.isEmpty && !f.bad then u
    else if u.isClosed s m then (if samples.isEmpty then u else (u.bump 3 samples.length).event evLate)
    else if (u.stream s).next.isNone then u
    else
      let u := u.updSum s m fun x => { x with got := true, bad := x.bad || f.bad }
      samples.foldl (fun (u : SmuSt) (e : Nat × Nat) => u.sum1 s m e.1 (sampleParts fmt e.2)) u

/-- The number of time indices of a sample frame (R102). -/
def TapFrame.times (f : TapFrame) : Nat := 32 * (pf f.hdr 4 0 5 + 1) / ((pf f.hdr 5 13 2 + 1) * (pf f.hdr 17 0 12 + 1))

/-- The SMU frames that a sample frame overlaps. -/
def SmuSt.overlapped (u : SmuSt) (f : TapFrame) : List Nat :=
  (List.range f.times).foldl (fun (l : List Nat) t =>
    let sc := (pf f.hdr 7 0 64 + t) % 2 ^ 64
    let m := (sc - u.region.offset) / 4096
    if sc < u.region.offset || l.contains m then l else l ++ [m]) []

/-- SMU_TAP_FRAME (R435 to R439): a frame reaches the tap; `full`: it finds the buffer full and is discarded whole. -/
def SmuSt.tapFrame (u : SmuSt) (f : TapFrame) (full : Bool) : SmuSt :=
  let s := pf f.hdr 5 0 13
  if !u.measuring then u
  else if full then
    let u := (u.bump 1 1).event evTapDrop
    if !u.region.selected s then u
    else (u.overlapped f).foldl (fun (u : SmuSt) m => if u.isClosed s m then u else u.updSum s m fun x => { x with dropped := x.dropped + 1 }) u
  else
    let u := u.bump 0 1
    let u := if f.bad then u.bump 2 1 else u
    let payload := (f.data.map payloadBytes).flatten
    let u := if u.region.selected s then ((List.range f.times).foldl (fun (u : SmuSt) t => u.tapTime f payload t) u).settle else u
    if !f.bad && s == u.region.refStream then { u with refSc := max u.refSc ((pf f.hdr 7 0 64 + f.times - 1) % 2 ^ 64) } else u

/-- SMU_FRAME_CLOSE_TIMEOUT (R437): CLOSE_MS have passed without a sample of stream s, and its open frames close, up to the
last that holds anything (DESIGN CHOICE 83). -/
def SmuSt.closeTimeout (u : SmuSt) (s : Nat) : SmuSt :=
  if !u.measuring || !u.region.selected s then u
  else (u.closeTo s (maxN ((u.stream s).sums.map fun e => e.1 + 1))).settle

/-- SMU_POWER_RECORD_DUE (R442): CLOSE_MS have passed since the first stream closed the oldest frame that waits. -/
def SmuSt.powerDue (u : SmuSt) : SmuSt :=
  if !u.measuring then u
  else match u.waiting with
    | [] => u
    | w :: _ => (u.makePower w.1 w.2.1).settle

/-! ### Time (R440) -/

/-- A TIME record is made, and its checks set TIME_BAD and append an event record. -/
def SmuSt.timeRecord (u : SmuSt) (cycles : Nat) (missing : Bool) : SmuSt :=
  let tc := u.region.timeCfg
  let dc := (cycles : Int) - 500000000
  let ds := 16 * ((u.refSc : Int) - (u.prevRef : Int)) - (bitsOf tc 63 32 : Int)
  let bad := missing || decide ((bitsOf tc 15 0 : Int) < dc.natAbs) || decide ((16 * bitsOf tc 31 16 : Int) < ds.natAbs)
  let u := { u with timeBad := bad, prevRef := u.refSc }
  let u := if bad then (u.event evTimeBad).append evTimeBad cycles else u
  u.record 3 (toBytes 4 cycles ++ [b2n bad + 2 * b2n missing, 0, 0, 0] ++ toBytes 8 u.refSc)

/-- SMU_PPS_EDGE (R440): a rising edge of SMU_PPS_IN. The first edge after power-up counts its cycles from power-up. -/
def SmuSt.ppsEdge (u : SmuSt) : SmuSt :=
  if !u.up then u
  else
    let cycles := u.tick - u.lastEdge
    let u := { u with lastEdge := u.tick, missed := false }.bump 6 1
    if u.measuring then u.timeRecord cycles false else u

/-- SMU_PPS_MISSING (R440): 1.5 s have passed since the previous edge; once for each edge. -/
def SmuSt.ppsMissing (u : SmuSt) : SmuSt :=
  if !u.measuring || u.missed then u
  else { u with missed := true }.timeRecord (u.tick - u.lastEdge) true

/-- A cycle of the SMU clock. -/
def SmuSt.clock (u : SmuSt) : SmuSt := if u.up then { u with tick := (u.tick + 1) % 2 ^ 64 } else u

/-! ### Firmware and seal (R444, R445) -/

/-- SMU.CMD FW_START with a length in units of 64 bytes (R444): taken while the SMU waits for firmware, else refused. -/
def SmuSt.fwStart (u : SmuSt) (len : Nat) : SmuSt :=
  if !u.up then u
  else if (u.state = smuWait || u.state = smuFwBad) && u.fwCheck.isNone && 1 ≤ len && len ≤ 2048 then { u with fwCheck := some len }
  else u.event evCmdRefused

/-- The image in the firmware window: n bytes. -/
def SmuSt.fwBytes (u : SmuSt) (n : Nat) : List Nat := (tabulate (n / 4) fun w => toBytes 4 (Tab.get 0 u.fw (4 * w))).flatten

/-- FW_CHECK_DONE (R444): the hash of the image is known. -/
def SmuSt.fwCheckDone (u : SmuSt) : SmuSt :=
  match u.up, u.fwCheck with
  | true, some len =>
    let u := { u with fwCheck := none }
    if sha256 (u.fwBytes (64 * len)) = smuFwHash then { u with state := smuRun }
    else ({ u with state := smuFwBad }.event evFwBad).append evFwBad 0
  | _, _ => u

/-- A transition of the seal (R445) sets SEAL_CHANGE and appends an event record naming generation and cause. -/
def SmuSt.sealChange (u : SmuSt) (cause : Nat) : SmuSt := (u.event evSealChange).append evSealChange cause

/-- SMU.CMD SEAL (R445). -/
def SmuSt.sealCmd (u : SmuSt) (check : Nat) : SmuSt :=
  if !u.up then u
  else if u.seal ≠ 1 && check = u.hashLow && u.state = smuRun && Config.vx4m && u.sealGen < 8 then
    { u with sealGen := u.sealGen + 1, kept := (u.region, u.hash) }.sealChange 0
  else u.event evCmdRefused

/-- SMU.CMD BREAK (R445). -/
def SmuSt.breakCmd (u : SmuSt) (check : Nat) : SmuSt :=
  if !u.up then u
  else if u.seal = 1 && check = 2 ^ 32 - 1 - u.hashLow then { u with broken := u.broken ||| 2 ^ (u.sealGen - 1) }.sealChange 1
  else u.event evCmdRefused

/-- SMU_POWER_ON (R445 to R447): VDD_SMU rises. BOOT increases, the fuses and the configuration store stand, everything else
starts anew; while SEALED the configuration is loaded, or, where the store fails its hash (`good` false), the seal breaks. -/
def SmuSt.powerOn (u : SmuSt) (good : Bool) : SmuSt :=
  if u.up then u
  else
    let v : SmuSt := { SmuSt.blank with
      up := true, sealGen := u.sealGen, broken := u.broken, kept := u.kept, boot := (u.boot + 1) % 2 ^ 32 }
    if v.seal ≠ 1 then v
    else if good then { v with region := v.kept.1, hash := v.kept.2 }
    else { v with broken := v.broken ||| 2 ^ (v.sealGen - 1) }.sealChange 2

/-- SMU_POWER_LOSS (R447, R512): the SMU stops; its fuses and its configuration store keep what they hold. -/
def SmuSt.powerLoss (u : SmuSt) : SmuSt :=
  { SmuSt.blank with sealGen := u.sealGen, broken := u.broken, kept := u.kept, boot := u.boot }

/-! ### SPI port (R450) -/

/-- A half (0 low, 1 high) of a 64-bit value. -/
def half (v i : Nat) : Nat := if i % 2 = 0 then v % 2 ^ 32 else v / 2 ^ 32 % 2 ^ 32

/-- The 32-bit word at a register address, as a read shows it (R452). -/
def SmuSt.regWord (u : SmuSt) (a : Nat) : Nat :=
  let tail := u.recs.head?.map fun e => e.1 * 2 ^ 32 + e.2.1
  let h := a / 4
  if a = 0x000 then u.sealGen * 2 ^ 28 + u.seal * 2 ^ 26 + b2n Config.vx4m * 2 ^ 25 + 8 * b2n u.timeBad + u.state
  else if a = 0x004 then u.events
  else if a < 0x010 then 0
  else if a < 0x018 then half u.region.cfg h
  else if a < 0x020 then half u.region.timeCfg h
  else if a < 0x028 then half (u.seq * 2 ^ 32 + u.off) h
  else if a < 0x030 then half (tail.getD (u.seq * 2 ^ 32 + u.off)) h
  else if a < 0x038 then half (ofBytes ((sha256 smuKey).take 8)) h
  else if a = 0x038 then u.boot
  else if a = 0x03C then ofBytes (smuFwHash.take 4)
  else if a < 0x060 then ofBytes ((u.hashBytes.drop (a - 0x040)).take 4)
  else if 0x080 ≤ a && a < 0x09C then u.cnt.getD ((a - 0x080) / 4) 0
  else if 0x100 ≤ a && a < 0x120 then half (u.region.occ.getD ((a - 0x100) / 8) 0) h
  else 0

/-- The 32-bit word at an SPI address: registers, selection, thresholds, firmware window and store; elsewhere zero. -/
def SmuSt.word (u : SmuSt) (a : Nat) : Nat :=
  if a < 0x1000 then u.regWord a
  else if a < 0x1400 then Tab.get 0 u.region.sel ((a - 0x1000) / 4)
  else if 0x2000 ≤ a && a < 0x4000 then Tab.get 0xFFFFFFFF u.region.thr ((a - 0x2000) / 4)
  else if 0x40000 ≤ a && a < 0x60000 then Tab.get 0 u.fw (a - 0x40000)
  else if smuStoreBase ≤ a && a < smuStoreBase + smuStoreBytes then Tab.get 0 u.store (a - smuStoreBase)
  else 0

/-- SMU_SPI_READ (R450): n bytes from an address upward go out on SMU_SDO. -/
def SmuSt.spiRead (u : SmuSt) (a n : Nat) : SmuSt :=
  if !u.up then { u with sdo := [] }
  else { u with sdo := tabulate n fun i => let b := (a + i) % 2 ^ 24; (toBytes 4 (u.word (b / 4 * 4))).getD (b % 4) 0 }

/-- Whether an address lies in the configuration region (R446). -/
def inSmuRegion (a : Nat) : Bool :=
  (0x010 ≤ a && a < 0x020) || (0x100 ≤ a && a < 0x120) || (0x1000 ≤ a && a < 0x1400) || (0x2000 ≤ a && a < 0x4000)

/-- SMU.CMD takes a command (R444, R445): an OP that names none is refused. -/
def SmuSt.cmd (u : SmuSt) (v : Nat) : SmuSt :=
  let op := bitsOf v 63 56
  if op = 1 then u.fwStart (bitsOf v 43 32)
  else if op = 2 then u.sealCmd (bitsOf v 31 0)
  else if op = 3 then u.breakCmd (bitsOf v 31 0)
  else u.event evCmdRefused

/-- A 64-bit register takes effect (R450): the bits that software may write. -/
def SmuSt.write64 (u : SmuSt) (a v : Nat) : SmuSt :=
  let r := u.region
  if a = 0x008 then u.cmd v
  else if a = 0x010 then u.setRegion { r with cfg := v &&& 0x80FFFFFF1FFF0FFF }
  else if a = 0x018 then u.setRegion { r with timeCfg := v }
  else if 0x100 ≤ a && a < 0x120 then u.setRegion { r with occ := setAt (padTo 4 0 r.occ) ((a - 0x100) / 8) (v &&& 0x80001FFF0FFF0FFF) }
  else u

/-- One 32-bit word written at an address that is a multiple of 4 (R445, R450). -/
def SmuSt.spiWord (u : SmuSt) (a w : Nat) : SmuSt :=
  let r := u.region
  if inSmuRegion a && u.seal = 1 then u.event evCmdRefused
  else if a = 0x004 then { u with events := u.events - (u.events &&& w % 256) }
  else if (0x008 ≤ a && a < 0x020) || (0x100 ≤ a && a < 0x120) then
    if a % 8 = 0 then { u with low := (a, w) :: u.low.filter fun e => e.1 != a }
    else
      let b := a - 4
      let lo := match u.low.find? fun e => e.1 == b with | some e => e.2 | none => u.regWord b
      { u with low := u.low.filter fun e => e.1 != b }.write64 b (w * 2 ^ 32 + lo)
  else if 0x1000 ≤ a && a < 0x1400 then u.setRegion { r with sel := Tab.set 0 r.sel ((a - 0x1000) / 4) w }
  else if 0x2000 ≤ a && a < 0x4000 then u.setRegion { r with thr := Tab.set 0xFFFFFFFF r.thr ((a - 0x2000) / 4) w }
  else if 0x40000 ≤ a && a < 0x60000 then { u with fw := Tab.set 0 u.fw (a - 0x40000) w }
  else u

/-- SMU_SPI_WRITE (R450): each word of the data takes effect in turn; a partial word is discarded, and an address that is no
multiple of 4 writes nothing. -/
def SmuSt.spiWrite (u : SmuSt) (a : Nat) (bytes : List Nat) : SmuSt :=
  if !u.up || a % 4 ≠ 0 then u
  else ((wordsOf (bytes.length / 4) bytes).zipIdx).foldl (fun (u : SmuSt) (e : Nat × Nat) => u.spiWord ((a + 4 * e.2) % 2 ^ 24) e.1) u

/-! ### The crossing to the mirror (R447, R449) -/

/-- All of the SMU's address space that the mirror shows, by 32-bit words: the firmware window reads zero. -/
def SmuSt.image (u : SmuSt) : Tab Nat :=
  let regs := (List.range 72).map fun i => (4 * i, u.regWord (4 * i))
  let sel := (List.range 256).map fun i => (0x1000 + 4 * i, Tab.get 0 u.region.sel i)
  let thr := (List.range 2048).map fun i => (0x2000 + 4 * i, Tab.get 0xFFFFFFFF u.region.thr i)
  let store := u.store.map fun (e : Nat × Nat) => (smuStoreBase + e.1, e.2)
  (regs ++ sel ++ thr ++ store).filter fun e => e.2 != 0

/-- The words that differ after a command, and those of the store that it wrote: what it sends to the mirror (R449). -/
def SmuSt.changes (u v : SmuSt) : List (Nat × Nat) :=
  let regs := ((List.range 72).map fun i => (4 * i, v.regWord (4 * i))).filter fun e => u.regWord e.1 != e.2
  let sel := ((List.range 256).map fun i => (0x1000 + 4 * i, v.word (0x1000 + 4 * i))).filter fun e => u.word e.1 != e.2
  let thr := ((List.range 2048).map fun i => (0x2000 + 4 * i, v.word (0x2000 + 4 * i))).filter fun e => u.word e.1 != e.2
  v.out ++ sel ++ thr ++ regs

/-- What one SMU command sends: all after a power-up or a power loss, else the words written. The stamp is REF_SC, the one sample counter
that the SMU keeps (DEDUCED 113). -/
def smuItems (u v : SmuSt) : List SmuItem :=
  if !v.up then [] else if !u.up then [.refresh v.refSc]
  else match u.changes v with | [] => [] | l => [.words v.refSc l]

end Sys2Proof.Machine
end

