-- ==== Sys2Proof/Machine/Power.lean ====
section
/-! DEFINITION. Power-on reset, PORST_N, the thermal trip and the TAP (R509 to R524), and the mirror's side of the SMU crossing
(R447, R449). -/
namespace Sys2Proof.Machine

/-! ### PORST_N (R509 to R511) -/

/-- POWER_ON_RESET (R21, R476, R509): PORST_N rises. Every register reads its reset value, both memories of every Awl core
are zero (R288), and the recorder writes POWER_ON. The repairs in the fuse map are applied
(R354). The fuse map, the recorder's store and counts and TRST_N stand, and the mirror holds
its contents until it is refreshed (R447). -/
def Dev.powerOnReset (d : Dev) : Dev :=
  if d.up then d
  else
    { Dev.cold with
      up := true, fuses := d.fuses, sd := { SdSt.init with repairs := validRepairs d.fuses }, ticks := d.ticks, free := d.free, mirror := d.mirror
      evr := d.evr.powerOn (R.DEV_ID.reset) (Config.partCode % 4)
      jtag := { TapSt.init with trst := d.jtag.trst } }

/-- PORST_FALL (R355, R477, R510, R516, R524): PORST_N falls when `n` bytes of the record in progress have been programmed. The
device stops, a field repair in progress leaves its entry BAD, and THERM_TRIP_N is released. -/
def Dev.porstFall (d : Dev) (n : Nat) : Dev :=
  { d.repairBroken with
    up := false, evr := d.evr.cut n, thermTrip := false, bootFail := false, tap := [], jtag := { TapSt.init with trst := d.jtag.trst } }

/-- THERM_TRIP (R516): a die sensor has been above 115 C for 1 ms. -/
def Dev.thermalTrip (d : Dev) : Dev := { d with thermTrip := true }

/-! ### TAP (R524) -/

/-- The bits of the boundary register: one for each LVCMOS pin on VDD_IO, in the order of R522 (DESIGN CHOICE 90). -/
def boundaryBits : Nat := 51

/-- IDCODE (R524). -/
def idcode : Nat := 0x1560409B

/-- The TAP takes an instruction, unless it is held in its reset state. -/
def Dev.tapDo (d : Dev) (f : TapSt → TapSt) : Dev := if d.jtag.trst then d else { d with jtag := f d.jtag }

/-- BYPASS. -/
def Dev.tapBypass (d : Dev) : Dev := d.tapDo fun t => { t with ir := .bypass, drive := none }

/-- IDCODE: the identification code stands as the answer. -/
def Dev.tapIdcode (d : Dev) : Dev :=
  let d' := d.tapDo fun t => { t with ir := .idcode, drive := none }
  if d.jtag.trst then d' else { d' with answer := (0, idcode) }

/-- SAMPLE: the boundary register captures the pins. -/
def Dev.tapSample (d : Dev) (pins : Nat) : Dev :=
  d.tapDo fun t => { t with ir := .sample, drive := none, boundary := pins % 2 ^ boundaryBits }

/-- PRELOAD: the boundary register is loaded. -/
def Dev.tapPreload (d : Dev) (v : Nat) : Dev :=
  d.tapDo fun t => { t with ir := .preload, drive := none, boundary := v % 2 ^ boundaryBits }

/-- EXTEST: the boundary register is driven onto the pins. -/
def Dev.tapExtest (d : Dev) : Dev := d.tapDo fun t => { t with ir := .extest, drive := some t.boundary }

/-- TAP_RESET: TRST_N goes low and holds the TAP in its reset state, or goes high and lets it go. -/
def Dev.tapReset (d : Dev) (low : Bool) : Dev := { d with jtag := { TapSt.init with trst := low } }

/-! ### The SMU's mirror (R447, R449) -/

/-- One word reaches the mirror; NOTE records a new record, a change of the seal, or a new EVENTS bit. -/
def Dev.mirrorWord (d : Dev) (a v : Nat) : Dev :=
  let old := Tab.get 0 d.mirror a
  let d := { d with mirror := Tab.set 0 d.mirror a v }
  let d := if smuStoreBase ≤ a && v ≠ old && v ≠ 0 then d.flag F.SMU_NOTE_RECORD else d
  let d := if a = 0x000 && v / 2 ^ 26 ≠ old / 2 ^ 26 then d.flag F.SMU_NOTE_SEAL else d
  if a = 0x004 && v ≠ v &&& old then d.flag F.SMU_NOTE_ALERT else d

/-- SMU_MIRROR_UPDATE (R447, R449): the oldest item of the crossing arrives. A refresh shows all that the SMU holds; while the SoC
island is in reset the mirror holds its contents. -/
def Dev.mirrorUpdate (d : Dev) (u : SmuSt) (i : SmuItem) : Dev :=
  match i with
  | .words _ l => d.forL l fun d (e : Nat × Nat) => d.mirrorWord e.1 e.2
  | .refresh _ =>
    if !u.up then d
    else
      let img := u.image
      let gone := (d.mirror.filter fun (e : Nat × Nat) => Tab.get 0 img e.1 == 0).map fun (e : Nat × Nat) => (e.1, 0)
      d.forL (gone ++ img) fun d (e : Nat × Nat) => d.mirrorWord e.1 e.2

end Sys2Proof.Machine
end

