-- ==== Sys2Proof/Machine/Relay.lean ====
section
/-! DEFINITION. The Ingest to Egress crossing (R28, R29): the control blocks received on EGRESS and C2C lanes, which act at egress
(R111, R114 to R116), the PRODUCT and BEAM frames that egress relays (R253), and the dump markers (R247), in the order in which
ingest sent them. -/
namespace Sys2Proof.Machine

/-! ### Control blocks -/

/-- A control block acts at egress: ACK, NAK, PAUSE, TRIGGER or HANDOVER. -/
def Dev.ctlAct (d : Dev) (n : Nat) (p : Payload) : Dev :=
  match pf p 0 0 8 with
  | 5 => d.ackAct n p
  | 6 => d.nakAct n p
  | 7 => d.pauseAct n p
  | 8 => d.triggerAct p
  | _ => d.handoverAct n p

/-- Control blocks at the head of the crossing act; `fuel` bounds them. -/
def Dev.ctlFlush (d : Dev) : Nat → Dev
  | 0 => d
  | fuel + 1 =>
    match d.relay with
    | .ctl n _ p :: t => (({ d with relay := t }).ctlAct n p).ctlFlush fuel
    | _ => d

/-- Takes the item at the head of the crossing off it, so that what follows may act. -/
def Dev.crossed (d : Dev) : Dev := d.ctlFlush d.relay.length

/-- The control block of the given type at the head of lane n's elastic buffer enters the crossing, stamped with the lane's block count
(R29). It acts once what entered before it has left. -/
def Dev.ctlReceive (d : Dev) (n typ : Nat) : Dev :=
  match d.takeCtrl n typ with
  | none => d
  | some (p, d) =>
    let d := d.afterCtrl n
    (d.toEgress (.ctl n (d.lane n).rx.count p)).crossed

/-- ACK_RECEIVE (R111). -/
def Dev.ackReceive (d : Dev) (n : Nat) : Dev := d.ctlReceive n 5

/-- NAK_RECEIVE (R111). -/
def Dev.nakReceive (d : Dev) (n : Nat) : Dev := d.ctlReceive n 6

/-- PAUSE_RECEIVE (R114). -/
def Dev.pauseReceive (d : Dev) (n : Nat) : Dev := d.ctlReceive n 7

/-- TRIGGER_RECEIVE (R115). -/
def Dev.triggerReceive (d : Dev) (n : Nat) : Dev := d.ctlReceive n 8

/-- HANDOVER_RECEIVE (R116, R490). -/
def Dev.handoverReceive (d : Dev) (n : Nat) : Dev := d.ctlReceive n 9

/-! ### Dump markers -/

/-- DUMP_MARKER_ARRIVE (R247): the dump marker at the head of the crossing takes the next number. -/
def Dev.dumpMarkerArrive (d : Dev) : Dev :=
  match d.relay with
  | .dump f :: t => (({ d with relay := t }).dumpNumber f).crossed
  | _ => d

/-! ### Relayed frames (R253) -/

/-- The relayed unit that a frame becomes on queue q: its payload and FSTART bytes 0 to 27 as received but for SEQ, which the sending
lane gives and a descriptor shows as zero (R253, R254). It is sent under the configuration of the frame that ingest had reached
(R257). -/
def Dev.relayUnit (_ : Dev) (q : Nat) (r : RelayFrame) : EgrUnit :=
  let bs := (r.data.map payloadBytes).flatten
  let h := toBytes 28 r.hdr.toNat
  { EgrUnit.blank with
    kind := 5, src := 9, queue := q, cfg := r.cfg, room := bs.length
    parts := [{ off := 0, hdr := h.take 2 ++ [0, 0] ++ h.drop 4, bytes := bs }] }

/-- A frame that does not fit is a gap to its receiver: it waits for that frame again and what followed it on the lane is
discarded as out of order (R110, R253). -/
def Dev.relayGap (d : Dev) (r : RelayFrame) : Dev :=
  let s := pf r.hdr 2 0 16
  let d := { d with relay := d.relay.filter fun i => match i with | .frame x => x.lane != r.lane | _ => true }
  (d.updRx r.lane fun x => { x with expSeq := s, nakWait := true, nakReason := 1 }).updTx r.lane
    fun t => { t with nak := some (s, 1) }

/-- A received frame reaches egress (R253). One that egress takes, be it to discard it, is acknowledged in a group with replay. -/
def Dev.relayAct (d : Dev) (r : RelayFrame) : Dev :=
  let g := d.cfg r.cfg (F.LANE_CFG_GROUP r.lane)
  let taken := fun (d : Dev) => if d.replays r.lane then d.replayTaken r.lane (pf r.hdr 2 0 16) else d
  if d.cfg r.cfg (F.EGR_GROUP_CFG_RX_EN g) ≠ 1 then taken (d.bump (F.EGR_RELAY_DROP_COUNT g) 1)
  else
    let u := d.relayUnit (d.cfg r.cfg (F.EGR_GROUP_CFG_RX_QUEUE g)) r
    let dest := d.qcfg u (F.EGR_QUEUE_DEST u.queue)
    if dest ≠ 1 && dest ≠ 2 then taken (d.dropUnit u)
    else if d.unitFits u then taken (d.enqueue u)
    else if d.replays r.lane then d.relayGap r
    else d.bump (F.EGR_RELAY_DROP_COUNT g) 1

/-- RELAY_FRAME_ARRIVE (R253): the frame at the head of the Ingest to Egress crossing reaches egress. -/
def Dev.relayFrameArrive (d : Dev) : Dev :=
  match d.relay with
  | .frame r :: t => (({ d with relay := t }).relayAct r).crossed
  | _ => d

end Sys2Proof.Machine
end

