-- ==== Sys2Proof/Machine/Run.lean ====
section
/-! DEFINITION. How a command acts on the machine: only while PORST_N is high and the island it concerns is out of reset, and
with the interrupt gateways following at once. -/
namespace Sys2Proof.Machine

/-- The outcome of a command. -/
abbrev Res := Host.Outcome State Fault Refusal

/-- A command of a unit that exists has its effect; one that names no unit stops the machine. -/
def unitOk (ok : Bool) (s : State) : Res := if ok then .next s else .fault .noSuchUnit

/-- The device after a command, its interrupt sources settled (R420, R422); nothing acts while PORST_N is low (R510). -/
def Dev.run (d : Dev) (f : Dev → Dev) : Dev := if d.up then (f d).irqSettle else d

/-- A command of the memory, SoC or timing island. -/
def State.run (s : State) (f : Dev → Dev) : State := { s with dev := s.dev.run f }

/-- A command of the ingest island: without effect while the island is held in reset (R32, R33). -/
def State.runIng (s : State) (f : Dev → Dev) : State := if s.dev.ingHeld then s else s.run f

/-- A command of the egress island. -/
def State.runEgr (s : State) (f : Dev → Dev) : State := if s.dev.egrHeld then s else s.run f

/-- A command of compute island k. -/
def State.runIsl (s : State) (k : Nat) (f : Dev → Dev) : State := if s.dev.islHeld k then s else s.run f

/-- A command of the SMU (R30): its own state changes, and the crossing to the mirror takes what it sends. -/
def State.runSmu (s : State) (f : SmuSt → SmuSt) : State :=
  let u : SmuSt := { s.smu with out := [] }
  let v := f u
  { s with smu := v, link := s.link ++ smuItems u v }

/-! ### Commands that are register accesses -/

/-- The response code of a write that may be refused: 0 OKAY, 1 ERR (R15). -/
def Dev.answered (x : Dev × Bool) : Dev := { x.1 with answer := (b2n x.2, 0) }

/-- DMA_CH_CONFIG_WRITE (R379): a write to DMA.CH_CFG, or with `ring` to DMA.CH_RING, of channel c. -/
def Dev.dmaConfigWrite (d : Dev) (c : Nat) (ring : Bool) (v : Nat) : Dev :=
  if ring then d.busWrite (R.DMA_CH_RING c).addr 64 v else d.busWrite (R.DMA_CH_CFG c).addr 32 v

/-- MGMT_RING_WRITE (R432). -/
def Dev.mgmtRingWrite (d : Dev) (r v : Nat) : Dev := d.busWrite (R.MGMT_RING r).addr 64 v

/-- MON_CONFIG_WRITE (R463): a write to MON.CFG, or with `src` to MON.SRC, of output o. -/
def Dev.monConfigWrite (d : Dev) (o : Nat) (src : Bool) (v : Nat) : Dev :=
  d.busWrite (if src then (R.MON_SRC o).addr else (R.MON_CFG o).addr) 32 v

/-- TS_POP (R411): the value read stands in the answer. -/
def Dev.popStamp (d : Dev) : Dev := let r := d.tsPop; { r.1 with answer := (0, r.2) }

/-- INTC_CLAIM (R421): the source claimed stands in the answer. -/
def Dev.claimSource (d : Dev) (c : Nat) : Dev := let r := d.intcClaim c; { r.1 with answer := (0, r.2) }

/-- AWL_RESET (R290, R368): setting AWL.CTRL.RESET resets the core and completes the bursts of its Welt master. -/
def Dev.awlFullReset (d : Dev) (n : Nat) : Dev := (d.awlReset n).weltReset (8 + awlIsl n) fun _ => true

/-- A Welt master (R359): 6 and 7 do not exist. -/
def weltMasterOk (m : Nat) : Bool := weltMaster m

/-! ### Time (DESIGN CHOICE 4) -/

/-- One cycle of the 500 MHz timing island: device time, the hart timer, and each second the operating time (R386, R423,
R476). -/
def Dev.tickAll (d : Dev) : Dev :=
  if !d.up then d
  else
    let d := d.timeTick.htimTick
    if d.ticks % 500000000 = 0 then { d with evr := d.evr.second } else d

/-- An idle step: one cycle passes in the timing island and in the SMU (R24, R434). -/
def State.tick (s : State) : State := { s with dev := s.dev.tickAll, smu := s.smu.clock }

end Sys2Proof.Machine
end

