-- ==== Sys2Proof/Machine/CmdAwl.lean ====
section
/-! DEFINITION. The meanings of the commands: Awl. Each one is the effect of its name in the machine, in the island it belongs to. -/
namespace Sys2Proof.Machine

/-- LDW (R295): Move slot LDW loads the low 24 bits of a 32-bit word into X and post-modifies the pointer. -/
def execAwlLdw (n : Nat) (slot : Nat) (s : State) : Res :=
  unitOk (n < 16 && slot < 2) (s.runIsl (awlIsl n) fun d => d.awlSlot n slot 1)

/-- LDH (R295): Move slot LDH loads a zero-extended halfword. -/
def execAwlLdh (n : Nat) (slot : Nat) (s : State) : Res :=
  unitOk (n < 16 && slot < 2) (s.runIsl (awlIsl n) fun d => d.awlSlot n slot 2)

/-- LDHS (R295): Move slot LDHS loads a sign-extended halfword. -/
def execAwlLdhs (n : Nat) (slot : Nat) (s : State) : Res :=
  unitOk (n < 16 && slot < 2) (s.runIsl (awlIsl n) fun d => d.awlSlot n slot 3)

/-- STW (R295): Move slot STW stores X sign-extended to 32 bits. -/
def execAwlStw (n : Nat) (slot : Nat) (s : State) : Res :=
  unitOk (n < 16 && slot < 2) (s.runIsl (awlIsl n) fun d => d.awlSlot n slot 4)

/-- STH (R295): Move slot STH stores X[15:0] as a halfword. -/
def execAwlSth (n : Nat) (slot : Nat) (s : State) : Res :=
  unitOk (n < 16 && slot < 2) (s.runIsl (awlIsl n) fun d => d.awlSlot n slot 5)

/-- AWL_NOP (R297): Compute NOP does nothing. -/
def execAwlNop (n : Nat) (s : State) : Res := unitOk (n < 16) (s.runIsl (awlIsl n) fun d => d.awlCompute n 0x00 opNop)

/-- MAC (R298): MAC adds a 24-bit product into an accumulator with saturation. -/
def execAwlMac (n : Nat) (s : State) : Res := unitOk (n < 16) (s.runIsl (awlIsl n) fun d => d.awlCompute n 0x01 opMac)

/-- MSU (R298): MSU subtracts a 24-bit product from an accumulator with saturation. -/
def execAwlMsu (n : Nat) (s : State) : Res := unitOk (n < 16) (s.runIsl (awlIsl n) fun d => d.awlCompute n 0x02 opMsu)

/-- MPY (R298): MPY writes a 24-bit product into an accumulator. -/
def execAwlMpy (n : Nat) (s : State) : Res := unitOk (n < 16) (s.runIsl (awlIsl n) fun d => d.awlCompute n 0x03 opMpy)

/-- MOVA (R297): MOVA loads a sign-extended X into an accumulator. -/
def execAwlMova (n : Nat) (s : State) : Res := unitOk (n < 16) (s.runIsl (awlIsl n) fun d => d.awlCompute n 0x04 opMova)

/-- AWL_ADDA (R297): ADDA adds a sign-extended X into an accumulator with saturation. -/
def execAwlAdda (n : Nat) (s : State) : Res := unitOk (n < 16) (s.runIsl (awlIsl n) fun d => d.awlCompute n 0x05 opAdda)

/-- INSH (R297): INSH shifts an accumulator left 16 and inserts a halfword, wrapping. -/
def execAwlInsh (n : Nat) (s : State) : Res := unitOk (n < 16) (s.runIsl (awlIsl n) fun d => d.awlCompute n 0x06 opInsh)

/-- INS24 (R297): INS24 shifts an accumulator left 24 and inserts 24 bits, wrapping. -/
def execAwlIns24 (n : Nat) (s : State) : Res := unitOk (n < 16) (s.runIsl (awlIsl n) fun d => d.awlCompute n 0x07 opIns24)

/-- SHA (R297): SHA shifts an accumulator by a signed amount, saturating left. -/
def execAwlSha (n : Nat) (s : State) : Res := unitOk (n < 16) (s.runIsl (awlIsl n) fun d => d.awlCompute n 0x08 opSha)

/-- MOVX (R298): MOVX writes the rounded, shifted and clamped accumulator into X. -/
def execAwlMovx (n : Nat) (s : State) : Res := unitOk (n < 16) (s.runIsl (awlIsl n) fun d => d.awlCompute n 0x09 opMovx)

/-- MOVXL (R297): MOVXL moves accumulator bits [23:0] into X. -/
def execAwlMovxl (n : Nat) (s : State) : Res := unitOk (n < 16) (s.runIsl (awlIsl n) fun d => d.awlCompute n 0x0A opMovxl)

/-- MOVXM (R297): MOVXM moves accumulator bits [47:24] into X. -/
def execAwlMovxm (n : Nat) (s : State) : Res := unitOk (n < 16) (s.runIsl (awlIsl n) fun d => d.awlCompute n 0x0B opMovxm)

/-- MOVXH (R297): MOVXH moves accumulator bits [55:48], sign-extended, into X. -/
def execAwlMovxh (n : Nat) (s : State) : Res := unitOk (n < 16) (s.runIsl (awlIsl n) fun d => d.awlCompute n 0x0C opMovxh)

/-- ADDAC (R297): ADDAC adds one accumulator into another with saturation. -/
def execAwlAddac (n : Nat) (s : State) : Res := unitOk (n < 16) (s.runIsl (awlIsl n) fun d => d.awlCompute n 0x0D opAddac)

/-- ADD (R297): ADD adds two data registers modulo 2^24. -/
def execAwlAdd (n : Nat) (s : State) : Res := unitOk (n < 16) (s.runIsl (awlIsl n) fun d => d.awlCompute n 0x10 opAdd)

/-- SUB (R297): SUB subtracts two data registers modulo 2^24. -/
def execAwlSub (n : Nat) (s : State) : Res := unitOk (n < 16) (s.runIsl (awlIsl n) fun d => d.awlCompute n 0x11 opSub)

/-- AND (R297): AND forms the bitwise AND of two data registers. -/
def execAwlAnd (n : Nat) (s : State) : Res := unitOk (n < 16) (s.runIsl (awlIsl n) fun d => d.awlCompute n 0x12 opAnd)

/-- OR (R297): OR forms the bitwise OR of two data registers. -/
def execAwlOr (n : Nat) (s : State) : Res := unitOk (n < 16) (s.runIsl (awlIsl n) fun d => d.awlCompute n 0x13 opOr)

/-- XOR (R297): XOR forms the bitwise XOR of two data registers. -/
def execAwlXor (n : Nat) (s : State) : Res := unitOk (n < 16) (s.runIsl (awlIsl n) fun d => d.awlCompute n 0x14 opXor)

/-- ADDI (R297): ADDI adds a sign-extended immediate to a data register. -/
def execAwlAddi (n : Nat) (s : State) : Res := unitOk (n < 16) (s.runIsl (awlIsl n) fun d => d.awlCompute n 0x15 opAddi)

/-- SHI (R297): SHI shifts a data register by a signed immediate amount. -/
def execAwlShi (n : Nat) (s : State) : Res := unitOk (n < 16) (s.runIsl (awlIsl n) fun d => d.awlCompute n 0x16 opShi)

/-- LI (R297): LI loads a sign-extended 13-bit immediate. -/
def execAwlLi (n : Nat) (s : State) : Res := unitOk (n < 16) (s.runIsl (awlIsl n) fun d => d.awlCompute n 0x17 opLi)

/-- LUI (R297): LUI sets bits [23:13] of a data register. -/
def execAwlLui (n : Nat) (s : State) : Res := unitOk (n < 16) (s.runIsl (awlIsl n) fun d => d.awlCompute n 0x18 opLui)

/-- MAXX (R299): MAXX keeps the larger of X and an accumulator and records IDX. -/
def execAwlMaxx (n : Nat) (s : State) : Res := unitOk (n < 16) (s.runIsl (awlIsl n) fun d => d.awlCompute n 0x19 opMaxx)

/-- MINX (R299): MINX keeps the smaller of X and an accumulator and records IDX. -/
def execAwlMinx (n : Nat) (s : State) : Res := unitOk (n < 16) (s.runIsl (awlIsl n) fun d => d.awlCompute n 0x1A opMinx)

/-- MAXA (R299): MAXA keeps the larger of two accumulators and records IDX. -/
def execAwlMaxa (n : Nat) (s : State) : Res := unitOk (n < 16) (s.runIsl (awlIsl n) fun d => d.awlCompute n 0x1B opMaxa)

/-- MINA (R299): MINA keeps the smaller of two accumulators and records IDX. -/
def execAwlMina (n : Nat) (s : State) : Res := unitOk (n < 16) (s.runIsl (awlIsl n) fun d => d.awlCompute n 0x1C opMina)

/-- MOVS (R291): MOVS reads a special register into X. -/
def execAwlMovs (n : Nat) (s : State) : Res := unitOk (n < 16) (s.runIsl (awlIsl n) fun d => d.awlCompute n 0x1D opMovs)

/-- MOVTS (R291): MOVTS writes X into a special register. -/
def execAwlMovts (n : Nat) (s : State) : Res := unitOk (n < 16) (s.runIsl (awlIsl n) fun d => d.awlCompute n 0x1E opMovts)

/-- AWL_BR (R300): BR branches after two delay slots, ending loops that do not contain the target. -/
def execAwlBr (n : Nat) (s : State) : Res := unitOk (n < 16) (s.runIsl (awlIsl n) fun d => d.awlCompute n 0x20 opBr)

/-- BEQZ (R300): BEQZ branches if X is zero. -/
def execAwlBeqz (n : Nat) (s : State) : Res := unitOk (n < 16) (s.runIsl (awlIsl n) fun d => d.awlCompute n 0x21 opBeqz)

/-- BNEZ (R300): BNEZ branches if X is not zero. -/
def execAwlBnez (n : Nat) (s : State) : Res := unitOk (n < 16) (s.runIsl (awlIsl n) fun d => d.awlCompute n 0x22 opBnez)

/-- BLTZ (R300): BLTZ branches if X is negative. -/
def execAwlBltz (n : Nat) (s : State) : Res := unitOk (n < 16) (s.runIsl (awlIsl n) fun d => d.awlCompute n 0x23 opBltz)

/-- BGEZ (R300): BGEZ branches if X is not negative. -/
def execAwlBgez (n : Nat) (s : State) : Res := unitOk (n < 16) (s.runIsl (awlIsl n) fun d => d.awlCompute n 0x24 opBgez)

/-- CALL (R297): CALL sets LINK and branches. -/
def execAwlCall (n : Nat) (s : State) : Res := unitOk (n < 16) (s.runIsl (awlIsl n) fun d => d.awlCompute n 0x25 opCall)

/-- RET (R297): RET branches to LINK. -/
def execAwlRet (n : Nat) (s : State) : Res := unitOk (n < 16) (s.runIsl (awlIsl n) fun d => d.awlCompute n 0x26 opRet)

/-- LOOP (R301): LOOP starts a hardware loop at the lowest free level. -/
def execAwlLoop (n : Nat) (s : State) : Res := unitOk (n < 16) (s.runIsl (awlIsl n) fun d => d.awlCompute n 0x27 opLoop)

/-- LOOPR (R301): LOOPR starts a rotating hardware loop. -/
def execAwlLoopr (n : Nat) (s : State) : Res := unitOk (n < 16) (s.runIsl (awlIsl n) fun d => d.awlCompute n 0x28 opLoopr)

/-- REP (R302): REP issues the following word 1 to 4,096 times. -/
def execAwlRep (n : Nat) (s : State) : Res := unitOk (n < 16) (s.runIsl (awlIsl n) fun d => d.awlCompute n 0x29 opRep)

/-- RTE (R306): RTE restores STAT and PC after two delay slots. -/
def execAwlRte (n : Nat) (s : State) : Res := unitOk (n < 16) (s.runIsl (awlIsl n) fun d => d.awlCompute n 0x2A opRte)

/-- IOR (R310): IOR reads a local I/O register into X. -/
def execAwlIor (n : Nat) (s : State) : Res := unitOk (n < 16) (s.runIsl (awlIsl n) fun d => d.awlCompute n 0x2B opIor)

/-- IOW (R310): IOW writes X into a local I/O register. -/
def execAwlIow (n : Nat) (s : State) : Res := unitOk (n < 16) (s.runIsl (awlIsl n) fun d => d.awlCompute n 0x2C opIow)

/-- IORA (R310): IORA reads a local I/O register into an accumulator. -/
def execAwlIora (n : Nat) (s : State) : Res := unitOk (n < 16) (s.runIsl (awlIsl n) fun d => d.awlCompute n 0x2D opIora)

/-- IOWA (R310): IOWA writes an accumulator into a local I/O register. -/
def execAwlIowa (n : Nat) (s : State) : Res := unitOk (n < 16) (s.runIsl (awlIsl n) fun d => d.awlCompute n 0x2E opIowa)

/-- POSTV (R311): POSTV posts an accumulator as a verdict through the core's post queue. -/
def execAwlPostv (n : Nat) (s : State) : Res := unitOk (n < 16) (s.runIsl (awlIsl n) fun d => d.awlCompute n 0x2F opPostv)

/-- WAIT (R308): WAIT holds issue until an enabled interrupt source is pending. -/
def execAwlWait (n : Nat) (s : State) : Res := unitOk (n < 16) (s.runIsl (awlIsl n) fun d => d.awlCompute n 0x30 opWait)

/-- TRAP (R297): TRAP raises the TRAP exception with a code in EADDR. -/
def execAwlTrap (n : Nat) (s : State) : Res := unitOk (n < 16) (s.runIsl (awlIsl n) fun d => d.awlCompute n 0x31 opTrap)

/-- AWL_HALT (R297): HALT stops the core at the next interruptible point. -/
def execAwlHalt (n : Nat) (s : State) : Res := unitOk (n < 16) (s.runIsl (awlIsl n) fun d => d.awlCompute n 0x32 opHalt)

/-- AWL_EXCEPTION_ENTRY (R306): At an interruptible point the core takes a fault or interrupt, saving STAT and PC and going to the vector. -/
def execAwlExceptionEntry (n : Nat) (s : State) : Res := unitOk (n < 16) (s.runIsl (awlIsl n) fun d => d.awlExceptionEntry n)

/-- AWL_WAIT_WAKE (R308): An enabled source becomes pending during WAIT and issue resumes or the interrupt is taken. -/
def execAwlWaitWake (n : Nat) (s : State) : Res := unitOk (n < 16) (s.runIsl (awlIsl n) fun d => d.awlWaitWake n)

/-- AWL_RUN (R315): Setting AWL.CTRL.RUN starts issue at STATUS.PC. -/
def execAwlRun (n : Nat) (s : State) : Res := unitOk (n < 16) (s.runIsl (awlIsl n) fun d => d.awlRun n)

/-- AWL_CTRL_HALT (R315): Setting AWL.CTRL.HALT stops the core at the next interruptible point. -/
def execAwlCtrlHalt (n : Nat) (s : State) : Res := unitOk (n < 16) (s.runIsl (awlIsl n) fun d => d.awlHalt n)

/-- AWL_RESET (R290): Setting AWL.CTRL.RESET resets the core to HALTED with PC 0. -/
def execAwlReset (n : Nat) (s : State) : Res := unitOk (n < 16) (s.runIsl (awlIsl n) fun d => d.awlFullReset n)

/-- AWL_STEP (R315): Setting AWL.CTRL.STEP issues one word while HALTED. -/
def execAwlStep (n : Nat) (s : State) : Res := unitOk (n < 16) (s.runIsl (awlIsl n) fun d => d.awlStep n)

/-- DOORBELL_RING (R308): Writing AWL.DOORBELL.RING sets the core's DOORBELL interrupt. -/
def execDoorbellRing (n : Nat) (s : State) : Res := unitOk (n < 16) (s.runIsl (awlIsl n) fun d => d.doorbellRing n)

/-- XFER_GO (R313): A write to XFER_GO queues a transfer, or is refused with four queued. -/
def execXferGo (n : Nat) (value : Nat) (s : State) : Res := unitOk (n < 16) (s.runIsl (awlIsl n) fun d => d.awlXferGo n value)

/-- XFER_END (R313): A transfer ends, DONE counts and IPEND.XFER is set, or it ends with ERR. -/
def execXferEnd (n : Nat) (ok : Bool) (ext : List Nat) (s : State) : Res :=
  unitOk (n < 16) (s.runIsl (awlIsl n) fun d => d.xferEnd n ok ext)

end Sys2Proof.Machine
end

