-- ==== Sys2Proof/Machine/CmdCapture.lean ====
section
/-! DEFINITION. The meanings of the commands: Capture. Each one is the effect of its name in the machine, in the island it belongs to. -/
namespace Sys2Proof.Machine

/-- CAPTURE_SAMPLE_ARRIVE (R316): A tapped sample or beam sample reaches the capture engine and is requantized into its piece. -/
def execCaptureSampleArrive (full : Bool) (s : State) : Res := .next (s.run fun d => d.captureSampleArrive full)

/-- TRIG_SW (R321): A whole-width write to CAP.TRIG_SW raises a software trigger. -/
def execTrigSw (value : Nat) (s : State) : Res := .next (s.run fun d => d.trigSw value)

/-- REGION_RELEASE (R324): Writing RGN_CTRL.RELEASE makes a capture region FREE. -/
def execRegionRelease (r : Nat) (s : State) : Res := unitOk (r < 8) (s.run fun d => d.regionRelease r)

/-- CAPTURE_HEADER_WRITE (R319): Once every piece of a segment is written or dropped, its header and validity map are written. -/
def execCaptureHeaderWrite (s : State) : Res := .next (s.run fun d => d.captureHeaderWrite)

/-- CAPTURE_TRIGGER (R323): A trigger from a reduction unit reaches the capture engine and is merged, refused or opens a region. -/
def execCaptureTrigger (s : State) : Res := .next (s.run fun d => d.captureTrigger)

/-- TRIG_IN_EDGE (R321): A rising edge on TRIG_IN raises a trigger at its device time. -/
def execTrigInEdge (s : State) : Res := .next (s.run fun d => d.trigInEdge)

end Sys2Proof.Machine
end

