-- ==== Sys2Proof/Machine/CmdFailover.lean ====
section
/-! DEFINITION. The meanings of the commands: Failover. Each one is the effect of its name in the machine, in the island it belongs to. -/
namespace Sys2Proof.Machine

/-- FO_REQ_CHANGE (R487): A level on FO_REQ_N has been stable for 256 egress cycles and counts. -/
def execFoReqChange (low : Bool) (s : State) : Res := .next (s.runEgr fun d => d.foReqChange low)

/-- HANDOVER_GAP_END (R492): The gap ends: the assuming chip becomes ACTIVE, the releasing chip DRAINING, and a FAILOVER record is written. -/
def execHandoverGapEnd (blocks : Nat) (s : State) : Res := .next (s.runEgr fun d => d.handoverGapEnd blocks)

/-- HANDOVER_REPEAT (R489): A switching chip sends HANDOVER every 16 blocks on GROUPS and C2C lanes. -/
def execHandoverRepeat (s : State) : Res := .next (s.runEgr fun d => d.handoverRepeat)

/-- HANDOVER_WAIT_EXPIRE (R491): No partner HANDOVER within WAIT blocks ends the gap alone and sets ALONE. -/
def execHandoverWaitExpire (s : State) : Res := .next (s.runEgr fun d => d.handoverWaitExpire)

/-- FO_RELEASE_COMPLETE (R492): A DRAINING chip becomes STANDBY once its last dump is complete and its islands reach F_HO. -/
def execFoReleaseComplete (s : State) : Res := .next (s.runEgr fun d => d.foReleaseComplete)

end Sys2Proof.Machine
end

