-- ==== Sys2Proof/Machine/CmdIngest.lean ====
section
/-! DEFINITION. The meanings of the commands: Ingest. Each one is the effect of its name in the machine, in the island it belongs to. -/
namespace Sys2Proof.Machine

/-- AG_COMMIT_ARM (R45): Setting ING.AG_COMMIT.ARM arms the shadow time map of a group for its next frame boundary. -/
def execAgCommitArm (g : Nat) (s : State) : Res := unitOk (g < 64) (s.runIng fun d => d.armMap g)

/-- FRAME_DEADLINE (R49): Device time reaches D(n) for a group's frame, which completes it, zero-fills unfilled positions and counts underruns. -/
def execFrameDeadline (g : Nat) (s : State) : Res := unitOk (g < 64) (s.runIng fun d => d.frameDeadline g)

/-- FRAME_MARKER_ARRIVE (R57): A frame marker for F reaches a compute island, releasing waiting FMARKs and filler units of F. -/
def execFrameMarkerArrive (k : Nat) (s : State) : Res := unitOk (k < 8) (s.runIsl k fun d => d.frameMarkerArrive k)

/-- COMMIT_ARRIVE (R57): An accepted commit (slot mask, drain or swap) reaches a compute island and posts the matching DRAIN or SWAP service request. -/
def execCommitArrive (k : Nat) (s : State) : Res := unitOk (k < 8) (s.runIsl k fun d => d.commitArrive k)

/-- SLOT_COMMIT_POST (R126): A whole-width write to ING.SLOT_COMMIT posts a slot-mask commit, replacing any pending one. -/
def execSlotCommitPost (value : Nat) (s : State) : Res := .next (s.runIng fun d => d.slotCommitPost value)

/-- STAT_RECORD_DELIVER (R130): Statistics records of a completed frame reach the owning island, update valid counts and the reduction unit, and are written to an Awl ring. -/
def execStatRecordDeliver (k : Nat) (s : State) : Res := unitOk (k < 8) (s.runIsl k fun d => d.statRecordDeliver k)

/-- CT_WRITE_SEND (R383): A staged corner-turn write is sent once its channel's Indigo queue has room. -/
def execCtWriteSend (c : Nat) (s : State) : Res := unitOk (c < 12) (s.runIng fun d => d.ctWriteSend c)

/-- CT_WRITE_COMMIT (R381): A corner-turn write commits in SDRAM or receives an error response, and its commit time is measured. -/
def execCtWriteCommit (c : Nat) (ns : Nat) (s : State) : Res := unitOk (c < 12) (s.runIng fun d => d.ctWriteCommit c ns)

/-- FILL_UNIT_READ (R136): The filler begins reading a fill unit once its frame is complete, its marker has arrived and its Insole space is released. -/
def execFillUnitRead (k : Nat) (s : State) : Res := unitOk (k < 8) (s.runIsl k fun d => d.fillUnitRead k)

/-- FILL_UNIT_COMPLETE (R136): A fill unit has been written into the Insole with parity, releasing any WAITU on it. -/
def execFillUnitComplete (k : Nat) (s : State) : Res := unitOk (k < 8) (s.runIsl k fun d => d.fillUnitComplete k)

end Sys2Proof.Machine
end

