-- ==== Sys2Proof/Machine/CmdLane.lean ====
section
/-! DEFINITION. The meanings of the commands: Lane. Each one is the effect of its name in the machine, in the island it belongs to. -/
namespace Sys2Proof.Machine

/-- LANE_TRAIN (R75): Setting LANE.CTRL.TRAIN starts training on a DISABLED or DOWN lane, or is ignored as R76 lays down. -/
def execLaneTrain (n : Nat) (s : State) : Res := unitOk (n < 96) (s.runIng fun d => d.laneTrain n)

/-- LANE_DISABLE (R75): Setting LANE.CTRL.DISABLE takes the lane to DISABLED. -/
def execLaneDisable (n : Nat) (s : State) : Res := unitOk (n < 96) (s.runIng fun d => d.laneOff n)

/-- BLOCK_RECEIVE (R92): A block arrives at a receive half and is aligned, header-checked and descrambled. -/
def execBlockReceive (n : Nat) (line : List Bool) (s : State) : Res := unitOk (n < 96) (s.runIng fun d => d.blockReceive n line)

/-- TRAIN_RECEIVE (R70): A TRAIN block is received and its coefficient request and tap statuses are acted on. -/
def execTrainReceive (n : Nat) (s : State) : Res := unitOk (n < 96) (s.runIng fun d => d.trainReceive n)

/-- TAP_CHANGE_APPLY (R70): The responder applies a requested transmit-tap change, or answers AT_MIN or AT_MAX, within 200 blocks. -/
def execTapChangeApply (n : Nat) (s : State) : Res := unitOk (n < 96) (s.runIng fun d => d.tapChangeApply n)

/-- TRAIN_REQUEST_TIMEOUT (R70): A coefficient request unanswered for 1 ms is resent; the third unanswered one ends training with NO_RESPONSE. -/
def execTrainRequestTimeout (n : Nat) (s : State) : Res := unitOk (n < 96) (s.runIng fun d => d.trainRequestTimeout n)

/-- TRAINING_TIMEOUT (R71): The 500 ms training timeout expires, ending training with NO_LOCK or TIMEOUT. -/
def execTrainingTimeout (n : Nat) (s : State) : Res := unitOk (n < 96) (s.runIng fun d => d.trainingTimeout n)

/-- LANE_PLL_UNLOCK (R64): A lane PLL loses lock and the lane goes DOWN with result PLL. -/
def execLanePllUnlock (n : Nat) (s : State) : Res := unitOk (n < 96) (s.run fun d => d.pllUnlock n)

/-- HUNT_TIMEOUT (R75): One ms in HUNT without lock starts automatic training once and sets AUTO_RETRAIN. -/
def execHuntTimeout (n : Nat) (s : State) : Res := unitOk (n < 96) (s.runIng fun d => d.huntTimeout n)

/-- TX_IDLE_ENTRY (R77): With IDLE_REQ set, an empty transmit buffer and the lane UP, the transmitter sends 8 idle-entry IDLE blocks and stops driving. -/
def execTxIdleEntry (n : Nat) (s : State) : Res := unitOk (n < 96) (s.runEgr fun d => d.txIdleEntry n)

/-- IDLE_RECEIVE (R77): An IDLE block is received; one with the idle-entry flag takes the receiver to ELEC_IDLE. -/
def execIdleReceive (n : Nat) (s : State) : Res := unitOk (n < 96) (s.runIng fun d => d.idleReceive n)

/-- SIGNAL_DETECT (R75): The receiver of an ELEC_IDLE lane detects signal energy and enters WAKE. -/
def execSignalDetect (n : Nat) (s : State) : Res := unitOk (n < 96) (s.runIng fun d => d.signalDetect n)

/-- TX_WAKE (R78): An idle transmitter wakes on IDLE_REQ clear or a queued block with AUTO_WAKE, sending a fast-wake burst or full training. -/
def execTxWake (n : Nat) (s : State) : Res := unitOk (n < 96) (s.runEgr fun d => d.txWake n)

/-- WAKE_LOCK_TIMEOUT (R79): No lock within 124 blocks of signal detection in WAKE starts full training and sets SLOW_WAKE. -/
def execWakeLockTimeout (n : Nat) (s : State) : Res := unitOk (n < 96) (s.runIng fun d => d.wakeLockTimeout n)

/-- BLOCK_TRANSMIT (R98): At a block boundary the transmit half sends the due block in the order NAK, ACK, HANDOVER, TRIGGER, TIME, QUALITY, frame blocks, IDLE. -/
def execBlockTransmit (n : Nat) (s : State) : Res := unitOk (n < 96) (s.runEgr fun d => d.blockTransmit n)

/-- PRBS_GEN_EN (R82): A write to LANE.PRBS_CTRL.GEN_EN enables or disables the PRBS generator where allowed, otherwise sets PRBS_REFUSED. -/
def execPrbsGenEn (n : Nat) (on : Bool) (s : State) : Res := unitOk (n < 96) (s.runIng fun d => d.prbsGenEn n on)

/-- PRBS_CHK_EN (R82): A write to LANE.PRBS_CTRL.CHK_EN enables or disables the PRBS checker where allowed, otherwise sets PRBS_REFUSED. -/
def execPrbsChkEn (n : Nat) (on : Bool) (s : State) : Res := unitOk (n < 96) (s.runIng fun d => d.prbsChkEn n on)

/-- PRBS_INJECT (R81): Writing INJECT inverts the next generator bit. -/
def execPrbsInject (n : Nat) (s : State) : Res := unitOk (n < 96) (s.runIng fun d => d.prbsInject n)

/-- PRBS_SNAP (R83): Writing SNAP copies the live PRBS counters into PRBS_ERR and PRBS_BITS in one cycle. -/
def execPrbsSnap (n : Nat) (s : State) : Res := unitOk (n < 96) (s.runIng fun d => d.prbsSnap n)

/-- PRBS_CLEAR (R83): Writing CLEAR zeroes the live PRBS counters, after any SNAP in the same write. -/
def execPrbsClear (n : Nat) (s : State) : Res := unitOk (n < 96) (s.runIng fun d => d.prbsClear n)

/-- PRBS_CHECKER_LOCK (R83): The PRBS checker declares lock after 64 matching bits and starts counting. -/
def execPrbsCheckerLock (n : Nat) (s : State) : Res := unitOk (n < 96) (s.runIng fun d => d.prbsLock n)

/-- PRBS_CHECKER_UNLOCK (R83): 512 or more errors in 1,024 bits drop checker lock, set PRBS_UNLOCK and reseed. -/
def execPrbsCheckerUnlock (n : Nat) (s : State) : Res := unitOk (n < 96) (s.runIng fun d => d.prbsUnlock n)

/-- LANE_ROTATION_REMOVE (R74): At the next frame boundary an EGRESS or C2C lane that left UP is removed from its group's rotation and its frames are replayed or lost. -/
def execLaneRotationRemove (n : Nat) (s : State) : Res := unitOk (n < 96) (s.runEgr fun d => d.laneRotationRemove n)

/-- TIME_RECEIVE (R409): A TIME block is received, time-stamped and, for DELAY_REQ with AUTO_RESP, answered. -/
def execTimeReceive (n : Nat) (s : State) : Res := unitOk (n < 96) (s.runIng fun d => d.timeReceive n)

/-- QUALITY_RECEIVE (R393): A QUALITY block sets the quality of the lane-recovered reference. -/
def execQualityReceive (n : Nat) (s : State) : Res := unitOk (n < 96) (s.runIng fun d => d.qualityReceive n)

/-- ACK_RECEIVE (R111): An ACK releases buffered replay frames up to ACK_SEQ. -/
def execAckReceive (n : Nat) (s : State) : Res := unitOk (n < 96) (s.runIng fun d => d.ackReceive n)

/-- NAK_RECEIVE (R111): A NAK makes the transmitter go back and resend every buffered frame from NAK_SEQ. -/
def execNakReceive (n : Nat) (s : State) : Res := unitOk (n < 96) (s.runIng fun d => d.nakReceive n)

/-- PAUSE_RECEIVE (R114): A PAUSE stops new FSTARTs on the lane for BLOCKS blocks after the frame in progress. -/
def execPauseReceive (n : Nat) (s : State) : Res := unitOk (n < 96) (s.runIng fun d => d.pauseReceive n)

/-- PAUSE_EXPIRE (R114): The pause count runs out and the lane may start frames again. -/
def execPauseExpire (n : Nat) (s : State) : Res := unitOk (n < 96) (s.runEgr fun d => d.pauseExpire n)

/-- TRIGGER_RECEIVE (R115): A TRIGGER block on a C2C lane is acted on once per (SOURCE, TRIG_ID) and passed to capture. -/
def execTriggerReceive (n : Nat) (s : State) : Res := unitOk (n < 96) (s.runIng fun d => d.triggerReceive n)

/-- HANDOVER_RECEIVE (R490): A HANDOVER block on a C2C lane is passed to failover control. -/
def execHandoverReceive (n : Nat) (s : State) : Res := unitOk (n < 96) (s.runIng fun d => d.handoverReceive n)

/-- FSTART_RECEIVE (R106): An FSTART control block opens a frame, or is counted LOST on a bad BLOCK_CRC. -/
def execFstartReceive (n : Nat) (s : State) : Res := unitOk (n < 96) (s.runIng fun d => d.fstart n)

/-- FEND_RECEIVE (R106): An FEND closes the open frame, which is classified and delivered, NAKed or discarded. -/
def execFendReceive (n : Nat) (s : State) : Res := unitOk (n < 96) (s.runIng fun d => d.fend n)

/-- DATA_BLOCK_RECEIVE (R99): A data block joins the open frame, or is discarded and counted as an ORPHAN. -/
def execDataBlockReceive (n : Nat) (s : State) : Res := unitOk (n < 96) (s.runIng fun d => d.dataBlock n)

/-- ACK_SEND (R110): An ACK for the latest in-order frame is sent within 32 blocks of its FEND. -/
def execAckSend (n : Nat) (s : State) : Res := unitOk (n < 96) (s.runEgr fun d => d.ackSend n)

/-- NAK_REPEAT (R110): While waiting for the expected frame the receiver repeats its NAK every 64 blocks. -/
def execNakRepeat (n : Nat) (s : State) : Res := unitOk (n < 96) (s.runEgr fun d => d.nakRepeat n)

/-- ACK_WAIT_TIMEOUT (R111): The oldest buffered frame not released within ACK_WAIT blocks makes the transmitter replay from it. -/
def execAckWaitTimeout (n : Nat) (s : State) : Res := unitOk (n < 96) (s.runEgr fun d => d.ackWaitTimeout n)

/-- REPLAY_EXHAUSTED (R486): A frame's replay is exhausted by its tenth send or its 2 us budget, raising LINK_FAIL and ending every outstanding transaction of the group with an error. -/
def execReplayExhausted (n : Nat) (s : State) : Res := unitOk (n < 96) (s.runEgr fun d => (d.replayExhausted n).settleRx n 64)

/-- LOSS_OF_SIGNAL (R77): A receiver loses signal energy without having seen the idle-entry flag and enters HUNT; one that saw the flag stays in ELEC_IDLE. -/
def execLossOfSignal (n : Nat) (s : State) : Res := unitOk (n < 96) (s.runIng fun d => d.lossOfSignal n)

/-- LANE_PLL_LOCK (R64): A lane PLL regains lock and LANE.STATE.PLL_LOCK returns to 1, while the lane stays DOWN until training is started again. -/
def execLanePllLock (n : Nat) (s : State) : Res := unitOk (n < 96) (s.run fun d => d.pllLock n)

/-- PRBS_COUNTER_SATURATE (R83): The 48-bit live PRBS bit counter saturates and both live counters stop. -/
def execPrbsCounterSaturate (n : Nat) (s : State) : Res := unitOk (n < 96) (s.runIng fun d => d.prbsSaturate n)

end Sys2Proof.Machine
end

