-- ==== Sys2Proof/Machine/CmdMemory.lean ====
section
/-! DEFINITION. The meanings of the commands: Memory. Each one is the effect of its name in the machine, in the island it belongs to. -/
namespace Sys2Proof.Machine

/-- CHANNEL_TRAIN (R335): Setting MEM.CH_CTRL.TRAIN trains or retrains an SDRAM channel, or is refused under R337. -/
def execChannelTrain (c : Nat) (s : State) : Res := unitOk (c < 12) (s.run fun d => d.channelTrain c)

/-- CHANNEL_TRAINING_DONE (R336): Channel training ends ONLINE or, finding no setting, OFFLINE with LOST set and a stop posted. -/
def execChannelTrainingDone (c : Nat) (code : Nat) (s : State) : Res :=
  unitOk (c < 12) (s.run fun d => d.channelTrainingDone c code)

/-- CHANNEL_TRAINING_TIMEOUT (R336): Channel training exceeds 5 ms and the channel goes OFFLINE with TIMEOUT. -/
def execChannelTrainingTimeout (c : Nat) (s : State) : Res := unitOk (c < 12) (s.run fun d => d.channelTrainingTimeout c)

/-- MEM_REQUEST_ISSUE (R342): A channel picks and issues its next request by class, urgency and row state. -/
def execMemRequestIssue (c : Nat) (s : State) : Res := unitOk (c < 12) (s.run fun d => d.memRequestIssue c)

/-- MEM_TRANSFER_DONE (R338): An SDRAM transfer completes, with CRC repeats, on-die ECC reporting and retraining after three failed repeats. -/
def execMemTransferDone (c : Nat) (fails : Nat) (ecc : Nat) (beat : Nat) (s : State) : Res :=
  unitOk (c < 12) (s.run fun d => d.memTransferDone c fails ecc beat)

/-- REFRESH_DUE (R343): A refresh falls due and is issued, postponed or issued as a make-up burst. -/
def execRefreshDue (c : Nat) (s : State) : Res := unitOk (c < 12) (s.run fun d => d.refreshDue c)

/-- SCRUB_READ (R352): Every INTERVAL memory clocks a channel reads its next beat for scrubbing. -/
def execScrubRead (c : Nat) (ecc : Nat) (s : State) : Res := unitOk (c < 12) (s.run fun d => d.scrubRead c ecc)

/-- SCRUB_WRITEBACK (R352): A corrected scrub beat is written back unless a newer write arrived. -/
def execScrubWriteback (c : Nat) (s : State) : Res := unitOk (c < 12) (s.run fun d => d.scrubWriteback c)

/-- ONCHIP_SCRUB (R352): The on-chip scrubber reads and corrects the next word of a protected memory. -/
def execOnchipScrub (mem : Nat) (outcome : Nat) (s : State) : Res := .next (s.run fun d => d.onchipScrub mem outcome)

/-- ILV_MASK_WRITE (R334): A write to MEM.ILV.MASK sets the interleave set, or is refused for a channel not ONLINE or while a pattern is active. -/
def execIlvMaskWrite (mask : Nat) (s : State) : Res :=
  .next (s.run fun d => Dev.answered (d.ilvMaskWrite mask, !d.ilvAllowed mask))

/-- REPAIR_PROGRAM (R355): A whole-width write to FUSE.REPAIR_PROG with GO starts programming a repair entry, or is refused. -/
def execRepairProgram (value : Nat) (s : State) : Res := .next (s.run fun d => d.repairProgram value)

/-- URGENCY_RISE (R341): A waiting request reaches half, three quarters or all of its port target and its urgency rises. -/
def execUrgencyRise (c : Nat) (idx : Nat) (s : State) : Res := unitOk (c < 12) (s.run fun d => d.urgencyRise c idx)

/-- ROW_IDLE_CLOSE (R340): A bank's idle timer expires and its open row is closed. -/
def execRowIdleClose (c : Nat) (bank : Nat) (s : State) : Res := unitOk (c < 12) (s.run fun d => d.rowIdleClose c bank)

/-- REPAIR_DONE (R355): Repair programming ends, DONE is set and the entry reads VALID. -/
def execRepairDone (s : State) : Res := .next (s.run fun d => d.repairDone)

end Sys2Proof.Machine
end

