-- ==== Sys2Proof/Machine/CmdMgmt.lean ====
section
/-! DEFINITION. The meanings of the commands: Mgmt. Each one is the effect of its name in the machine, in the island it belongs to. -/
namespace Sys2Proof.Machine

/-- MGMT_ENABLE (R432): A write to MGMT.CFG.EN starts the MAC and rings at INDEX 0, or stops them at a frame boundary. -/
def execMgmtEnable (on : Bool) (s : State) : Res := .next (s.run fun d => d.mgmtEnable on)

/-- MGMT_RING_WRITE (R432): A write to MGMT.RING takes effect only while EN is 0. -/
def execMgmtRingWrite (r : Nat) (value : Nat) (s : State) : Res := unitOk (r < 2) (s.run fun d => d.mgmtRingWrite r value)

/-- MGMT_KICK (R432): Setting MGMT.PTR.KICK makes the MAC reread its waiting descriptor. -/
def execMgmtKick (r : Nat) (s : State) : Res := unitOk (r < 2) (s.run fun d => d.mgmtReread r)

/-- MGMT_DESC_POLL (R432): The MAC rereads a descriptor it waits for every 256 cycles. -/
def execMgmtDescPoll (r : Nat) (s : State) : Res := unitOk (r < 2) (s.run fun d => d.mgmtReread r)

/-- MGMT_FRAME_RECEIVE (R430): A frame arrives at the management MAC and is filtered, dropped or written into receive descriptors. -/
def execMgmtFrameReceive (bytes : List Nat) (s : State) : Res := .next (s.run fun d => d.mgmtReceive bytes)

/-- MGMT_LINK_CHANGE (R430): The PHY's link, speed or duplex changes and LINK_CHG is set. -/
def execMgmtLinkChange (up : Bool) (speed : Nat) (half : Bool) (s : State) : Res :=
  .next (s.run fun d => d.mgmtLinkChange up speed half)

/-- MDIO_DONE (R430): An MDIO frame finishes and GO reads 0. -/
def execMdioDone (data : Nat) (s : State) : Res := .next (s.run fun d => d.mdioDone data)

/-- MGMT_RX_NODESC_TIMEOUT (R432): A received frame without enough owned descriptors within 64 us is dropped and counted. -/
def execMgmtRxNodescTimeout (s : State) : Res := .next (s.run fun d => d.mgmtRxTimeout)

/-- MGMT_FRAME_TRANSMIT (R432): A frame held whole in the transmit buffer is sent and its descriptors completed. -/
def execMgmtFrameTransmit (s : State) : Res := .next (s.run fun d => d.mgmtTransmit)

/-- MDIO_FRAME (R430): Setting MGMT.MDIO.GO runs a Clause 22 or Clause 45 frame. -/
def execMdioFrame (s : State) : Res := .next (s.run fun d => d.mdioGo)

end Sys2Proof.Machine
end

