-- ==== Sys2Proof/Machine/CmdMonitor.lean ====
section
/-! DEFINITION. The meanings of the commands: Monitor. Each one is the effect of its name in the machine, in the island it belongs to. -/
namespace Sys2Proof.Machine

/-- MON_SOURCE_SAMPLE (R454): A source sample enters a monitor buffer, gap-filling, discarding or overrunning. -/
def execMonSourceSample (o : Nat) (s : State) : Res := unitOk (o < 2) (s.runEgr fun d => d.monSourceSample o)

/-- MON_OUTPUT_FRAME (R455): At each output frame time the chain produces one AES3 frame, handling underrun, fades and zero crossings. -/
def execMonOutputFrame (o : Nat) (s : State) : Res := unitOk (o < 2) (s.runEgr fun d => d.monOutputFrame o)

/-- MON_START (R462): Setting MON.CTRL.START starts an output at the next zero crossing after filling, or is refused. -/
def execMonStart (o : Nat) (s : State) : Res := unitOk (o < 2) (s.runEgr fun d => d.monStart o)

/-- MON_STOP (R462): Setting MON.CTRL.STOP stops an output at the next zero crossing. -/
def execMonStop (o : Nat) (s : State) : Res := unitOk (o < 2) (s.runEgr fun d => d.monStop o)

/-- MON_CONFIG_WRITE (R463): A write to MON.CFG or MON.SRC takes effect only while STATE is IDLE. -/
def execMonConfigWrite (o : Nat) (src : Bool) (value : Nat) (s : State) : Res :=
  unitOk (o < 2) (s.run fun d => d.monConfigWrite o src value)

/-- MON_IN_FRAME (R466): An AES3 or IEC 60958 frame arrives on MON_IN, with slip, CRC and non-audio handling. -/
def execMonInFrame (start : Bool) (a : Nat) (b : Nat) (mark : Bool) (s : State) : Res :=
  .next (s.runEgr fun d => d.monInFrame start a b mark)

/-- HK_CONVERSION_DONE (R470): A housekeeping conversion settles, its result is stored and the next enabled input starts. -/
def execHkConversionDone (code : Nat) (s : State) : Res := .next (s.run fun d => d.hkConversionDone code)

/-- HK_URGENT_REQUEST (R471): Setting HK.URGENT.GO aborts the running conversion and converts the named input, or is held or refused. -/
def execHkUrgentRequest (input : Nat) (s : State) : Res := .next (s.run fun d => d.hkUrgentRequest input)

/-- THERM_TRIP (R516): A die sensor above 115 C for 1 ms drives THERM_TRIP_N low. -/
def execThermTrip (s : State) : Res := .next (s.run fun d => d.thermalTrip)

end Sys2Proof.Machine
end

