-- ==== Sys2Proof/Machine/CmdPanel.lean ====
section
/-! DEFINITION. The meanings of the commands: Panel. Each one is the effect of its name in the machine, in the island it belongs to. -/
namespace Sys2Proof.Machine

/-- PNL_NOP (R154): Control syllable NOP does nothing. -/
def execPnlNop (p : Nat) (s : State) : Res := unitOk (p < 64) (s.runIsl (p / 8) fun d => d.pnlNop p)

/-- SETA (R154): SETA loads a zero-extended immediate into a sequencer register. -/
def execPnlSeta (p : Nat) (s : State) : Res := unitOk (p < 64) (s.runIsl (p / 8) fun d => d.seta p)

/-- SETAH (R154): SETAH sets bits [31:22] of a sequencer register. -/
def execPnlSetah (p : Nat) (s : State) : Res := unitOk (p < 64) (s.runIsl (p / 8) fun d => d.setah p)

/-- PNL_ADDA (R154): ADDA adds a sign-extended immediate to a sequencer register. -/
def execPnlAdda (p : Nat) (s : State) : Res := unitOk (p < 64) (s.runIsl (p / 8) fun d => d.pnlAdda p)

/-- SETT (R154): SETT sets the time index TI and the time stride TS. -/
def execPnlSett (p : Nat) (s : State) : Res := unitOk (p < 64) (s.runIsl (p / 8) fun d => d.sett p)

/-- SETRP (R154): SETRP sets the retraction pointers PRR and PRC and clears RI. -/
def execPnlSetrp (p : Nat) (s : State) : Res := unitOk (p < 64) (s.runIsl (p / 8) fun d => d.setrp p)

/-- OPEN (R149): OPEN binds a free slot to a tag with its shape and operand offsets, or waits or is held under slot ownership. -/
def execPnlOpen (p : Nat) (s : State) : Res := unitOk (p < 64) (s.runIsl (p / 8) fun d => d.pnlOpen p)

/-- SPILL (R150): SPILL captures a slot plane for the spill path, marked INIT or ADD, or queues it. -/
def execPnlSpill (p : Nat) (s : State) : Res := unitOk (p < 64) (s.runIsl (p / 8) fun d => d.pnlSpill p)

/-- DUMP (R150): DUMP captures a slot plane for egress with its routing key, or queues it. -/
def execPnlDump (p : Nat) (s : State) : Res := unitOk (p < 64) (s.runIsl (p / 8) fun d => d.pnlDump p)

/-- CLEAR (R150): CLEAR discards a slot's contents and frees it. -/
def execPnlClear (p : Nat) (s : State) : Res := unitOk (p < 64) (s.runIsl (p / 8) fun d => d.pnlClear p)

/-- PROMOTE (R174): PROMOTE captures a compatibility slot and adds it into a promotion plane. -/
def execPnlPromote (p : Nat) (s : State) : Res := unitOk (p < 64) (s.runIsl (p / 8) fun d => d.pnlPromote p)

/-- LOADW (R231): LOADW binds a slot as LOADING and reads a weight plane from the bank in force. -/
def execPnlLoadw (p : Nat) (s : State) : Res := unitOk (p < 64) (s.runIsl (p / 8) fun d => d.pnlLoadw p)

/-- PNL_BR (R157): BR branches after two delay slots. -/
def execPnlBr (p : Nat) (s : State) : Res := unitOk (p < 64) (s.runIsl (p / 8) fun d => d.pnlBr p)

/-- BNZ (R157): BNZ decrements a register and branches after two delay slots if non-zero. -/
def execPnlBnz (p : Nat) (s : State) : Res := unitOk (p < 64) (s.runIsl (p / 8) fun d => d.bnz p)

/-- REPEAT (R154): REPEAT issues the next LEN words COUNT times. -/
def execPnlRepeat (p : Nat) (s : State) : Res := unitOk (p < 64) (s.runIsl (p / 8) fun d => d.repeat_ p)

/-- WAITU (R154): WAITU waits until a fill unit of the named frame is in the Insole. -/
def execPnlWaitu (p : Nat) (s : State) : Res := unitOk (p < 64) (s.runIsl (p / 8) fun d => d.waitu p)

/-- RELU (R205): RELU releases a fill unit to the filler, subject to retention. -/
def execPnlRelu (p : Nat) (s : State) : Res := unitOk (p < 64) (s.runIsl (p / 8) fun d => d.relu p)

/-- FMARK (R159): FMARK waits for the frame marker of the next frame and then advances PNL_nn.FRAME. -/
def execPnlFmark (p : Nat) (s : State) : Res := unitOk (p < 64) (s.runIsl (p / 8) fun d => d.fmark p)

/-- SVCRET (R161): SVCRET returns from a service routine, or after SWAP starts the incoming program; outside a routine it faults. -/
def execPnlSvcret (p : Nat) (s : State) : Res := unitOk (p < 64) (s.runIsl (p / 8) fun d => d.svcret p)

/-- PNL_HALT (R163): HALT stops the panel in HALTED until the next swap, with its blocks contaminated. -/
def execPnlHalt (p : Nat) (s : State) : Res := unitOk (p < 64) (s.runIsl (p / 8) fun d => d.pnlHalt p)

/-- ARRAY_NOP (R155): Array syllable NOP leaves the array idle. -/
def execArrayNop (p : Nat) (s : State) : Res := unitOk (p < 64) (s.runIsl (p / 8) fun d => d.arrayNop p)

/-- ACC (R141): ACC adds x times conj(y) into the named slot in every cell. -/
def execArrAcc (p : Nat) (upset : List (Nat × Byte)) (s : State) : Res :=
  unitOk (p < 64) (s.runIsl (p / 8) fun d => d.acc p upset)

/-- RETR (R156): RETR subtracts the masked products from the named slot. -/
def execArrRetr (p : Nat) (upset : List (Nat × Byte)) (s : State) : Res :=
  unitOk (p < 64) (s.runIsl (p / 8) fun d => d.retr p upset)

/-- ZACC (R167): ZACC optionally clears and shifts the lag chain and accumulates every lag. -/
def execArrZacc (p : Nat) (s : State) : Res := unitOk (p < 64) (s.runIsl (p / 8) fun d => d.zacc p)

/-- ZSHIFT (R167): ZSHIFT shifts the lag chain without accumulating. -/
def execArrZshift (p : Nat) (s : State) : Res := unitOk (p < 64) (s.runIsl (p / 8) fun d => d.zshift p)

/-- BEAMV (R218): BEAMV forms x times w through the adder tree into the panel beam accumulator and optionally emits. -/
def execArrBeamv (p : Nat) (s : State) : Res := unitOk (p < 64) (s.runIsl (p / 8) fun d => d.beamv p)

/-- BEAMD (R226): BEAMD acts as BEAMV and adds the detected power of BA into SLOT2. -/
def execArrBeamd (p : Nat) (s : State) : Res := unitOk (p < 64) (s.runIsl (p / 8) fun d => d.beamd p)

/-- PLANE_BUFFER_FREE (R151): A captured plane has left the panel, freeing its plane buffer. -/
def execPlaneBufferFree (p : Nat) (s : State) : Res := unitOk (p < 64) (s.runIsl (p / 8) fun d => d.planeBufferFree p)

/-- PROMOTE_ADD_COMPLETE (R174): A promotion add of 64 array cycles completes and frees the promotion capture buffer. -/
def execPromoteAddComplete (p : Nat) (s : State) : Res := unitOk (p < 64) (s.runIsl (p / 8) fun d => d.promoteAddComplete p)

/-- LOADW_COMPLETE (R231): The last weight of a plane arrives and the slot leaves LOADING, marked BAD if any check failed. -/
def execLoadwComplete (p : Nat) (slot : Nat) (s : State) : Res :=
  unitOk (p < 64) (s.runIsl (p / 8) fun d => d.loadwComplete p slot)

/-- SERVICE_ENTRY (R161): At an interruptible point the sequencer takes a pending RETRACT, DRAIN or SWAP and issues its vector word. -/
def execServiceEntry (p : Nat) (s : State) : Res := unitOk (p < 64) (s.runIsl (p / 8) fun d => d.serviceEntry p)

/-- SLOT_WAIT_EXPIRE (R165): A held slot operation reaches SLOT_WAIT cycles and is dropped as a slot conflict. -/
def execSlotWaitExpire (p : Nat) (s : State) : Res := unitOk (p < 64) (s.runIsl (p / 8) fun d => d.slotWaitExpire p)

end Sys2Proof.Machine
end

