-- ==== Sys2Proof/Machine/CmdPattern.lean ====
section
/-! DEFINITION. The meanings of the commands: Pattern. Each one is the effect of its name in the machine, in the island it belongs to. -/
namespace Sys2Proof.Machine

/-- PATTERN_LOAD_DONE (R275): A pattern load ends with every check passed (LOADED) or with a refusal (ERROR); `ext` is what pass 1
reads outside SDRAM, `again` what pass 2 reads there (R274). -/
def execPatternLoadDone (ok : Bool) (ext : List Nat) (s : State) : Res := .next (s.run fun d => d.patternLoadEnd ok ext)

/-- ACTIVATE_POST (R278): A whole-width write to PAT.ACTIVATE_AT arms, replaces or refuses an activation, or starts a cold activation. -/
def execActivatePost (value : Nat) (s : State) : Res := .next (s.run fun d => d.activatePost value)

/-- STOP_POST (R281): A whole-width write to PAT.STOP_AT posts or replaces a stop of the active pattern. -/
def execStopPost (value : Nat) (s : State) : Res := .next (s.run fun d => d.stopPost value)

/-- TEST_FRAME_GENERATE (R283): In T mode a generated frame of every mapped stream is delivered complete at the device time of its last sample. -/
def execTestFrameGenerate (g : Nat) (s : State) : Res := unitOk (g < 64) (s.runIng fun d => d.testFrameGenerate g)

/-- PATTERN_LOAD (R274): Writing PAT.CTRL.LOAD starts a two-pass load of the image into the shadow banks. -/
def execPatternLoad (s : State) : Res := .next (s.run fun d => d.patternLoad)

/-- PATTERN_CANCEL (R277): Writing PAT.CTRL.CANCEL empties a LOADED shadow or returns an ARMED activation to LOADED. -/
def execPatternCancel (s : State) : Res := .next (s.run fun d => d.patternCancel)

/-- REQ_SIG_SET (R275): Setting PAT.CTRL.REQ_SIG makes the port refuse unsigned images until power-on reset. -/
def execReqSigSet (s : State) : Res := .next (s.run fun d => d.reqSigSet)

/-- KEY_LOCK_SET (R286): Setting PAT.CTRL.KEY_LOCK makes PAT.PUBKEY read-only until power-on reset. -/
def execKeyLockSet (s : State) : Res := .next (s.run fun d => d.keyLockSet)

/-- COLD_ACTIVATION_COMPLETE (R279): Every island runs its new clock, every panel has started and every lane acted, so ACTIVE_ID is set and SWAPPED. -/
def execColdActivationComplete (s : State) : Res := .next (s.run fun d => d.coldActivationComplete)

/-- SWAP_COMPLETE (R280): All swap conditions hold, the outgoing configuration is released and the port returns to EMPTY. -/
def execSwapComplete (s : State) : Res := .next (s.run fun d => d.swapComplete)

/-- STOP_COMPLETE (R281): A stop completes: ACTIVE clears, DEV.MODE reads 0 and STOPPED is set. -/
def execStopComplete (s : State) : Res := .next (s.run fun d => d.stopComplete)

end Sys2Proof.Machine
end

