-- ==== Sys2Proof/Machine/CmdPcie.lean ====
section
/-! DEFINITION. The meanings of the commands: Pcie. Each one is the effect of its name in the machine, in the island it belongs to. -/
namespace Sys2Proof.Machine

/-- PCIE_RETRAIN (R329): Writing PCIE.CFG.RETRAIN retrains the port's link. -/
def execPcieRetrain (p : Nat) (s : State) : Res := unitOk (p < 4) (s.run fun d => d.pcieRetrain p)

/-- PCIE_LINK_DOWN (R329): A link leaves L0 unrequested; outstanding outbound requests get errors and LINK_DOWN is set. -/
def execPcieLinkDown (p : Nat) (s : State) : Res := unitOk (p < 4) (s.run fun d => d.pcieLinkDown p)

/-- PCIE_INBOUND_REQUEST (R328): An inbound memory request is translated to SDRAM, taken as MSI or answered Unsupported Request. -/
def execPcieInboundRequest (p : Nat) (tag : Nat) (write : Bool) (bus : Nat) (cells : List (Option Nat)) (s : State) : Res :=
  unitOk (p < 4) (s.run fun d => d.pcieRequest p tag write bus cells)

/-- PCIE_COMPLETION_TIMEOUT (R327): An outbound request without completion in 50 ms receives an error response. -/
def execPcieCompletionTimeout (p : Nat) (s : State) : Res := unitOk (p < 4) (s.run fun d => d.pcieTimeout p)

/-- PCIE_LINK_UP (R327): A root-port link finishes training after enable or retrain and enters L0, setting PCIE.STATUS.L0 with its negotiated speed and width. -/
def execPcieLinkUp (p : Nat) (speed : Nat) (width : Nat) (s : State) : Res :=
  unitOk (p < 4) (s.run fun d => d.pcieLinkUp p speed width)

/-- PCIE_AER_MESSAGE (R327): An Advanced Error Reporting message arrives on a root port and sets PCIE.STATUS.AER. -/
def execPcieAerMessage (p : Nat) (s : State) : Res := unitOk (p < 4) (s.run fun d => d.pcieAer p)

end Sys2Proof.Machine
end

