-- ==== Sys2Proof/Machine/CmdProduct.lean ====
section
/-! DEFINITION. The meanings of the commands: Product. Each one is the effect of its name in the machine, in the island it belongs to. -/
namespace Sys2Proof.Machine

/-- SPILL_PLANE_ARRIVE (R180): A spilled plane reaches the spill adder, which writes it as INIT or reads, adds and writes back the record. -/
def execSpillPlaneArrive (k : Nat) (s : State) : Res := unitOk (k < 8) (s.run fun d => d.spillPlaneArrive k)

/-- SPILL_WRITE_DONE (R189): The adder's write of a record completes and the plane's products retire. -/
def execSpillWriteDone (p : Nat) (s : State) : Res := unitOk (p < 64) (s.run fun d => d.spillWriteDone p)

/-- CLOSE_MARKER_ARRIVE (R183): A panel's close marker reaches the spill adder, which starts the dump read of its spill list. -/
def execCloseMarkerArrive (k : Nat) (s : State) : Res := unitOk (k < 8) (s.run fun d => d.closeMarkerArrive k)

/-- DUMP_READ_RECORD (R183): A spill record of the closing parity is read and sent to egress with its routing key. -/
def execDumpReadRecord (p : Nat) (s : State) : Res := unitOk (p < 64) (s.run fun d => d.dumpReadRecord p)

/-- DRAIN_POST (R186): A whole-width write to DEV.DRAIN_AT posts, replaces or refuses a drain. -/
def execDrainPost (value : Nat) (s : State) : Res := .next (s.run fun d => d.drainPost value)

/-- VERDICT_POST (R201): A whole-width write to ISL_n.VERDICT_POST is checked and accepted, refused, ignored or overflowed. -/
def execVerdictPost (k : Nat) (value : Nat) (s : State) : Res := unitOk (k < 8) (s.runIsl k fun d => d.verdictPost k value)

/-- VERDICT_HANDLE (R203): The verdict unit takes an accepted verdict and, per panel, contaminates it, holds it or posts a RETRACT. -/
def execVerdictHandle (k : Nat) (s : State) : Res := unitOk (k < 8) (s.runIsl k fun d => d.verdictHandle k)

/-- BEAM_EMISSION (R221): An emission of a panel beam accumulator enters the island beam summer and is added into its staging entry. -/
def execBeamEmission (k : Nat) (s : State) : Res := unitOk (k < 8) (s.runIsl k fun d => d.beamEmission k)

/-- BEAM_SAMPLE_ARRIVE (R224): Voltage beam samples reach egress and are packed into TYPE 0 BEAM frames on their queue. -/
def execBeamSampleArrive (k : Nat) (s : State) : Res := unitOk (k < 8) (s.runEgr fun d => d.beamSampleArrive k)

/-- WEIGHT_COMMIT_POST (R233): A whole-width write to ISL_n.WEIGHT_COMMIT posts, replaces or refuses a weight-bank commit. -/
def execWeightCommitPost (k : Nat) (value : Nat) (s : State) : Res :=
  unitOk (k < 8) (s.runIsl k fun d => d.weightCommitPost k value)

/-- EGRESS_UNIT_ARRIVE (R240): A keyed unit reaches egress and is checked against its Product Routing Table entry. -/
def execEgressUnitArrive (src : Nat) (s : State) : Res := unitOk (src < 9) (s.runEgr fun d => d.egressUnitArrive src)

/-- CLOSE_NOTICE_ARRIVE (R248): A panel or memory-island close notice reaches egress and may complete the dump on a queue. -/
def execCloseNoticeArrive (src : Nat) (s : State) : Res := unitOk (src < 9) (s.runEgr fun d => d.closeNoticeArrive src)

/-- QUEUE_ENTRY (R250): A unit enters its queue when it fits the queue's share, or is held or dropped by POLICY. -/
def execQueueEntry (q : Nat) (s : State) : Res := unitOk (q < 4096) (s.runEgr fun d => d.queueEntry q)

/-- EGRESS_FRAME_DEAL (R251): A lane group deals the next whole frame to an UP, unpaused lane whose transmit buffer can take it. -/
def execEgressFrameDeal (g : Nat) (s : State) : Res := unitOk (g < 32) (s.runEgr fun d => d.egressFrameDeal g)

/-- RING_DESC_POLL (R256): A waiting ring writer rereads its descriptor every 256 egress cycles. -/
def execRingDescPoll (q : Nat) (s : State) : Res := unitOk (q < 4096) (s.runEgr fun d => d.ringPoll q)

/-- RING_KICK (R256): Writing EGR.RING_PTR.KICK makes the waiting ring writer reread its descriptor at once. -/
def execRingKick (q : Nat) (s : State) : Res := unitOk (q < 4096) (s.runEgr fun d => d.ringKick q)

/-- RING_WRITE_RESPONSE (R255): A ring buffer or descriptor write receives its response and the writer continues, completes or halts the descriptor. -/
def execRingWriteResponse (q : Nat) (s : State) : Res := unitOk (q < 4096) (s.runEgr fun d => d.ringResponse q)

/-- WIN_RELEASE (R260): Writing EGR.WIN_CTRL.RELEASE releases the presented dump and presents any waiting fill. -/
def execWinRelease (w : Nat) (s : State) : Res := unitOk (w < 16) (s.runEgr fun d => d.winRelease w)

/-- DRAIN_COMPLETE (R190): Every affected panel has passed its close point and retired its products, so DONE and DRAIN_DONE_AT are set. -/
def execDrainComplete (s : State) : Res := .next (s.run fun d => d.drainComplete)

/-- DUMP_MARKER_ARRIVE (R247): A dump marker reaches egress and takes the next dump sequence number. -/
def execDumpMarkerArrive (s : State) : Res := .next (s.runEgr fun d => d.dumpMarkerArrive)

/-- RELAY_FRAME_ARRIVE (R253): A PRODUCT or BEAM frame received on a C2C lane reaches egress and is relayed or discarded. -/
def execRelayFrameArrive (s : State) : Res := .next (s.runEgr fun d => d.relayFrameArrive)

end Sys2Proof.Machine
end

