-- ==== Sys2Proof/Machine/CmdRecorder.lean ====
section
/-! DEFINITION. The meanings of the commands: Recorder. Each one is the effect of its name in the machine, in the island it belongs to. -/
namespace Sys2Proof.Machine

/-- EVR_SOFTWARE_APPEND (R482): A whole-width write to EVR.APPEND appends a software record from SW_BUF, or is refused. -/
def execEvrSoftwareAppend (value : Nat) (s : State) : Res := .next (s.run fun d => d.evrSoftAppend value)

/-- PORST_FALL (R510): PORST_N falls; the recorder completes its byte program within 10 us and the device stops. -/
def execPorstFall (n : Nat) (s : State) : Res :=
  .next (if s.dev.up then { s with dev := s.dev.porstFall n } else s)

/-- EVR_APPEND_ARRIVE (R479): An event append reaches the recorder queue, or is lost and counted. -/
def execEvrAppendArrive (s : State) : Res :=
  .next (if !s.dev.up then s else match s.smu.appends with
    | [] => s.run fun d => d.evrAppendArrive
    | r :: t => { s with smu := { s.smu with appends := t } }.run fun d => d.evrEnqueue r.2)

/-- EVR_RECORD_PROGRAMMED (R477): A record finishes programming into the store. -/
def execEvrRecordProgrammed (s : State) : Res := .next (s.run fun d => d.evrProgrammed)

/-- EVR_BLOCK_ERASE_DONE (R477): A circular block finishes erasing and OLDEST moves on. -/
def execEvrBlockEraseDone (s : State) : Res := .next (s.run fun d => d.evrEraseDone)

/-- EVR_OP_TIME_SAVE (R476): Every 64 s the operating-time count is saved. -/
def execEvrOpTimeSave (s : State) : Res := .next (s.run fun d => d.evrOpTimeSave)

end Sys2Proof.Machine
end

