-- ==== Sys2Proof/Machine/CmdRegister.lean ====
section
/-! DEFINITION. The meanings of the commands: Register. Each one is the effect of its name in the machine, in the island it belongs to. -/
namespace Sys2Proof.Machine

/-- REGISTER_WRITE (R15): A write to a register field that has no row of its own takes effect according to its access type. -/
def execRegisterWrite (addr : Nat) (width : Nat) (value : Nat) (s : State) : Res :=
  .next (s.run fun d => d.busWrite addr width value)

/-- ISL_RESET_WRITE (R33): A write to DEV.ISL_RESET holds compute, ingest or egress islands in reset or releases them; ingest and egress bits are refused while a pattern is active. -/
def execIslResetWrite (value : Nat) (s : State) : Res := .next (s.run fun d => Dev.answered (d.islReset value))

end Sys2Proof.Machine
end

