-- ==== Sys2Proof/Machine/CmdSmu.lean ====
section
/-! DEFINITION. The meanings of the commands: Smu. Each one is the effect of its name in the machine, in the island it belongs to. -/
namespace Sys2Proof.Machine

/-- SMU_TAP_FRAME (R435): A frame reaches the SMU tap and its selected stream's samples are summed into the open SMU frame. -/
def execSmuTapFrame (full : Bool) (s : State) : Res :=
  .next (match s.dev.tap with
    | [] => s
    | f :: t => { s with dev := { s.dev with tap := t } }.runSmu fun u => u.tapFrame f full)

/-- SMU_FRAME_CLOSE_TIMEOUT (R437): CLOSE_MS pass without a sample of a stream and its SMU frame closes. -/
def execSmuFrameCloseTimeout (stream : Nat) (s : State) : Res := unitOk (stream < 8192) (s.runSmu fun u => u.closeTimeout stream)

/-- SMU_SPI_READ (R450): SPI command 0x0B reads SMU address space from the given address. -/
def execSmuSpiRead (addr : Nat) (n : Nat) (s : State) : Res := .next (s.runSmu fun u => u.spiRead addr n)

/-- SMU_SPI_WRITE (R450): SPI command 0x02 writes 32-bit words to SMU registers. -/
def execSmuSpiWrite (addr : Nat) (bytes : List Nat) (s : State) : Res := .next (s.runSmu fun u => u.spiWrite addr bytes)

/-- FW_START (R444): SMU.CMD FW_START hashes the loaded firmware image. -/
def execSmuFwStart (len : Nat) (s : State) : Res := .next (s.runSmu fun u => u.fwStart len)

/-- SEAL (R445): SMU.CMD SEAL seals the configuration, blowing a seal fuse, or is refused. -/
def execSmuSeal (check : Nat) (s : State) : Res := .next (s.runSmu fun u => u.sealCmd check)

/-- BREAK (R445): SMU.CMD BREAK breaks the seal, blowing a break fuse, or is refused. -/
def execSmuBreak (check : Nat) (s : State) : Res := .next (s.runSmu fun u => u.breakCmd check)

/-- SMU_POWER_ON (R447): VDD_SMU rises past its threshold, BOOT increases and the SMU enters FW_WAIT, loading a sealed configuration. -/
def execSmuPowerOn (good : Bool) (s : State) : Res := .next (s.runSmu fun u => u.powerOn good)

/-- SMU_POWER_RECORD_DUE (R442): CLOSE_MS after the first stream closed a frame the POWER records of that frame are made. -/
def execSmuPowerRecordDue (s : State) : Res := .next (s.runSmu fun u => u.powerDue)

/-- SMU_PPS_EDGE (R440): A rising edge of SMU_PPS_IN records CYCLES and REF_SC and checks time. -/
def execSmuPpsEdge (s : State) : Res := .next (s.runSmu fun u => u.ppsEdge)

/-- SMU_PPS_MISSING (R440): No SMU_PPS_IN edge within 1.5 s makes a PPS_MISSING record. -/
def execSmuPpsMissing (s : State) : Res := .next (s.runSmu fun u => u.ppsMissing)

/-- FW_CHECK_DONE (R444): The firmware hash completes and the SMU runs it or enters FW_BAD. -/
def execSmuFwCheckDone (s : State) : Res := .next (s.runSmu fun u => u.fwCheckDone)

/-- SMU_POWER_LOSS (R447): VDD_SMU falls below its threshold and the SMU stops. -/
def execSmuPowerLoss (s : State) : Res := .next (s.runSmu fun u => u.powerLoss)

/-- SMU_MIRROR_UPDATE (R449): An SMU mirror update reaches block SMU in the SoC and may set NOTE bits. -/
def execSmuMirrorUpdate (s : State) : Res :=
  .next (match s.link with
    | [] => s
    | i :: t => { s with link := t }.run fun d => d.mirrorUpdate s.smu i)

end Sys2Proof.Machine
end

