-- ==== Sys2Proof/Machine/CmdSoc.lean ====
section
/-! DEFINITION. The meanings of the commands: Soc. Each one is the effect of its name in the machine, in the island it belongs to. -/
namespace Sys2Proof.Machine

/-- CORE_HOLD_WRITE (R418): A write to DEV.CORE_CTRL.HOLD holds harts in reset or releases them at CORE_RVEC; holding all eight is refused. -/
def execCoreHoldWrite (value : Nat) (s : State) : Res := .next (s.run fun d => Dev.answered (d.coreHold value))

/-- INTC_CLAIM (R421): A read of INTC.CLAIM returns and claims the best qualifying pending source. -/
def execIntcClaim (c : Nat) (s : State) : Res := unitOk (c < 16) (s.run fun d => d.claimSource c)

/-- INTC_COMPLETE (R421): A write to INTC.COMPLETE completes a source claimed by the context. -/
def execIntcComplete (c : Nat) (src : Nat) (s : State) : Res := unitOk (c < 16) (s.run fun d => d.intcComplete c src)

/-- BOOT_SLOT_CHECK (R425): The boot ROM finishes reading and checking a flash slot and accepts or rejects it. -/
def execBootSlotCheck (img : List Nat) (s : State) : Res := .next (s.run fun d => d.bootSlotCheck img)

/-- QSPI_COMMAND (R428): A whole-width write to DEV.QSPI_CTRL with GO starts a flash command. -/
def execQspiCommand (value : Nat) (s : State) : Res := .next (s.run fun d => Dev.answered (d.qspiCommand value))

/-- QSPI_COMMAND_DONE (R428): A flash command finishes and GO reads 0. -/
def execQspiCommandDone (data : List Nat) (s : State) : Res := .next (s.run fun d => d.qspiDone data)

/-- MACHINE_TIMER_INTERRUPT (R423): HTIM.TIME reaches a hart's HTIM.CMP and that hart's machine timer interrupt becomes pending. -/
def execMachineTimerInterrupt (h : Nat) (s : State) : Res := unitOk (h < 8) (s.run fun d => d.timerInt h)

/-- POWER_ON_RESET (R509): PORST_N rises: fuses are read, repairs applied, PLLs locked, the recorder writes POWER_ON and the boot ROM runs. -/
def execPowerOnReset (s : State) : Res :=
  .next (if s.dev.up then s else
    { s with dev := s.dev.powerOnReset.irqSettle, link := if s.smu.up then [.refresh s.smu.refSc] else [] })

/-- SCRATCH_EXIT (R427): Writing DEV.L2_CTRL.SCRATCH starts the write-back of L2 scratch to SDRAM. -/
def execScratchExit (s : State) : Res := .next (s.run fun d => d.scratchExit)

/-- SCRATCH_WRITEBACK_DONE (R427): The scratch write-back ends, BUSY clears and the L2 operates as a cache. -/
def execScratchWritebackDone (s : State) : Res := .next (s.run fun d => d.scratchDone)

end Sys2Proof.Machine
end

