-- ==== Sys2Proof/Machine/CmdTap.lean ====
section
/-! DEFINITION. The meanings of the commands: Tap. Each one is the effect of its name in the machine, in the island it belongs to. -/
namespace Sys2Proof.Machine

/-- JTAG_SAMPLE (R524): TAP instruction SAMPLE captures the LVCMOS pins into the boundary register. -/
def execJtagSample (pins : Nat) (s : State) : Res := .next (s.run fun d => d.tapSample pins)

/-- JTAG_PRELOAD (R524): TAP instruction PRELOAD loads the boundary register. -/
def execJtagPreload (value : Nat) (s : State) : Res := .next (s.run fun d => d.tapPreload value)

/-- TAP_RESET (R524): TRST_N or PORST_N low holds the TAP in its reset state. -/
def execTapReset (low : Bool) (s : State) : Res := .next { s with dev := s.dev.tapReset low }

/-- JTAG_BYPASS (R524): TAP instruction BYPASS selects the bypass register. -/
def execJtagBypass (s : State) : Res := .next (s.run fun d => d.tapBypass)

/-- JTAG_IDCODE (R524): TAP instruction IDCODE returns 0x1560_409B. -/
def execJtagIdcode (s : State) : Res := .next (s.run fun d => d.tapIdcode)

/-- JTAG_EXTEST (R524): TAP instruction EXTEST drives the boundary register onto the pins. -/
def execJtagExtest (s : State) : Res := .next (s.run fun d => d.tapExtest)

end Sys2Proof.Machine
end

