-- ==== Sys2Proof/Machine/CmdTiming.lean ====
section
/-! DEFINITION. The meanings of the commands: Timing. Each one is the effect of its name in the machine, in the island it belongs to. -/
namespace Sys2Proof.Machine

/-- INCREMENT_WRITE (R387): A write to TIM.INCREMENT sets the rate, clamped, or is refused while HW_OWNS. -/
def execIncrementWrite (value : Nat) (s : State) : Res :=
  .next (s.run fun d => Dev.answered (d.incrementWrite value, !d.incrementAllowed))

/-- REFERENCE_EVALUATION (R395): Once per millisecond every reference is evaluated, qualified or disqualified, and selection runs. -/
def execReferenceEvaluation (act : Nat) (range : Nat) (lock : Bool) (freqs : List Int) (s : State) : Res :=
  .next (s.run fun d => d.referenceEvaluation act range lock freqs)

/-- QL_MESSAGE_RECEIVE (R392): A quality-line message is accepted and a repeated level takes effect. -/
def execQlMessageReceive (ql : Nat) (msg : Nat) (s : State) : Res := unitOk (ql < 4) (s.run fun d => d.qlMessage ql msg)

/-- QL_TIMEOUT (R392): No quality-line message for 500 ms sets the level to 15. -/
def execQlTimeout (ql : Nat) (s : State) : Res := unitOk (ql < 4) (s.run fun d => d.qlTimeout ql)

/-- PPS_EDGE (R404): A rising edge on PPS_A or PPS_B is measured, feeds the servo and may apply a pending load. -/
def execPpsEdge (p : Nat) (s : State) : Res := unitOk (p < 2) (s.run fun d => d.ppsEdge p)

/-- FRAME_OUT_ARM (R406): Setting FO_CFG.ARM makes a FRAME_OUT train start at the next align pulse. -/
def execFrameOutArm (k : Nat) (s : State) : Res := unitOk (k < 4) (s.run fun d => d.frameOutArm k)

/-- FRAME_OUT_PULSE (R406): A FRAME_OUT pulse rises at its scheduled device time and a time message is sent. -/
def execFrameOutPulse (k : Nat) (s : State) : Res := unitOk (k < 4) (s.run fun d => d.frameOutPulse k)

/-- PHASE_STEP (R407): A write to TIM.PHASE_STEP adds to the pending output phase. -/
def execPhaseStep (value : Nat) (s : State) : Res := .next (s.run fun d => d.phaseStep value)

/-- PTP_LANE_TX (R409): A whole-width write to PTP.LANE_TX sends a SYNC or DELAY_REQ on a lane, or is refused. -/
def execPtpLaneTx (value : Nat) (s : State) : Res := .next (s.run fun d => d.ptpLaneTx value)

/-- DELAY_RESP_SEND (R409): With AUTO_RESP a DELAY_RESP is sent within 32 blocks of a received DELAY_REQ. -/
def execDelayRespSend (n : Nat) (s : State) : Res := unitOk (n < 96) (s.runEgr fun d => d.delayRespSend n)

/-- LREF_QUALITY_TIMEOUT (R393): No QUALITY block on an LREF lane for 500 ms sets its quality to 15. -/
def execLrefQualityTimeout (k : Nat) (s : State) : Res := unitOk (k < 4) (s.run fun d => d.lrefTimeout k)

/-- TIME_LOAD_REQUEST (R388): Setting TIM.CTRL.LOAD requests a device-time load now or at the next PPS edge. -/
def execTimeLoadRequest (s : State) : Res := .next (s.run fun d => d.timeLoadRequest)

/-- TIME_SNAP (R389): Setting TIM.CTRL.SNAP copies device time into SNAP_SEC and SNAP_NSF. -/
def execTimeSnap (s : State) : Res := .next (s.run fun d => d.timeSnap)

/-- TIME_MESSAGE_SEND (R390): Every 64 timing cycles a time message is sent to every island except the SMU. -/
def execTimeMessageSend (s : State) : Res := .next (s.run fun d => d.timeMessage)

/-- EPOCH (R390): Device time crosses a whole second, an EPOCH time message is sent and PPS_OUT rises. -/
def execEpoch (s : State) : Res := .next (s.run fun d => d.epochMark)

/-- BUILD_OUT_END (R399): A switch's build-out time ends, the target's offset is taken and the unit enters LOCKED. -/
def execBuildOutEnd (s : State) : Res := .next (s.run fun d => d.buildOutEnd)

/-- QUALITY_SEND (R393): Every 100 ms a QUALITY block carrying QL_TX is sent on the due lanes. -/
def execQualitySend (s : State) : Res := .next (s.run fun d => d.qualitySend)

/-- PTP_WATCHDOG_EXPIRE (R394): WDOG seconds pass without a software write and the PTP reference is disqualified. -/
def execPtpWatchdogExpire (s : State) : Res := .next (s.run fun d => d.ptpWatchdogExpire)

/-- PHASE_SLEW (R407): The output phase moves toward the pending amount by at most 1 ns per 10 ms. -/
def execPhaseSlew (s : State) : Res := .next (s.run fun d => d.phaseSlew)

/-- TS_POP (R411): A read of PTP.TS_POP returns and removes the head time stamp and copies its times. -/
def execTsPop (s : State) : Res := .next (s.run fun d => d.popStamp)

end Sys2Proof.Machine
end

