-- ==== Sys2Proof/Machine/CmdWelt.lean ====
section
/-! DEFINITION. The meanings of the commands: Welt. Each one is the effect of its name in the machine, in the island it belongs to. -/
namespace Sys2Proof.Machine

/-- WELT_REQUEST (R360): A master issues a burst, which is refused if it crosses 4 KiB or held behind a same-tag request to another target. -/
def execWeltRequest (m : Nat) (tag : Nat) (write : Bool) (kind : Nat) (addr : Nat) (cells : List (Option Nat)) (s : State) : Res :=
  unitOk (weltMasterOk m) (s.run fun d => d.weltRequest m tag write kind addr cells)

/-- WELT_GRANT (R362): A free target port grants the waiting burst of highest class and lowest master ID. -/
def execWeltGrant (t : Nat) (s : State) : Res := unitOk (t < 7) (s.run fun d => d.weltGrant t)

/-- WELT_RESPONSE (R365): A burst's response returns to its master with its code. -/
def execWeltResponse (m : Nat) (tag : Nat) (ok : Bool) (data : List Nat) (s : State) : Res :=
  unitOk (weltMasterOk m) (s.run fun d => d.weltResponse m tag ok data)

/-- WELT_TIMEOUT (R367): A burst reaches WELT.TIMEOUT cycles without response and the master receives TIMEOUT. -/
def execWeltTimeout (m : Nat) (tag : Nat) (s : State) : Res := unitOk (weltMasterOk m) (s.run fun d => d.weltTimeout m tag)

/-- DMA_RUN (R371): Setting DMA.CH_CTRL.RUN starts a halted channel at INDEX. -/
def execDmaRun (c : Nat) (s : State) : Res := unitOk (c < 64) (s.run fun d => d.dmaRun c)

/-- DMA_ABORT (R379): Setting ABORT stops the channel issuing and completes the descriptor with ABORTED. -/
def execDmaAbort (c : Nat) (s : State) : Res := unitOk (c < 64) (s.run fun d => d.dmaAbort c)

/-- DMA_KICK (R371): Setting KICK makes a waiting channel reread its descriptor at once. -/
def execDmaKick (c : Nat) (s : State) : Res := unitOk (c < 64) (s.run fun d => d.dmaReread c)

/-- DMA_CH_CONFIG_WRITE (R379): A write to DMA.CH_CFG or DMA.CH_RING takes effect only while the channel is HALTED. -/
def execDmaChConfigWrite (c : Nat) (ring : Bool) (value : Nat) (s : State) : Res :=
  unitOk (c < 64) (s.run fun d => d.dmaConfigWrite c ring value)

/-- DMA_DESC_POLL (R371): A channel waiting for OWN rereads its descriptor every 256 Welt cycles. -/
def execDmaDescPoll (c : Nat) (s : State) : Res := unitOk (c < 64) (s.run fun d => d.dmaReread c)

/-- DMA_READ_DONE (R372): Descriptor, element-list or source read data arrive and the channel issues the next piece write. -/
def execDmaReadDone (c : Nat) (ok : Bool) (ext : List Nat) (s : State) : Res :=
  unitOk (c < 64) (s.run fun d => d.dmaReadDone c ok ext)

/-- DMA_WRITE_RESPONSE (R376): A DMA write burst receives its response and the element or descriptor advances. -/
def execDmaWriteResponse (c : Nat) (ok : Bool) (s : State) : Res := unitOk (c < 64) (s.run fun d => d.dmaWriteResponse c ok)

end Sys2Proof.Machine
end

