-- ==== Sys2Proof/Machine/Dispatch.lean ====
section
/-! DEFINITION. One arm per command, each a direct call of its meaning. -/
namespace Sys2Proof.Machine

/-- The effect of a command on everything but the queue. -/
def exec (i : Instr) (s : State) : Host.Outcome State Fault Refusal :=
  match i with
  | .registerWrite addr width value => Sys2Proof.Machine.execRegisterWrite addr width value s
  | .islResetWrite value => Sys2Proof.Machine.execIslResetWrite value s
  | .agCommitArm g => Sys2Proof.Machine.execAgCommitArm g s
  | .frameDeadline g => Sys2Proof.Machine.execFrameDeadline g s
  | .frameMarkerArrive k => Sys2Proof.Machine.execFrameMarkerArrive k s
  | .commitArrive k => Sys2Proof.Machine.execCommitArrive k s
  | .laneTrain n => Sys2Proof.Machine.execLaneTrain n s
  | .laneDisable n => Sys2Proof.Machine.execLaneDisable n s
  | .blockReceive n line => Sys2Proof.Machine.execBlockReceive n line s
  | .trainReceive n => Sys2Proof.Machine.execTrainReceive n s
  | .tapChangeApply n => Sys2Proof.Machine.execTapChangeApply n s
  | .trainRequestTimeout n => Sys2Proof.Machine.execTrainRequestTimeout n s
  | .trainingTimeout n => Sys2Proof.Machine.execTrainingTimeout n s
  | .lanePllUnlock n => Sys2Proof.Machine.execLanePllUnlock n s
  | .huntTimeout n => Sys2Proof.Machine.execHuntTimeout n s
  | .txIdleEntry n => Sys2Proof.Machine.execTxIdleEntry n s
  | .idleReceive n => Sys2Proof.Machine.execIdleReceive n s
  | .signalDetect n => Sys2Proof.Machine.execSignalDetect n s
  | .txWake n => Sys2Proof.Machine.execTxWake n s
  | .wakeLockTimeout n => Sys2Proof.Machine.execWakeLockTimeout n s
  | .blockTransmit n => Sys2Proof.Machine.execBlockTransmit n s
  | .prbsGenEn n on => Sys2Proof.Machine.execPrbsGenEn n on s
  | .prbsChkEn n on => Sys2Proof.Machine.execPrbsChkEn n on s
  | .prbsInject n => Sys2Proof.Machine.execPrbsInject n s
  | .prbsSnap n => Sys2Proof.Machine.execPrbsSnap n s
  | .prbsClear n => Sys2Proof.Machine.execPrbsClear n s
  | .prbsCheckerLock n => Sys2Proof.Machine.execPrbsCheckerLock n s
  | .prbsCheckerUnlock n => Sys2Proof.Machine.execPrbsCheckerUnlock n s
  | .laneRotationRemove n => Sys2Proof.Machine.execLaneRotationRemove n s
  | .timeReceive n => Sys2Proof.Machine.execTimeReceive n s
  | .qualityReceive n => Sys2Proof.Machine.execQualityReceive n s
  | .ackReceive n => Sys2Proof.Machine.execAckReceive n s
  | .nakReceive n => Sys2Proof.Machine.execNakReceive n s
  | .pauseReceive n => Sys2Proof.Machine.execPauseReceive n s
  | .pauseExpire n => Sys2Proof.Machine.execPauseExpire n s
  | .triggerReceive n => Sys2Proof.Machine.execTriggerReceive n s
  | .handoverReceive n => Sys2Proof.Machine.execHandoverReceive n s
  | .fstartReceive n => Sys2Proof.Machine.execFstartReceive n s
  | .fendReceive n => Sys2Proof.Machine.execFendReceive n s
  | .dataBlockReceive n => Sys2Proof.Machine.execDataBlockReceive n s
  | .ackSend n => Sys2Proof.Machine.execAckSend n s
  | .nakRepeat n => Sys2Proof.Machine.execNakRepeat n s
  | .ackWaitTimeout n => Sys2Proof.Machine.execAckWaitTimeout n s
  | .replayExhausted n => Sys2Proof.Machine.execReplayExhausted n s
  | .slotCommitPost value => Sys2Proof.Machine.execSlotCommitPost value s
  | .statRecordDeliver k => Sys2Proof.Machine.execStatRecordDeliver k s
  | .ctWriteSend c => Sys2Proof.Machine.execCtWriteSend c s
  | .ctWriteCommit c ns => Sys2Proof.Machine.execCtWriteCommit c ns s
  | .fillUnitRead k => Sys2Proof.Machine.execFillUnitRead k s
  | .fillUnitComplete k => Sys2Proof.Machine.execFillUnitComplete k s
  | .pnlNop p => Sys2Proof.Machine.execPnlNop p s
  | .pnlSeta p => Sys2Proof.Machine.execPnlSeta p s
  | .pnlSetah p => Sys2Proof.Machine.execPnlSetah p s
  | .pnlAdda p => Sys2Proof.Machine.execPnlAdda p s
  | .pnlSett p => Sys2Proof.Machine.execPnlSett p s
  | .pnlSetrp p => Sys2Proof.Machine.execPnlSetrp p s
  | .pnlOpen p => Sys2Proof.Machine.execPnlOpen p s
  | .pnlSpill p => Sys2Proof.Machine.execPnlSpill p s
  | .pnlDump p => Sys2Proof.Machine.execPnlDump p s
  | .pnlClear p => Sys2Proof.Machine.execPnlClear p s
  | .pnlPromote p => Sys2Proof.Machine.execPnlPromote p s
  | .pnlLoadw p => Sys2Proof.Machine.execPnlLoadw p s
  | .pnlBr p => Sys2Proof.Machine.execPnlBr p s
  | .pnlBnz p => Sys2Proof.Machine.execPnlBnz p s
  | .pnlRepeat p => Sys2Proof.Machine.execPnlRepeat p s
  | .pnlWaitu p => Sys2Proof.Machine.execPnlWaitu p s
  | .pnlRelu p => Sys2Proof.Machine.execPnlRelu p s
  | .pnlFmark p => Sys2Proof.Machine.execPnlFmark p s
  | .pnlSvcret p => Sys2Proof.Machine.execPnlSvcret p s
  | .pnlHalt p => Sys2Proof.Machine.execPnlHalt p s
  | .arrayNop p => Sys2Proof.Machine.execArrayNop p s
  | .arrAcc p upset => Sys2Proof.Machine.execArrAcc p upset s
  | .arrRetr p upset => Sys2Proof.Machine.execArrRetr p upset s
  | .arrZacc p => Sys2Proof.Machine.execArrZacc p s
  | .arrZshift p => Sys2Proof.Machine.execArrZshift p s
  | .arrBeamv p => Sys2Proof.Machine.execArrBeamv p s
  | .arrBeamd p => Sys2Proof.Machine.execArrBeamd p s
  | .planeBufferFree p => Sys2Proof.Machine.execPlaneBufferFree p s
  | .promoteAddComplete p => Sys2Proof.Machine.execPromoteAddComplete p s
  | .loadwComplete p slot => Sys2Proof.Machine.execLoadwComplete p slot s
  | .serviceEntry p => Sys2Proof.Machine.execServiceEntry p s
  | .slotWaitExpire p => Sys2Proof.Machine.execSlotWaitExpire p s
  | .spillPlaneArrive k => Sys2Proof.Machine.execSpillPlaneArrive k s
  | .spillWriteDone p => Sys2Proof.Machine.execSpillWriteDone p s
  | .closeMarkerArrive k => Sys2Proof.Machine.execCloseMarkerArrive k s
  | .dumpReadRecord p => Sys2Proof.Machine.execDumpReadRecord p s
  | .drainPost value => Sys2Proof.Machine.execDrainPost value s
  | .verdictPost k value => Sys2Proof.Machine.execVerdictPost k value s
  | .verdictHandle k => Sys2Proof.Machine.execVerdictHandle k s
  | .beamEmission k => Sys2Proof.Machine.execBeamEmission k s
  | .beamSampleArrive k => Sys2Proof.Machine.execBeamSampleArrive k s
  | .weightCommitPost k value => Sys2Proof.Machine.execWeightCommitPost k value s
  | .egressUnitArrive src => Sys2Proof.Machine.execEgressUnitArrive src s
  | .closeNoticeArrive src => Sys2Proof.Machine.execCloseNoticeArrive src s
  | .queueEntry q => Sys2Proof.Machine.execQueueEntry q s
  | .egressFrameDeal g => Sys2Proof.Machine.execEgressFrameDeal g s
  | .ringDescPoll q => Sys2Proof.Machine.execRingDescPoll q s
  | .ringKick q => Sys2Proof.Machine.execRingKick q s
  | .ringWriteResponse q => Sys2Proof.Machine.execRingWriteResponse q s
  | .winRelease w => Sys2Proof.Machine.execWinRelease w s
  | .patternLoadDone ok ext => Sys2Proof.Machine.execPatternLoadDone ok ext s
  | .activatePost value => Sys2Proof.Machine.execActivatePost value s
  | .stopPost value => Sys2Proof.Machine.execStopPost value s
  | .testFrameGenerate g => Sys2Proof.Machine.execTestFrameGenerate g s
  | .awlLdw n slot => Sys2Proof.Machine.execAwlLdw n slot s
  | .awlLdh n slot => Sys2Proof.Machine.execAwlLdh n slot s
  | .awlLdhs n slot => Sys2Proof.Machine.execAwlLdhs n slot s
  | .awlStw n slot => Sys2Proof.Machine.execAwlStw n slot s
  | .awlSth n slot => Sys2Proof.Machine.execAwlSth n slot s
  | .awlNop n => Sys2Proof.Machine.execAwlNop n s
  | .awlMac n => Sys2Proof.Machine.execAwlMac n s
  | .awlMsu n => Sys2Proof.Machine.execAwlMsu n s
  | .awlMpy n => Sys2Proof.Machine.execAwlMpy n s
  | .awlMova n => Sys2Proof.Machine.execAwlMova n s
  | .awlAdda n => Sys2Proof.Machine.execAwlAdda n s
  | .awlInsh n => Sys2Proof.Machine.execAwlInsh n s
  | .awlIns24 n => Sys2Proof.Machine.execAwlIns24 n s
  | .awlSha n => Sys2Proof.Machine.execAwlSha n s
  | .awlMovx n => Sys2Proof.Machine.execAwlMovx n s
  | .awlMovxl n => Sys2Proof.Machine.execAwlMovxl n s
  | .awlMovxm n => Sys2Proof.Machine.execAwlMovxm n s
  | .awlMovxh n => Sys2Proof.Machine.execAwlMovxh n s
  | .awlAddac n => Sys2Proof.Machine.execAwlAddac n s
  | .awlAdd n => Sys2Proof.Machine.execAwlAdd n s
  | .awlSub n => Sys2Proof.Machine.execAwlSub n s
  | .awlAnd n => Sys2Proof.Machine.execAwlAnd n s
  | .awlOr n => Sys2Proof.Machine.execAwlOr n s
  | .awlXor n => Sys2Proof.Machine.execAwlXor n s
  | .awlAddi n => Sys2Proof.Machine.execAwlAddi n s
  | .awlShi n => Sys2Proof.Machine.execAwlShi n s
  | .awlLi n => Sys2Proof.Machine.execAwlLi n s
  | .awlLui n => Sys2Proof.Machine.execAwlLui n s
  | .awlMaxx n => Sys2Proof.Machine.execAwlMaxx n s
  | .awlMinx n => Sys2Proof.Machine.execAwlMinx n s
  | .awlMaxa n => Sys2Proof.Machine.execAwlMaxa n s
  | .awlMina n => Sys2Proof.Machine.execAwlMina n s
  | .awlMovs n => Sys2Proof.Machine.execAwlMovs n s
  | .awlMovts n => Sys2Proof.Machine.execAwlMovts n s
  | .awlBr n => Sys2Proof.Machine.execAwlBr n s
  | .awlBeqz n => Sys2Proof.Machine.execAwlBeqz n s
  | .awlBnez n => Sys2Proof.Machine.execAwlBnez n s
  | .awlBltz n => Sys2Proof.Machine.execAwlBltz n s
  | .awlBgez n => Sys2Proof.Machine.execAwlBgez n s
  | .awlCall n => Sys2Proof.Machine.execAwlCall n s
  | .awlRet n => Sys2Proof.Machine.execAwlRet n s
  | .awlLoop n => Sys2Proof.Machine.execAwlLoop n s
  | .awlLoopr n => Sys2Proof.Machine.execAwlLoopr n s
  | .awlRep n => Sys2Proof.Machine.execAwlRep n s
  | .awlRte n => Sys2Proof.Machine.execAwlRte n s
  | .awlIor n => Sys2Proof.Machine.execAwlIor n s
  | .awlIow n => Sys2Proof.Machine.execAwlIow n s
  | .awlIora n => Sys2Proof.Machine.execAwlIora n s
  | .awlIowa n => Sys2Proof.Machine.execAwlIowa n s
  | .awlPostv n => Sys2Proof.Machine.execAwlPostv n s
  | .awlWait n => Sys2Proof.Machine.execAwlWait n s
  | .awlTrap n => Sys2Proof.Machine.execAwlTrap n s
  | .awlHalt n => Sys2Proof.Machine.execAwlHalt n s
  | .awlExceptionEntry n => Sys2Proof.Machine.execAwlExceptionEntry n s
  | .awlWaitWake n => Sys2Proof.Machine.execAwlWaitWake n s
  | .awlRun n => Sys2Proof.Machine.execAwlRun n s
  | .awlCtrlHalt n => Sys2Proof.Machine.execAwlCtrlHalt n s
  | .awlReset n => Sys2Proof.Machine.execAwlReset n s
  | .awlStep n => Sys2Proof.Machine.execAwlStep n s
  | .doorbellRing n => Sys2Proof.Machine.execDoorbellRing n s
  | .xferGo n value => Sys2Proof.Machine.execXferGo n value s
  | .xferEnd n ok ext => Sys2Proof.Machine.execXferEnd n ok ext s
  | .captureSampleArrive full => Sys2Proof.Machine.execCaptureSampleArrive full s
  | .trigSw value => Sys2Proof.Machine.execTrigSw value s
  | .regionRelease r => Sys2Proof.Machine.execRegionRelease r s
  | .pcieRetrain p => Sys2Proof.Machine.execPcieRetrain p s
  | .pcieLinkDown p => Sys2Proof.Machine.execPcieLinkDown p s
  | .pcieInboundRequest p tag write bus cells => Sys2Proof.Machine.execPcieInboundRequest p tag write bus cells s
  | .pcieCompletionTimeout p => Sys2Proof.Machine.execPcieCompletionTimeout p s
  | .channelTrain c => Sys2Proof.Machine.execChannelTrain c s
  | .channelTrainingDone c code => Sys2Proof.Machine.execChannelTrainingDone c code s
  | .channelTrainingTimeout c => Sys2Proof.Machine.execChannelTrainingTimeout c s
  | .memRequestIssue c => Sys2Proof.Machine.execMemRequestIssue c s
  | .memTransferDone c fails ecc beat => Sys2Proof.Machine.execMemTransferDone c fails ecc beat s
  | .refreshDue c => Sys2Proof.Machine.execRefreshDue c s
  | .scrubRead c ecc => Sys2Proof.Machine.execScrubRead c ecc s
  | .scrubWriteback c => Sys2Proof.Machine.execScrubWriteback c s
  | .onchipScrub mem outcome => Sys2Proof.Machine.execOnchipScrub mem outcome s
  | .ilvMaskWrite mask => Sys2Proof.Machine.execIlvMaskWrite mask s
  | .repairProgram value => Sys2Proof.Machine.execRepairProgram value s
  | .weltRequest m tag write kind addr cells => Sys2Proof.Machine.execWeltRequest m tag write kind addr cells s
  | .weltGrant t => Sys2Proof.Machine.execWeltGrant t s
  | .weltResponse m tag ok data => Sys2Proof.Machine.execWeltResponse m tag ok data s
  | .weltTimeout m tag => Sys2Proof.Machine.execWeltTimeout m tag s
  | .dmaRun c => Sys2Proof.Machine.execDmaRun c s
  | .dmaAbort c => Sys2Proof.Machine.execDmaAbort c s
  | .dmaKick c => Sys2Proof.Machine.execDmaKick c s
  | .dmaChConfigWrite c ring value => Sys2Proof.Machine.execDmaChConfigWrite c ring value s
  | .dmaDescPoll c => Sys2Proof.Machine.execDmaDescPoll c s
  | .dmaReadDone c ok ext => Sys2Proof.Machine.execDmaReadDone c ok ext s
  | .dmaWriteResponse c ok => Sys2Proof.Machine.execDmaWriteResponse c ok s
  | .incrementWrite value => Sys2Proof.Machine.execIncrementWrite value s
  | .referenceEvaluation act range lock freqs => Sys2Proof.Machine.execReferenceEvaluation act range lock freqs s
  | .qlMessageReceive ql msg => Sys2Proof.Machine.execQlMessageReceive ql msg s
  | .qlTimeout ql => Sys2Proof.Machine.execQlTimeout ql s
  | .ppsEdge p => Sys2Proof.Machine.execPpsEdge p s
  | .frameOutArm k => Sys2Proof.Machine.execFrameOutArm k s
  | .frameOutPulse k => Sys2Proof.Machine.execFrameOutPulse k s
  | .phaseStep value => Sys2Proof.Machine.execPhaseStep value s
  | .ptpLaneTx value => Sys2Proof.Machine.execPtpLaneTx value s
  | .delayRespSend n => Sys2Proof.Machine.execDelayRespSend n s
  | .coreHoldWrite value => Sys2Proof.Machine.execCoreHoldWrite value s
  | .intcClaim c => Sys2Proof.Machine.execIntcClaim c s
  | .intcComplete c src => Sys2Proof.Machine.execIntcComplete c src s
  | .bootSlotCheck img => Sys2Proof.Machine.execBootSlotCheck img s
  | .qspiCommand value => Sys2Proof.Machine.execQspiCommand value s
  | .qspiCommandDone data => Sys2Proof.Machine.execQspiCommandDone data s
  | .mgmtEnable on => Sys2Proof.Machine.execMgmtEnable on s
  | .mgmtRingWrite r value => Sys2Proof.Machine.execMgmtRingWrite r value s
  | .mgmtKick r => Sys2Proof.Machine.execMgmtKick r s
  | .mgmtDescPoll r => Sys2Proof.Machine.execMgmtDescPoll r s
  | .mgmtFrameReceive bytes => Sys2Proof.Machine.execMgmtFrameReceive bytes s
  | .mgmtLinkChange up speed half => Sys2Proof.Machine.execMgmtLinkChange up speed half s
  | .mdioDone data => Sys2Proof.Machine.execMdioDone data s
  | .smuTapFrame full => Sys2Proof.Machine.execSmuTapFrame full s
  | .smuFrameCloseTimeout stream => Sys2Proof.Machine.execSmuFrameCloseTimeout stream s
  | .smuSpiRead addr n => Sys2Proof.Machine.execSmuSpiRead addr n s
  | .smuSpiWrite addr bytes => Sys2Proof.Machine.execSmuSpiWrite addr bytes s
  | .smuFwStart len => Sys2Proof.Machine.execSmuFwStart len s
  | .smuSeal check => Sys2Proof.Machine.execSmuSeal check s
  | .smuBreak check => Sys2Proof.Machine.execSmuBreak check s
  | .smuPowerOn good => Sys2Proof.Machine.execSmuPowerOn good s
  | .monSourceSample o => Sys2Proof.Machine.execMonSourceSample o s
  | .monOutputFrame o => Sys2Proof.Machine.execMonOutputFrame o s
  | .monStart o => Sys2Proof.Machine.execMonStart o s
  | .monStop o => Sys2Proof.Machine.execMonStop o s
  | .monConfigWrite o src value => Sys2Proof.Machine.execMonConfigWrite o src value s
  | .monInFrame start a b mark => Sys2Proof.Machine.execMonInFrame start a b mark s
  | .hkConversionDone code => Sys2Proof.Machine.execHkConversionDone code s
  | .hkUrgentRequest input => Sys2Proof.Machine.execHkUrgentRequest input s
  | .evrSoftwareAppend value => Sys2Proof.Machine.execEvrSoftwareAppend value s
  | .porstFall n => Sys2Proof.Machine.execPorstFall n s
  | .foReqChange low => Sys2Proof.Machine.execFoReqChange low s
  | .handoverGapEnd blocks => Sys2Proof.Machine.execHandoverGapEnd blocks s
  | .jtagSample pins => Sys2Proof.Machine.execJtagSample pins s
  | .jtagPreload value => Sys2Proof.Machine.execJtagPreload value s
  | .tapReset low => Sys2Proof.Machine.execTapReset low s
  | .lossOfSignal n => Sys2Proof.Machine.execLossOfSignal n s
  | .lanePllLock n => Sys2Proof.Machine.execLanePllLock n s
  | .prbsCounterSaturate n => Sys2Proof.Machine.execPrbsCounterSaturate n s
  | .pcieLinkUp p speed width => Sys2Proof.Machine.execPcieLinkUp p speed width s
  | .urgencyRise c idx => Sys2Proof.Machine.execUrgencyRise c idx s
  | .rowIdleClose c bank => Sys2Proof.Machine.execRowIdleClose c bank s
  | .lrefQualityTimeout k => Sys2Proof.Machine.execLrefQualityTimeout k s
  | .pcieAerMessage p => Sys2Proof.Machine.execPcieAerMessage p s
  | .machineTimerInterrupt h => Sys2Proof.Machine.execMachineTimerInterrupt h s
  | .drainComplete => Sys2Proof.Machine.execDrainComplete s
  | .dumpMarkerArrive => Sys2Proof.Machine.execDumpMarkerArrive s
  | .relayFrameArrive => Sys2Proof.Machine.execRelayFrameArrive s
  | .patternLoad => Sys2Proof.Machine.execPatternLoad s
  | .patternCancel => Sys2Proof.Machine.execPatternCancel s
  | .reqSigSet => Sys2Proof.Machine.execReqSigSet s
  | .keyLockSet => Sys2Proof.Machine.execKeyLockSet s
  | .coldActivationComplete => Sys2Proof.Machine.execColdActivationComplete s
  | .swapComplete => Sys2Proof.Machine.execSwapComplete s
  | .stopComplete => Sys2Proof.Machine.execStopComplete s
  | .captureHeaderWrite => Sys2Proof.Machine.execCaptureHeaderWrite s
  | .captureTrigger => Sys2Proof.Machine.execCaptureTrigger s
  | .trigInEdge => Sys2Proof.Machine.execTrigInEdge s
  | .repairDone => Sys2Proof.Machine.execRepairDone s
  | .timeLoadRequest => Sys2Proof.Machine.execTimeLoadRequest s
  | .timeSnap => Sys2Proof.Machine.execTimeSnap s
  | .timeMessageSend => Sys2Proof.Machine.execTimeMessageSend s
  | .epoch => Sys2Proof.Machine.execEpoch s
  | .buildOutEnd => Sys2Proof.Machine.execBuildOutEnd s
  | .qualitySend => Sys2Proof.Machine.execQualitySend s
  | .ptpWatchdogExpire => Sys2Proof.Machine.execPtpWatchdogExpire s
  | .phaseSlew => Sys2Proof.Machine.execPhaseSlew s
  | .tsPop => Sys2Proof.Machine.execTsPop s
  | .powerOnReset => Sys2Proof.Machine.execPowerOnReset s
  | .scratchExit => Sys2Proof.Machine.execScratchExit s
  | .scratchWritebackDone => Sys2Proof.Machine.execScratchWritebackDone s
  | .mgmtRxNodescTimeout => Sys2Proof.Machine.execMgmtRxNodescTimeout s
  | .mgmtFrameTransmit => Sys2Proof.Machine.execMgmtFrameTransmit s
  | .mdioFrame => Sys2Proof.Machine.execMdioFrame s
  | .smuPowerRecordDue => Sys2Proof.Machine.execSmuPowerRecordDue s
  | .smuPpsEdge => Sys2Proof.Machine.execSmuPpsEdge s
  | .smuPpsMissing => Sys2Proof.Machine.execSmuPpsMissing s
  | .smuFwCheckDone => Sys2Proof.Machine.execSmuFwCheckDone s
  | .smuPowerLoss => Sys2Proof.Machine.execSmuPowerLoss s
  | .smuMirrorUpdate => Sys2Proof.Machine.execSmuMirrorUpdate s
  | .thermTrip => Sys2Proof.Machine.execThermTrip s
  | .evrAppendArrive => Sys2Proof.Machine.execEvrAppendArrive s
  | .evrRecordProgrammed => Sys2Proof.Machine.execEvrRecordProgrammed s
  | .evrBlockEraseDone => Sys2Proof.Machine.execEvrBlockEraseDone s
  | .evrOpTimeSave => Sys2Proof.Machine.execEvrOpTimeSave s
  | .handoverRepeat => Sys2Proof.Machine.execHandoverRepeat s
  | .handoverWaitExpire => Sys2Proof.Machine.execHandoverWaitExpire s
  | .foReleaseComplete => Sys2Proof.Machine.execFoReleaseComplete s
  | .jtagBypass => Sys2Proof.Machine.execJtagBypass s
  | .jtagIdcode => Sys2Proof.Machine.execJtagIdcode s
  | .jtagExtest => Sys2Proof.Machine.execJtagExtest s

end Sys2Proof.Machine
end

