-- ==== Sys2Proof/WellFormed.lean ====
section
/-! DEFINITION. Which operands a command can have: a unit that exists, and values of the width the spec gives them. -/
namespace Sys2Proof

/-- A Welt master (R359): 6 and 7 do not exist. -/
def masterOk (m : Nat) : Bool := m ≤ 5 || (8 ≤ m && m ≤ 15)

/-- A lane, island, panel or Awl core exists (R5). -/
def laneOk (n : Nat) : Bool := n < 96
def islOk (k : Nat) : Bool := k < 8
def panelOk (p : Nat) : Bool := p < 64
def coreOk (n : Nat) : Bool := n < 16

/-- Every number is a byte. -/
def bytesOk (l : List Nat) : Bool := l.all (· < 256)

/-- Whether a command is well formed. -/
def Instr.wellFormed (i : Instr) : Bool :=
  match i with
  | .registerWrite _ width value => (width == 32||width == 64) && decide (value < 2 ^ width)
  | .islResetWrite value => decide (value < 1024)
  | .agCommitArm g => decide (g < 64)
  | .frameDeadline g => decide (g < 64)
  | .frameMarkerArrive k => islOk k
  | .commitArrive k => islOk k
  | .laneTrain n => laneOk n
  | .laneDisable n => laneOk n
  | .blockReceive n _ => laneOk n
  | .trainReceive n => laneOk n
  | .tapChangeApply n => laneOk n
  | .trainRequestTimeout n => laneOk n
  | .trainingTimeout n => laneOk n
  | .lanePllUnlock n => laneOk n
  | .huntTimeout n => laneOk n
  | .txIdleEntry n => laneOk n
  | .idleReceive n => laneOk n
  | .signalDetect n => laneOk n
  | .txWake n => laneOk n
  | .wakeLockTimeout n => laneOk n
  | .blockTransmit n => laneOk n
  | .prbsGenEn n _ => laneOk n
  | .prbsChkEn n _ => laneOk n
  | .prbsInject n => laneOk n
  | .prbsSnap n => laneOk n
  | .prbsClear n => laneOk n
  | .prbsCheckerLock n => laneOk n
  | .prbsCheckerUnlock n => laneOk n
  | .laneRotationRemove n => laneOk n
  | .timeReceive n => laneOk n
  | .qualityReceive n => laneOk n
  | .ackReceive n => laneOk n
  | .nakReceive n => laneOk n
  | .pauseReceive n => laneOk n
  | .pauseExpire n => laneOk n
  | .triggerReceive n => laneOk n
  | .handoverReceive n => laneOk n
  | .fstartReceive n => laneOk n
  | .fendReceive n => laneOk n
  | .dataBlockReceive n => laneOk n
  | .ackSend n => laneOk n
  | .nakRepeat n => laneOk n
  | .ackWaitTimeout n => laneOk n
  | .replayExhausted n => laneOk n
  | .slotCommitPost value => decide (value < 2 ^ 64)
  | .statRecordDeliver k => islOk k
  | .ctWriteSend c => decide (c < 12)
  | .ctWriteCommit c _ => decide (c < 12)
  | .fillUnitRead k => islOk k
  | .fillUnitComplete k => islOk k
  | .pnlNop p => panelOk p
  | .pnlSeta p => panelOk p
  | .pnlSetah p => panelOk p
  | .pnlAdda p => panelOk p
  | .pnlSett p => panelOk p
  | .pnlSetrp p => panelOk p
  | .pnlOpen p => panelOk p
  | .pnlSpill p => panelOk p
  | .pnlDump p => panelOk p
  | .pnlClear p => panelOk p
  | .pnlPromote p => panelOk p
  | .pnlLoadw p => panelOk p
  | .pnlBr p => panelOk p
  | .pnlBnz p => panelOk p
  | .pnlRepeat p => panelOk p
  | .pnlWaitu p => panelOk p
  | .pnlRelu p => panelOk p
  | .pnlFmark p => panelOk p
  | .pnlSvcret p => panelOk p
  | .pnlHalt p => panelOk p
  | .arrayNop p => panelOk p
  | .arrAcc p _ => panelOk p
  | .arrRetr p _ => panelOk p
  | .arrZacc p => panelOk p
  | .arrZshift p => panelOk p
  | .arrBeamv p => panelOk p
  | .arrBeamd p => panelOk p
  | .planeBufferFree p => panelOk p
  | .promoteAddComplete p => panelOk p
  | .loadwComplete p slot => panelOk p && decide (slot < 32)
  | .serviceEntry p => panelOk p
  | .slotWaitExpire p => panelOk p
  | .spillPlaneArrive k => islOk k
  | .spillWriteDone p => panelOk p
  | .closeMarkerArrive k => islOk k
  | .dumpReadRecord p => panelOk p
  | .drainPost value => decide (value < 2 ^ 64)
  | .verdictPost k value => islOk k && decide (value < 2 ^ 64)
  | .verdictHandle k => islOk k
  | .beamEmission k => islOk k
  | .beamSampleArrive k => islOk k
  | .weightCommitPost k value => islOk k && decide (value < 2 ^ 64)
  | .egressUnitArrive src => decide (src < 9)
  | .closeNoticeArrive src => decide (src < 9)
  | .queueEntry q => decide (q < 4096)
  | .egressFrameDeal g => decide (g < 32)
  | .ringDescPoll q => decide (q < 4096)
  | .ringKick q => decide (q < 4096)
  | .ringWriteResponse q => decide (q < 4096)
  | .winRelease w => decide (w < 16)
  | .patternLoadDone _ ext => bytesOk ext
  | .activatePost value => decide (value < 2 ^ 64)
  | .stopPost value => decide (value < 2 ^ 64)
  | .testFrameGenerate g => decide (g < 64)
  | .awlLdw n slot => coreOk n && decide (slot < 2)
  | .awlLdh n slot => coreOk n && decide (slot < 2)
  | .awlLdhs n slot => coreOk n && decide (slot < 2)
  | .awlStw n slot => coreOk n && decide (slot < 2)
  | .awlSth n slot => coreOk n && decide (slot < 2)
  | .awlNop n => coreOk n
  | .awlMac n => coreOk n
  | .awlMsu n => coreOk n
  | .awlMpy n => coreOk n
  | .awlMova n => coreOk n
  | .awlAdda n => coreOk n
  | .awlInsh n => coreOk n
  | .awlIns24 n => coreOk n
  | .awlSha n => coreOk n
  | .awlMovx n => coreOk n
  | .awlMovxl n => coreOk n
  | .awlMovxm n => coreOk n
  | .awlMovxh n => coreOk n
  | .awlAddac n => coreOk n
  | .awlAdd n => coreOk n
  | .awlSub n => coreOk n
  | .awlAnd n => coreOk n
  | .awlOr n => coreOk n
  | .awlXor n => coreOk n
  | .awlAddi n => coreOk n
  | .awlShi n => coreOk n
  | .awlLi n => coreOk n
  | .awlLui n => coreOk n
  | .awlMaxx n => coreOk n
  | .awlMinx n => coreOk n
  | .awlMaxa n => coreOk n
  | .awlMina n => coreOk n
  | .awlMovs n => coreOk n
  | .awlMovts n => coreOk n
  | .awlBr n => coreOk n
  | .awlBeqz n => coreOk n
  | .awlBnez n => coreOk n
  | .awlBltz n => coreOk n
  | .awlBgez n => coreOk n
  | .awlCall n => coreOk n
  | .awlRet n => coreOk n
  | .awlLoop n => coreOk n
  | .awlLoopr n => coreOk n
  | .awlRep n => coreOk n
  | .awlRte n => coreOk n
  | .awlIor n => coreOk n
  | .awlIow n => coreOk n
  | .awlIora n => coreOk n
  | .awlIowa n => coreOk n
  | .awlPostv n => coreOk n
  | .awlWait n => coreOk n
  | .awlTrap n => coreOk n
  | .awlHalt n => coreOk n
  | .awlExceptionEntry n => coreOk n
  | .awlWaitWake n => coreOk n
  | .awlRun n => coreOk n
  | .awlCtrlHalt n => coreOk n
  | .awlReset n => coreOk n
  | .awlStep n => coreOk n
  | .doorbellRing n => coreOk n
  | .xferGo n value => coreOk n && decide (value < 2 ^ 56)
  | .xferEnd n _ _ => coreOk n
  | .captureSampleArrive _ => true
  | .trigSw value => decide (value < 2 ^ 64)
  | .regionRelease r => decide (r < 8)
  | .pcieRetrain p => decide (p < 4)
  | .pcieLinkDown p => decide (p < 4)
  | .pcieInboundRequest p _ _ _ _ => decide (p < 4)
  | .pcieCompletionTimeout p => decide (p < 4)
  | .channelTrain c => decide (c < 12)
  | .channelTrainingDone c code => decide (c < 12) && decide (1 ≤ code ∧ code ≤ 5)
  | .channelTrainingTimeout c => decide (c < 12)
  | .memRequestIssue c => decide (c < 12)
  | .memTransferDone c fails ecc _ => decide (c < 12) && decide (fails ≤ 4 ∧ ecc ≤ 2)
  | .refreshDue c => decide (c < 12)
  | .scrubRead c ecc => decide (c < 12) && decide (ecc ≤ 2)
  | .scrubWriteback c => decide (c < 12)
  | .onchipScrub mem outcome => decide (mem < 256) && decide (outcome < 2 ^ 16)
  | .ilvMaskWrite mask => decide (mask < 4096)
  | .repairProgram value => decide (value < 2 ^ 64)
  | .weltRequest m _ _ _ _ _ => masterOk m
  | .weltGrant t => decide (t < 7)
  | .weltResponse m _ _ _ => masterOk m
  | .weltTimeout m _ => masterOk m
  | .dmaRun c => decide (c < 64)
  | .dmaAbort c => decide (c < 64)
  | .dmaKick c => decide (c < 64)
  | .dmaChConfigWrite c ring value => decide (c < 64) && decide (value < if ring then 2 ^ 64 else 2 ^ 32)
  | .dmaDescPoll c => decide (c < 64)
  | .dmaReadDone c _ _ => decide (c < 64)
  | .dmaWriteResponse c _ => decide (c < 64)
  | .incrementWrite value => decide (value < 2 ^ 64)
  | .referenceEvaluation _ _ _ _ => true
  | .qlMessageReceive ql _ => decide (ql < 4)
  | .qlTimeout ql => decide (ql < 4)
  | .ppsEdge p => decide (p < 2)
  | .frameOutArm k => decide (k < 4)
  | .frameOutPulse k => decide (k < 4)
  | .phaseStep value => decide (value < 2 ^ 32)
  | .ptpLaneTx value => decide (value < 2 ^ 64)
  | .delayRespSend n => laneOk n
  | .coreHoldWrite value => decide (value < 256)
  | .intcClaim c => decide (c < 16)
  | .intcComplete c _ => decide (c < 16)
  | .bootSlotCheck img => bytesOk img
  | .qspiCommand value => decide (value < 2 ^ 64)
  | .qspiCommandDone data => bytesOk data
  | .mgmtEnable _ => true
  | .mgmtRingWrite r value => decide (r < 2) && decide (value < 2 ^ 64)
  | .mgmtKick r => decide (r < 2)
  | .mgmtDescPoll r => decide (r < 2)
  | .mgmtFrameReceive bytes => bytesOk bytes
  | .mgmtLinkChange _ speed _ => decide (speed < 4)
  | .mdioDone data => decide (data < 65536)
  | .smuTapFrame _ => true
  | .smuFrameCloseTimeout stream => decide (stream < 8192)
  | .smuSpiRead addr _ => decide (addr < 2 ^ 24)
  | .smuSpiWrite addr bytes => decide (addr < 2 ^ 24) && bytesOk bytes
  | .smuFwStart len => decide (len < 4096)
  | .smuSeal check => decide (check < 2 ^ 32)
  | .smuBreak check => decide (check < 2 ^ 32)
  | .smuPowerOn _ => true
  | .monSourceSample o => decide (o < 2)
  | .monOutputFrame o => decide (o < 2)
  | .monStart o => decide (o < 2)
  | .monStop o => decide (o < 2)
  | .monConfigWrite o _ value => decide (o < 2) && decide (value < 2 ^ 32)
  | .monInFrame _ a b _ => decide (a < 2 ^ 28) && decide (b < 2 ^ 28)
  | .hkConversionDone code => decide (code < 65536)
  | .hkUrgentRequest input => decide (input < 32)
  | .evrSoftwareAppend value => decide (value < 2 ^ 64)
  | .porstFall _ => true
  | .foReqChange _ => true
  | .handoverGapEnd _ => true
  | .jtagSample pins => decide (pins < 2 ^ 51)
  | .jtagPreload value => decide (value < 2 ^ 51)
  | .tapReset _ => true
  | .lossOfSignal n => laneOk n
  | .lanePllLock n => laneOk n
  | .prbsCounterSaturate n => laneOk n
  | .pcieLinkUp p _ _ => decide (p < 4)
  | .urgencyRise c _ => decide (c < 12)
  | .rowIdleClose c _ => decide (c < 12)
  | .lrefQualityTimeout k => decide (k < 4)
  | .pcieAerMessage p => decide (p < 4)
  | .machineTimerInterrupt h => decide (h < 8)
  | .drainComplete => true
  | .dumpMarkerArrive => true
  | .relayFrameArrive => true
  | .patternLoad => true
  | .patternCancel => true
  | .reqSigSet => true
  | .keyLockSet => true
  | .coldActivationComplete => true
  | .swapComplete => true
  | .stopComplete => true
  | .captureHeaderWrite => true
  | .captureTrigger => true
  | .trigInEdge => true
  | .repairDone => true
  | .timeLoadRequest => true
  | .timeSnap => true
  | .timeMessageSend => true
  | .epoch => true
  | .buildOutEnd => true
  | .qualitySend => true
  | .ptpWatchdogExpire => true
  | .phaseSlew => true
  | .tsPop => true
  | .powerOnReset => true
  | .scratchExit => true
  | .scratchWritebackDone => true
  | .mgmtRxNodescTimeout => true
  | .mgmtFrameTransmit => true
  | .mdioFrame => true
  | .smuPowerRecordDue => true
  | .smuPpsEdge => true
  | .smuPpsMissing => true
  | .smuFwCheckDone => true
  | .smuPowerLoss => true
  | .smuMirrorUpdate => true
  | .thermTrip => true
  | .evrAppendArrive => true
  | .evrRecordProgrammed => true
  | .evrBlockEraseDone => true
  | .evrOpTimeSave => true
  | .handoverRepeat => true
  | .handoverWaitExpire => true
  | .foReleaseComplete => true
  | .jtagBypass => true
  | .jtagIdcode => true
  | .jtagExtest => true

end Sys2Proof
end

