-- ==== Sys2Proof/Safety.lean ====
section
/-! DEFINITION. What counts as a safe run, where a command acts, and the conditions on a state that statements speak of. -/
namespace Sys2Proof.Safety
open Sys2Proof.Machine

/-- An outcome that is a next state. -/
def isNext (o : Res) : Bool := match o with | .next _ => true | _ => false

/-- A step is safe when it neither faults nor is refused. -/
def safe (s : State) : Bool := isNext (step s)

/-- The fuses of the seal are possible (R445): at most eight generations, and no break fuse beyond them. -/
def sealOk (u : SmuSt) : Bool := decide (u.sealGen ≤ 8) && decide (u.broken < 2 ^ u.sealGen)

/-- Where a command acts. -/
inductive Home where
  /-- The memory, SoC or timing island. -/
  | base
  | ingest
  | egress
  | compute (k : Nat)
  /-- The SMU alone (R434). -/
  | smu
  /-- A pin or a crossing of its own: PORST_N, TRST_N, the tap, the mirror, an append's arrival. -/
  | pin
deriving DecidableEq, Repr

/-- The island of each command (R24). -/
def home (i : Instr) : Home :=
  match i with
  | .registerWrite _ _ _ => .base
  | .islResetWrite _ => .base
  | .agCommitArm _ => .ingest
  | .frameDeadline _ => .ingest
  | .frameMarkerArrive k => .compute k
  | .commitArrive k => .compute k
  | .laneTrain _ => .ingest
  | .laneDisable _ => .ingest
  | .blockReceive _ _ => .ingest
  | .trainReceive _ => .ingest
  | .tapChangeApply _ => .ingest
  | .trainRequestTimeout _ => .ingest
  | .trainingTimeout _ => .ingest
  | .lanePllUnlock _ => .base
  | .huntTimeout _ => .ingest
  | .txIdleEntry _ => .egress
  | .idleReceive _ => .ingest
  | .signalDetect _ => .ingest
  | .txWake _ => .egress
  | .wakeLockTimeout _ => .ingest
  | .blockTransmit _ => .egress
  | .prbsGenEn _ _ => .ingest
  | .prbsChkEn _ _ => .ingest
  | .prbsInject _ => .ingest
  | .prbsSnap _ => .ingest
  | .prbsClear _ => .ingest
  | .prbsCheckerLock _ => .ingest
  | .prbsCheckerUnlock _ => .ingest
  | .laneRotationRemove _ => .egress
  | .timeReceive _ => .ingest
  | .qualityReceive _ => .ingest
  | .ackReceive _ => .ingest
  | .nakReceive _ => .ingest
  | .pauseReceive _ => .ingest
  | .pauseExpire _ => .egress
  | .triggerReceive _ => .ingest
  | .handoverReceive _ => .ingest
  | .fstartReceive _ => .ingest
  | .fendReceive _ => .ingest
  | .dataBlockReceive _ => .ingest
  | .ackSend _ => .egress
  | .nakRepeat _ => .egress
  | .ackWaitTimeout _ => .egress
  | .replayExhausted _ => .egress
  | .slotCommitPost _ => .ingest
  | .statRecordDeliver k => .compute k
  | .ctWriteSend _ => .ingest
  | .ctWriteCommit _ _ => .ingest
  | .fillUnitRead k => .compute k
  | .fillUnitComplete k => .compute k
  | .pnlNop p => .compute (p / 8)
  | .pnlSeta p => .compute (p / 8)
  | .pnlSetah p => .compute (p / 8)
  | .pnlAdda p => .compute (p / 8)
  | .pnlSett p => .compute (p / 8)
  | .pnlSetrp p => .compute (p / 8)
  | .pnlOpen p => .compute (p / 8)
  | .pnlSpill p => .compute (p / 8)
  | .pnlDump p => .compute (p / 8)
  | .pnlClear p => .compute (p / 8)
  | .pnlPromote p => .compute (p / 8)
  | .pnlLoadw p => .compute (p / 8)
  | .pnlBr p => .compute (p / 8)
  | .pnlBnz p => .compute (p / 8)
  | .pnlRepeat p => .compute (p / 8)
  | .pnlWaitu p => .compute (p / 8)
  | .pnlRelu p => .compute (p / 8)
  | .pnlFmark p => .compute (p / 8)
  | .pnlSvcret p => .compute (p / 8)
  | .pnlHalt p => .compute (p / 8)
  | .arrayNop p => .compute (p / 8)
  | .arrAcc p _ => .compute (p / 8)
  | .arrRetr p _ => .compute (p / 8)
  | .arrZacc p => .compute (p / 8)
  | .arrZshift p => .compute (p / 8)
  | .arrBeamv p => .compute (p / 8)
  | .arrBeamd p => .compute (p / 8)
  | .planeBufferFree p => .compute (p / 8)
  | .promoteAddComplete p => .compute (p / 8)
  | .loadwComplete p _ => .compute (p / 8)
  | .serviceEntry p => .compute (p / 8)
  | .slotWaitExpire p => .compute (p / 8)
  | .spillPlaneArrive _ => .base
  | .spillWriteDone _ => .base
  | .closeMarkerArrive _ => .base
  | .dumpReadRecord _ => .base
  | .drainPost _ => .base
  | .verdictPost k _ => .compute k
  | .verdictHandle k => .compute k
  | .beamEmission k => .compute k
  | .beamSampleArrive _ => .egress
  | .weightCommitPost k _ => .compute k
  | .egressUnitArrive _ => .egress
  | .closeNoticeArrive _ => .egress
  | .queueEntry _ => .egress
  | .egressFrameDeal _ => .egress
  | .ringDescPoll _ => .egress
  | .ringKick _ => .egress
  | .ringWriteResponse _ => .egress
  | .winRelease _ => .egress
  | .patternLoadDone _ _ => .base
  | .activatePost _ => .base
  | .stopPost _ => .base
  | .testFrameGenerate _ => .ingest
  | .awlLdw n _ => .compute (awlIsl n)
  | .awlLdh n _ => .compute (awlIsl n)
  | .awlLdhs n _ => .compute (awlIsl n)
  | .awlStw n _ => .compute (awlIsl n)
  | .awlSth n _ => .compute (awlIsl n)
  | .awlNop n => .compute (awlIsl n)
  | .awlMac n => .compute (awlIsl n)
  | .awlMsu n => .compute (awlIsl n)
  | .awlMpy n => .compute (awlIsl n)
  | .awlMova n => .compute (awlIsl n)
  | .awlAdda n => .compute (awlIsl n)
  | .awlInsh n => .compute (awlIsl n)
  | .awlIns24 n => .compute (awlIsl n)
  | .awlSha n => .compute (awlIsl n)
  | .awlMovx n => .compute (awlIsl n)
  | .awlMovxl n => .compute (awlIsl n)
  | .awlMovxm n => .compute (awlIsl n)
  | .awlMovxh n => .compute (awlIsl n)
  | .awlAddac n => .compute (awlIsl n)
  | .awlAdd n => .compute (awlIsl n)
  | .awlSub n => .compute (awlIsl n)
  | .awlAnd n => .compute (awlIsl n)
  | .awlOr n => .compute (awlIsl n)
  | .awlXor n => .compute (awlIsl n)
  | .awlAddi n => .compute (awlIsl n)
  | .awlShi n => .compute (awlIsl n)
  | .awlLi n => .compute (awlIsl n)
  | .awlLui n => .compute (awlIsl n)
  | .awlMaxx n => .compute (awlIsl n)
  | .awlMinx n => .compute (awlIsl n)
  | .awlMaxa n => .compute (awlIsl n)
  | .awlMina n => .compute (awlIsl n)
  | .awlMovs n => .compute (awlIsl n)
  | .awlMovts n => .compute (awlIsl n)
  | .awlBr n => .compute (awlIsl n)
  | .awlBeqz n => .compute (awlIsl n)
  | .awlBnez n => .compute (awlIsl n)
  | .awlBltz n => .compute (awlIsl n)
  | .awlBgez n => .compute (awlIsl n)
  | .awlCall n => .compute (awlIsl n)
  | .awlRet n => .compute (awlIsl n)
  | .awlLoop n => .compute (awlIsl n)
  | .awlLoopr n => .compute (awlIsl n)
  | .awlRep n => .compute (awlIsl n)
  | .awlRte n => .compute (awlIsl n)
  | .awlIor n => .compute (awlIsl n)
  | .awlIow n => .compute (awlIsl n)
  | .awlIora n => .compute (awlIsl n)
  | .awlIowa n => .compute (awlIsl n)
  | .awlPostv n => .compute (awlIsl n)
  | .awlWait n => .compute (awlIsl n)
  | .awlTrap n => .compute (awlIsl n)
  | .awlHalt n => .compute (awlIsl n)
  | .awlExceptionEntry n => .compute (awlIsl n)
  | .awlWaitWake n => .compute (awlIsl n)
  | .awlRun n => .compute (awlIsl n)
  | .awlCtrlHalt n => .compute (awlIsl n)
  | .awlReset n => .compute (awlIsl n)
  | .awlStep n => .compute (awlIsl n)
  | .doorbellRing n => .compute (awlIsl n)
  | .xferGo n _ => .compute (awlIsl n)
  | .xferEnd n _ _ => .compute (awlIsl n)
  | .captureSampleArrive _ => .base
  | .trigSw _ => .base
  | .regionRelease _ => .base
  | .pcieRetrain _ => .base
  | .pcieLinkDown _ => .base
  | .pcieInboundRequest _ _ _ _ _ => .base
  | .pcieCompletionTimeout _ => .base
  | .channelTrain _ => .base
  | .channelTrainingDone _ _ => .base
  | .channelTrainingTimeout _ => .base
  | .memRequestIssue _ => .base
  | .memTransferDone _ _ _ _ => .base
  | .refreshDue _ => .base
  | .scrubRead _ _ => .base
  | .scrubWriteback _ => .base
  | .onchipScrub _ _ => .base
  | .ilvMaskWrite _ => .base
  | .repairProgram _ => .base
  | .weltRequest _ _ _ _ _ _ => .base
  | .weltGrant _ => .base
  | .weltResponse _ _ _ _ => .base
  | .weltTimeout _ _ => .base
  | .dmaRun _ => .base
  | .dmaAbort _ => .base
  | .dmaKick _ => .base
  | .dmaChConfigWrite _ _ _ => .base
  | .dmaDescPoll _ => .base
  | .dmaReadDone _ _ _ => .base
  | .dmaWriteResponse _ _ => .base
  | .incrementWrite _ => .base
  | .referenceEvaluation _ _ _ _ => .base
  | .qlMessageReceive _ _ => .base
  | .qlTimeout _ => .base
  | .ppsEdge _ => .base
  | .frameOutArm _ => .base
  | .frameOutPulse _ => .base
  | .phaseStep _ => .base
  | .ptpLaneTx _ => .base
  | .delayRespSend _ => .egress
  | .coreHoldWrite _ => .base
  | .intcClaim _ => .base
  | .intcComplete _ _ => .base
  | .bootSlotCheck _ => .base
  | .qspiCommand _ => .base
  | .qspiCommandDone _ => .base
  | .mgmtEnable _ => .base
  | .mgmtRingWrite _ _ => .base
  | .mgmtKick _ => .base
  | .mgmtDescPoll _ => .base
  | .mgmtFrameReceive _ => .base
  | .mgmtLinkChange _ _ _ => .base
  | .mdioDone _ => .base
  | .smuTapFrame _ => .pin
  | .smuFrameCloseTimeout _ => .smu
  | .smuSpiRead _ _ => .smu
  | .smuSpiWrite _ _ => .smu
  | .smuFwStart _ => .smu
  | .smuSeal _ => .smu
  | .smuBreak _ => .smu
  | .smuPowerOn _ => .smu
  | .monSourceSample _ => .egress
  | .monOutputFrame _ => .egress
  | .monStart _ => .egress
  | .monStop _ => .egress
  | .monConfigWrite _ _ _ => .base
  | .monInFrame _ _ _ _ => .egress
  | .hkConversionDone _ => .base
  | .hkUrgentRequest _ => .base
  | .evrSoftwareAppend _ => .base
  | .porstFall _ => .pin
  | .foReqChange _ => .egress
  | .handoverGapEnd _ => .egress
  | .jtagSample _ => .base
  | .jtagPreload _ => .base
  | .tapReset _ => .pin
  | .lossOfSignal _ => .ingest
  | .lanePllLock _ => .base
  | .prbsCounterSaturate _ => .ingest
  | .pcieLinkUp _ _ _ => .base
  | .urgencyRise _ _ => .base
  | .rowIdleClose _ _ => .base
  | .lrefQualityTimeout _ => .base
  | .pcieAerMessage _ => .base
  | .machineTimerInterrupt _ => .base
  | .drainComplete => .base
  | .dumpMarkerArrive => .egress
  | .relayFrameArrive => .egress
  | .patternLoad => .base
  | .patternCancel => .base
  | .reqSigSet => .base
  | .keyLockSet => .base
  | .coldActivationComplete => .base
  | .swapComplete => .base
  | .stopComplete => .base
  | .captureHeaderWrite => .base
  | .captureTrigger => .base
  | .trigInEdge => .base
  | .repairDone => .base
  | .timeLoadRequest => .base
  | .timeSnap => .base
  | .timeMessageSend => .base
  | .epoch => .base
  | .buildOutEnd => .base
  | .qualitySend => .base
  | .ptpWatchdogExpire => .base
  | .phaseSlew => .base
  | .tsPop => .base
  | .powerOnReset => .pin
  | .scratchExit => .base
  | .scratchWritebackDone => .base
  | .mgmtRxNodescTimeout => .base
  | .mgmtFrameTransmit => .base
  | .mdioFrame => .base
  | .smuPowerRecordDue => .smu
  | .smuPpsEdge => .smu
  | .smuPpsMissing => .smu
  | .smuFwCheckDone => .smu
  | .smuPowerLoss => .smu
  | .smuMirrorUpdate => .pin
  | .thermTrip => .base
  | .evrAppendArrive => .pin
  | .evrRecordProgrammed => .base
  | .evrBlockEraseDone => .base
  | .evrOpTimeSave => .base
  | .handoverRepeat => .egress
  | .handoverWaitExpire => .egress
  | .foReleaseComplete => .egress
  | .jtagBypass => .base
  | .jtagIdcode => .base
  | .jtagExtest => .base

/-- Whether an island that a command acts in is held in reset (R33). -/
def held (d : Dev) (h : Home) : Bool :=
  match h with
  | .ingest => d.ingHeld
  | .egress => d.egrHeld
  | .compute k => d.islHeld k
  | _ => false

/-! ### Conditions that statements speak of -/

/-- The command answers a next state in which the device is `d` with its interrupt sources settled (R420); the SMU, the
crossing to the mirror and the queue stay. -/
def Acts (c : Instr) (s : State) (d : Dev) : Prop := exec c s = .next { s with dev := d.irqSettle }

/-- The machine can take a command of the memory, SoC or timing island (R510), of the ingest island, of the egress island, or
of compute island k (R32, R33). -/
def up (s : State) : Prop := s.dev.up = true
def upIng (s : State) : Prop := s.dev.up = true ∧ s.dev.ingHeld = false
def upEgr (s : State) : Prop := s.dev.up = true ∧ s.dev.egrHeld = false
def upIsl (s : State) (k : Nat) : Prop := s.dev.up = true ∧ s.dev.islHeld k = false

/-- Panel p issues the control syllable of its next word, whose COP is cop (R154, R157, R158, R160): the panel is live, no
service is due, the word reads without error (R351), its control syllable has not taken effect, stands where it is allowed, and
nothing makes the word wait. -/
structure Issues (d : Dev) (p cop : Nat) : Prop where
  live : d.canIssue p = true
  noService : d.serviceDue p = 0
  fresh : (d.panel p).ctrl = false
  readable : d.progBad p = false
  isCop : d.cop p = cop
  placed : d.misplaced p cop = false
  noWait : d.arrayWait p = none

/-- Panel p issues the array syllable of its next word, whose AOP is aop (R155, R158, R184): its control syllable has taken
effect and nothing makes the word wait once the phase entries it takes are read (R193). -/
structure ArrayIssues (d : Dev) (p aop : Nat) : Prop where
  live : d.canIssue p = true
  ctrl : (d.panel p).ctrl = true
  isAop : d.aop p = aop
  loaded : (d.phaseFor p).arrayLoading p = false
  free : (d.phaseFor p).closeHeld p = false

/-- Awl core n issues the compute syllable of its next word, whose OP is op (R293, R294, R297): the core runs, nothing comes
before the word and it raises no fault, and its move slots have taken effect or are empty. `e` is the device as the syllable
takes effect. -/
structure AwlIssues (d : Dev) (n op : Nat) (e : Dev) : Prop where
  begins : d.awlBegin n true = .ready e
  isOp : wOp (e.awl1 n).word = op
  slotA : slotDone (e.awl1 n) (e.awl1 n).word 0 = true
  slotB : slotDone (e.awl1 n) (e.awl1 n).word 1 = true

/-- Awl core n issues move slot k (0 for A, 1 for B) of its next word, whose KIND is kind (R294, R295). -/
structure AwlMoves (d : Dev) (n k kind : Nat) (e : Dev) : Prop where
  begins : d.awlBegin n true = .ready e
  isKind : sKind (wSlot (e.awl1 n).word k) = kind
  fresh : bitOf (e.awl1 n).slots k = false
  slotA : k = 1 → slotDone (e.awl1 n) (e.awl1 n).word 0 = true

/-- The end of an array syllable (R154, R155): INC advances TI, or RI for RETR, and the sequencer goes on. `d` is the device before
the operation, `e` after it. -/
def arrayEnd (d e : Dev) (p aop : Nat) : Dev :=
  (if bitOf (d.arrWord p) 22 then e.updPanel p fun x =>
    if aop = 2 then { x with ri := (x.ri + 1) % 65536 } else { x with ti := (x.ti + 1) % 65536 } else e).advance p

/-- What follows an array operation other than NOP (R154, R155): the cycle is counted, and the syllable ends. -/
def arrayDone (d e : Dev) (p aop : Nat) : Dev := arrayEnd d (e.bump (F.PNL_ARRAY_CYCLES_COUNT p) 1) p aop

end Sys2Proof.Safety
end

