-- ==== Sys2Proof/Certificates/Slice0/Obligations.lean ====
section
/-! DEFINITION. The statements for the provers, each from the rules of the spec that it names. -/
open Sys2Proof Sys2Proof.Machine Sys2Proof.Safety

/-- For every command, queue and state: a step with that command at the front of the queue is exec of the command in the state
whose queue is the rest. The queue and the step are the model's own form (log entry 1). (00_scope.md, 01_architecture.md) -/
def Obligations.FrontCommandActs : Prop :=
  ∀ (c : Instr) (rest : List Instr) (s : State),
    step { s with pending := c :: rest } = exec c { s with pending := rest }

/-- On an empty queue the step answers a next state in which one cycle of the timing island and one of the SMU have passed,
memory is unchanged, and the queue is still empty. That an idle step is one such cycle is the model's choice (log entry 4).
(01_architecture.md R24, 16_timing_unit.md R386, 18_sealed_measurement_unit.md R434) -/
def Obligations.IdleStepAdvancesTime : Prop :=
  ∀ (s : State), s.pending = [] →
    ∃ t, step s = .next t ∧ t = s.tick ∧ t.pending = [] ∧ t.smu = s.smu.clock ∧ t.dev.mem = s.dev.mem ∧ (s.dev.up = false → t.dev = s.dev)

/-- For every well-formed command of the opcode table and every state, exec answers a next state, never a fault or a refusal,
and the queue is unchanged. (01_architecture.md, 98_reader.md) -/
def Obligations.WellFormedCommandAnswers : Prop :=
  ∀ (c : Instr) (s : State), c.wellFormed = true → ∃ t, exec c s = .next t ∧ t.pending = s.pending

/-- The commands that name one lane, panel, compute island, memory channel, Awl core, DMA channel or egress queue fault with
noSuchUnit where the number lies beyond the units of the device, whatever the state. The fault is the model's own name for
an operand that no command of the device carries (log entry 5). (01_architecture.md R24, 03_lanes.md,
06_correlation_array.md) -/
def Obligations.MissingUnitStopsTheCommand : Prop :=
  ∀ (s : State) (n : Nat),
    (96 ≤ n → exec (.laneTrain n) s = .fault .noSuchUnit ∧ exec (.laneDisable n) s = .fault .noSuchUnit ∧ exec (.fendReceive n) s = .fault .noSuchUnit) ∧
    (64 ≤ n → exec (.pnlSeta n) s = .fault .noSuchUnit ∧ exec (.arrBeamv n) s = .fault .noSuchUnit ∧ exec (.dmaRun n) s = .fault .noSuchUnit) ∧
    (8 ≤ n → exec (.commitArrive n) s = .fault .noSuchUnit ∧ exec (.verdictHandle n) s = .fault .noSuchUnit) ∧
    (12 ≤ n → exec (.channelTrain n) s = .fault .noSuchUnit ∧ exec (.refreshDue n) s = .fault .noSuchUnit) ∧
    (16 ≤ n → exec (.awlMac n) s = .fault .noSuchUnit ∧ exec (.doorbellRing n) s = .fault .noSuchUnit) ∧
    (4096 ≤ n → exec (.queueEntry n) s = .fault .noSuchUnit ∧ exec (.ringKick n) s = .fault .noSuchUnit)

/-- Only the SMU's own commands and its tap change what the SMU holds: every other command leaves it unchanged, except that the
arrival of an append takes that append from those that wait at the crossing. (01_architecture.md R30,
18_sealed_measurement_unit.md R434) -/
def Obligations.SmuUnreachableFromTheDevice : Prop :=
  ∀ (c : Instr) (s t : State), home c ≠ .smu → (∀ full, c ≠ .smuTapFrame full) → exec c s = .next t →
    { t.smu with appends := [] } = { s.smu with appends := [] } ∧ (c ≠ .evrAppendArrive → t.smu = s.smu)

/-- A command of the SMU, or the arrival of a tap frame, changes nothing of the device but the tap crossing; the SMU's own
commands change nothing of the device at all. (01_architecture.md R30) -/
def Obligations.SmuChangesNothingOfTheDevice : Prop :=
  ∀ (c : Instr) (s t : State), (home c = .smu ∨ ∃ full, c = .smuTapFrame full) → exec c s = .next t →
    t.dev = { s.dev with tap := t.dev.tap } ∧ (home c = .smu → t.dev = s.dev)

/-- What the SMU becomes depends on nothing of the device but the ingest tap: two states with the same SMU and the same tap have
the same SMU and the same tap after the same command of the SMU or the same tap frame. (01_architecture.md R30,
18_sealed_measurement_unit.md R434, 18_sealed_measurement_unit.md R436) -/
def Obligations.SmuSeesOnlyItsTap : Prop :=
  ∀ (c : Instr) (s₁ s₂ t₁ t₂ : State), (home c = .smu ∨ ∃ full, c = .smuTapFrame full) →
    s₁.smu = s₂.smu → s₁.dev.tap = s₂.dev.tap → exec c s₁ = .next t₁ → exec c s₂ = .next t₂ →
    t₁.smu = t₂.smu ∧ t₁.dev.tap = t₂.dev.tap

/-- While PORST_N is low, no command but the power-on reset and the TAP's own reset line changes anything of the device, apart
from the tap crossing that the SMU still takes frames from. (22_electrical_package.md R510, 01_architecture.md R21) -/
def Obligations.DeviceStopsWhilePorstLow : Prop :=
  ∀ (c : Instr) (s t : State), s.dev.up = false → c ≠ .powerOnReset → (∀ low, c ≠ .tapReset low) → exec c s = .next t →
    t.dev = { s.dev with tap := t.dev.tap }

/-- While the ingest, egress or a compute island is held in reset, every well-formed command that acts in that island answers
the state unchanged. (01_architecture.md R32, 01_architecture.md R33) -/
def Obligations.HeldIslandTakesNoCommand : Prop :=
  ∀ (c : Instr) (s : State), c.wellFormed = true → held s.dev (home c) = true → exec c s = .next s

/-- Whatever a step does, the number of seal fuses programmed never falls and no break fuse that is programmed clears.
(18_sealed_measurement_unit.md R445) -/
def Obligations.SealFusesNeverClear : Prop :=
  ∀ (s t : State), step s = .next t → s.smu.sealGen ≤ t.smu.sealGen ∧ s.smu.broken &&& t.smu.broken = s.smu.broken

/-- From every state in which at most eight seal generations are programmed and no break fuse lies beyond them, every step
answers a state of which the same is true. (18_sealed_measurement_unit.md R445) -/
def Obligations.EveryStepKeepsSealFusesPossible : Prop :=
  ∀ (s t : State), sealOk s.smu = true → step s = .next t → sealOk t.smu = true

/-- The machine after reset has at most eight seal generations and no break fuse beyond them. (18_sealed_measurement_unit.md
R445) -/
def Obligations.ResetSealFusesPossible : Prop :=
  sealOk State.reset.smu = true

/-- For every panel that issues the word's control syllable: NOP changes nothing, SETA loads the zero-extended immediate, SETAH
sets bits 31 to 22 and keeps the rest, ADDA adds the sign-extended immediate modulo 2^32, SETT sets TI and TS, SETRP sets
PRR and PRC and clears RI, BR and a BNZ whose decremented register is not zero branch to the target after two delay slots,
and REPEAT takes the next LEN words COUNT times, or faults with code 2 where the body runs past word 4095. A write of a
sequencer register reads back as written and leaves the other fifteen and all of memory unchanged. (06_correlation_array.md
R154, 06_correlation_array.md R157) -/
def Obligations.PanelRegisterSyllablesIssue : Prop :=
  ∀ (s : State) (p : Nat), p < 64 → upIsl s (p / 8) →
    let d := s.dev
    let w := d.ctlWord p
    let r := bitsOf w 57 54
    (Issues d p 0x00 → Acts (.pnlNop p) s (d.wordIssue p)) ∧
    (Issues d p 0x01 → Acts (.pnlSeta p) s ((d.setA p r (bitsOf w 53 32)).wordIssue p)) ∧
    (Issues d p 0x02 → Acts (.pnlSetah p) s ((d.setA p r (bitsOf w 41 32 * 2 ^ 22 + d.pA p r % 2 ^ 22)).wordIssue p)) ∧
    (Issues d p 0x03 → Acts (.pnlAdda p) s ((d.setA p r (ofInt 32 ((d.pA p r : Int) + sext 22 (bitsOf w 53 32)))).wordIssue p)) ∧
    (Issues d p 0x04 → Acts (.pnlSett p) s
      ((d.updPanel p fun x => { x with ti := bitsOf w 57 42, ts := d.pA p (bitsOf w 41 38) % 2 ^ 26 }).wordIssue p)) ∧
    (Issues d p 0x05 → Acts (.pnlSetrp p) s
      ((d.updPanel p fun x => { x with prr := d.pA p r % 2 ^ 26, prc := d.pA p (bitsOf w 53 50) % 2 ^ 26, ri := 0 }).wordIssue p)) ∧
    (Issues d p 0x10 → Acts (.pnlBr p) s ((d.updPanel p fun x => { x with br := some (3, some (bitsOf w 43 32)) }).wordIssue p)) ∧
    (Issues d p 0x11 → ofInt 32 ((d.pA p r : Int) - 1) ≠ 0 → Acts (.pnlBnz p) s
      (((d.setA p r (ofInt 32 ((d.pA p r : Int) - 1))).updPanel p fun x => { x with br := some (3, some (bitsOf w 43 32)) }).wordIssue p)) ∧
    (Issues d p 0x11 → ofInt 32 ((d.pA p r : Int) - 1) = 0 → Acts (.pnlBnz p) s
      (((d.setA p r 0).updPanel p fun x => { x with br := some (3, none) }).wordIssue p)) ∧
    (Issues d p 0x12 → d.get (F.PNL_PC_PC p) + (bitsOf w 47 44 + 1) ≤ 4095 → Acts (.pnlRepeat p) s
      ((d.updPanel p fun x =>
        { x with rep := some (d.get (F.PNL_PC_PC p) + 1, bitsOf w 47 44 + 1, bitsOf w 43 32) }).wordIssue p)) ∧
    (Issues d p 0x12 → 4095 < d.get (F.PNL_PC_PC p) + (bitsOf w 47 44 + 1) →
      Acts (.pnlRepeat p) s ((d.tick p).panelFault p 2)) ∧
    (∀ v, (d.setA p r v).pA p r = v % 2 ^ 32 ∧ (∀ q, q < 16 → q ≠ r → (d.setA p r v).pA p q = d.pA p q) ∧
      ∀ a, (d.setA p r v).rdByte a = d.rdByte a)

/-- For every panel that issues the control syllable: OPEN and LOADW bind a free slot below the panel's limit, its plane empty;
CLEAR of a slot bound to its tag frees the slot and discards its plane with its promotion plane and an add into that; SPILL and DUMP of such a
slot enter the panel's port while fewer than four are queued, and capture at once where a plane buffer is free; PROMOTE
takes the plane of such a slot to the promotion add. The slot taken by OPEN is then bound and its plane holds nothing.
(06_correlation_array.md R148, 06_correlation_array.md R149, 06_correlation_array.md R150, 06_correlation_array.md R151,
07_accumulation_and_drain.md R174, 09_beamforming.md R231, 06_correlation_array.md R164) -/
def Obligations.PanelSlotSyllablesTakeEffect : Prop :=
  ∀ (s : State) (p : Nat), p < 64 → upIsl s (p / 8) →
    let d := s.dev
    let x := d.panel p
    let w := d.ctlWord p
    let n := ctlSlot w
    let a := d.pA p (ctlRegA w)
    let bank := d.weightBank (p / 8) (d.pFrame p + bitsOf (d.pA p 11) 14 12)
    let addr := 64 * (a + bank.1 * d.icfg (p / 8) (d.pFrame p + bitsOf (d.pA p 11) 14 12) (F.ISL_WEIGHT_CFG_BANK_STRIDE (p / 8)))
    let opened := d.newBind p (ctlTag w) (bitsOf a 29 28) (a % 2 ^ 26) (d.pA p (ctlRegB w) % 2 ^ 26) none
    let loaded := (d.setSlot p n { bind := some (d.newBind p (ctlTag w) 0 0 0 (some addr)), plane := [] }).showSlots p
    n < d.slotLimit p →
    (Issues d p 0x08 → (x.slot n).bind = none →
      Acts (.pnlOpen p) s (((d.setSlot p n { bind := some opened, plane := [] }).showSlots p).wordIssue p) ∧
      ((d.setSlot p n { bind := some opened, plane := [] }).panel p).slot n = { bind := some opened, plane := [] }) ∧
    (Issues d p 0x0D → (x.slot n).bind = none →
      Acts (.pnlLoadw p) s ((if bank.2 then loaded.flag (F.ISL_BEAM_EVENTS_EARLY_LOAD (p / 8)) else loaded).wordIssue p)) ∧
    ∀ b, (x.slot n).bind = some b → b.tag = ctlTag w → x.slotQueued n = false →
      (Issues d p 0x0B → b.partner = none → Acts (.pnlClear p) s (((d.setSlot p n SlotSt.init).showSlots p).wordIssue p)) ∧
      (∀ q, Issues d p 0x0B → b.partner = some q →
        Acts (.pnlClear p) s ((((d.updPanel p fun y =>
          { y with planes := Tab.erase y.planes q, promo := y.promo.filter fun v => !(v.1 == n && v.2.1 == q) }).setSlot p n SlotSt.init).showSlots p).wordIssue p)) ∧
      (Issues d p 0x09 → x.queuedOps < 4 → Acts (.pnlSpill p) s
        ((((d.setPanel p { x with port := x.port ++ [.queued ⟨false, n, ctlTag w, a, b.frame == d.pStart p, d.pStart p, b.frame, d.pGang p⟩] }).portCapture p 4).showSlots p).wordIssue p)) ∧
      (Issues d p 0x0A → x.queuedOps < 4 → Acts (.pnlDump p) s
        ((((d.setPanel p { x with port := x.port ++ [.queued ⟨true, n, ctlTag w, a, false, d.pStart p, b.frame, d.pGang p⟩] }).portCapture p 4).showSlots p).wordIssue p)) ∧
      (Issues d p 0x0C → bitsOf w 40 37 < 12 → x.promo = none → x.partnered n (bitsOf w 40 37) = false →
        let cells := if b.allSat then planeMark (planeWords (d.pGang p)) (x.slot n).plane else (x.slot n).plane
        let e := if cells.any fun e => e.2.sre || e.2.sim then d.bump (F.PNL_SAT_CNT_COUNT p) 1 else d
        let e := e.setSlot p n { bind := some { b with partner := some (bitsOf w 40 37), ops := 0, limitHit := false, allSat := false }, plane := [] }
        Acts (.pnlPromote p) s ((e.updPanel p fun y => { y with promo := some (n, bitsOf w 40 37, cells) }).wordIssue p))

/-- A panel holds the word, and shows HELD, where OPEN names a bound slot or where CLEAR, SPILL, DUMP or PROMOTE names a slot
that is free or bound to another tag, and counts the cycles of the hold against the SLOT_WAIT it began under, at least 256; a
slot number at or above the panel's limit faults with code 1 for each of them. (06_correlation_array.md R164,
06_correlation_array.md R158, 06_correlation_array.md R163, 06_correlation_array.md R166) -/
def Obligations.PanelSlotConflictHoldsTheWord : Prop :=
  ∀ (s : State) (p : Nat), p < 64 → upIsl s (p / 8) →
    let d := s.dev
    let x := d.panel p
    let w := d.ctlWord p
    let n := ctlSlot w
    (∀ b, n < d.slotLimit p → (x.slot n).bind = some b →
      (Issues d p 0x08 → Acts (.pnlOpen p) s (d.wordWait p (!x.slotQueued n))) ∧
      (b.tag ≠ ctlTag w →
        (Issues d p 0x09 → Acts (.pnlSpill p) s (d.wordWait p true)) ∧ (Issues d p 0x0A → Acts (.pnlDump p) s (d.wordWait p true)) ∧
        (Issues d p 0x0B → Acts (.pnlClear p) s (d.wordWait p true)))) ∧
    (n < d.slotLimit p → (x.slot n).bind = none →
      (Issues d p 0x09 → Acts (.pnlSpill p) s (d.wordWait p true)) ∧ (Issues d p 0x0A → Acts (.pnlDump p) s (d.wordWait p true)) ∧
      (Issues d p 0x0B → Acts (.pnlClear p) s (d.wordWait p true))) ∧
    (d.slotLimit p ≤ n →
      (Issues d p 0x08 → Acts (.pnlOpen p) s ((d.tick p).panelFault p 1)) ∧
      (Issues d p 0x09 → Acts (.pnlSpill p) s ((d.tick p).panelFault p 1)) ∧
      (Issues d p 0x0A → Acts (.pnlDump p) s ((d.tick p).panelFault p 1)) ∧
      (Issues d p 0x0B → Acts (.pnlClear p) s ((d.tick p).panelFault p 1)) ∧
      (Issues d p 0x0D → Acts (.pnlLoadw p) s ((d.tick p).panelFault p 1))) ∧
    (x.svc = none → (d.wordWait p true).pState p = pHeld ∧ ((d.wordWait p true).panel p).hold =
      match x.hold with | some (m, l) => some (m + 1, l) | none => some (1, max 256 (d.get (F.PNL_SLOT_WAIT_LIMIT p))))

/-- WAITU issues once its unit is in the Insole and holds the word before; RELU records the release, also of a unit that the filler
has not begun; FMARK, the frame marker of
the next frame having arrived, makes PNL.FRAME that frame; SVCRET in a routine marks its return and outside one faults with
code 3; HALT raises HALTED and stops the panel; a DRAIN due at the mark enters the routine at vector 2 and a SWAP due enters
that at vector 3 with the frame in A12 and A13; a held slot operation whose wait is over is counted as a slot conflict and its
word issues, and before that the expiry changes nothing. (06_correlation_array.md R154, 06_correlation_array.md R159, 06_correlation_array.md R161,
06_correlation_array.md R163, 07_accumulation_and_drain.md R182, 08_flagging_and_retraction.md R205) -/
def Obligations.PanelFlowSyllablesTakeEffect : Prop :=
  ∀ (s : State) (p : Nat), p < 64 → upIsl s (p / 8) →
    let d := s.dev
    let x := d.panel p
    let k := p / 8
    (∀ f u, d.unitNamed p = (some f, u) →
      (Issues d p 0x13 → d.unitPresent k f u = true → Acts (.pnlWaitu p) s (d.wordIssue p)) ∧
      (Issues d p 0x13 → d.unitPresent k f u = false → Acts (.pnlWaitu p) s (d.wordWait p false)) ∧
      (Issues d p 0x14 → Acts (.pnlRelu p) s
        (((d.updIsl k fun y =>
          { y with units := y.units.map fun e => if e.frame = f && e.num = u && !e.relu.contains p then { e with relu := e.relu ++ [p] } else e
                   released := if (y.nextFill.1 < f || (y.nextFill.1 == f && y.nextFill.2 ≤ u)) && !y.released.contains (f, u, p)
                     then y.released ++ [(f, u, p)] else y.released }).purgeUnits k).wordIssue p))) ∧
    (Issues d p 0x15 → x.closing = none → (∃ m, (d.isl k).marked = some m ∧ d.pFrame p + 1 ≤ m) →
      let e := if d.get (F.PNL_CFG_PHASE p) = 1 then d.phaseLoad p (d.pFrame p + 1) else d
      Acts (.pnlFmark p) s
        ((((e.put (F.PNL_FRAME_FRAME p) (d.pFrame p + 1)).updPanel p fun y =>
          { y with closing := if e.closesAt p (d.pFrame p + 1) then some (d.pFrame p + 1) else none, marked := true }).frameMoved k).wordIssue p)) ∧
    (Issues d p 0x15 → x.closing = none → ((d.isl k).marked = none ∨ ∃ m, (d.isl k).marked = some m ∧ m < d.pFrame p + 1) →
      Acts (.pnlFmark p) s (d.wordWait p false)) ∧
    (Issues d p 0x16 → x.svc = none → Acts (.pnlSvcret p) s ((d.tick p).panelFault p 3)) ∧
    (∀ v, Issues d p 0x16 → x.svc = some v → (v.kind = 3 → d.closeHeld p = false) →
      Acts (.pnlSvcret p) s ((d.updPanel p fun y => { y with ret := true }).wordIssue p)) ∧
    (Issues d p 0x17 → Acts (.pnlHalt p) s (((d.flag (F.PNL_EVENTS_HALTED p)).panelStop p pHalted).tick p)) ∧
    (∀ f, d.canIssue p = true → d.serviceDue p = 2 → x.atMark = some f → Acts (.serviceEntry p) s
      (((d.setPanel p { x with doneDrain := some f }).showPend p).enterService p 2
        ⟨2, f, none, false, d.get (F.PNL_PC_PC p), x.ti, x.ts, x.hold⟩ [f % 2 ^ 32, f / 2 ^ 32, 0, 0] x.elig)) ∧
    (∀ f, d.canIssue p = true → d.serviceDue p = 3 → x.atMark = some f → Acts (.serviceEntry p) s
      (((d.setPanel p { x with doneSwap := some f }).showPend p).enterService p 3
        ⟨3, f, none, false, d.get (F.PNL_PC_PC p), x.ti, x.ts, x.hold⟩ [f % 2 ^ 32, f / 2 ^ 32, 1, 0] x.elig)) ∧
    (∀ m l, d.canIssue p = true → x.ctrl = false → x.hold = some (m, l) → m < l → Acts (.slotWaitExpire p) s d) ∧
    (∀ m l, d.canIssue p = true → x.ctrl = false → x.hold = some (m, l) → l ≤ m → ∃ t, exec (.slotWaitExpire p) s = .next t ∧
      ∃ e : Dev, t.dev = (e.wordIssue p).irqSettle ∧ e.is (F.PNL_EVENTS_SLOT_CONFLICT p) = true ∧
        e.get (F.PNL_CONFLICT_INFO_TAG p) = ctlTag (d.ctlWord p) ∧ ∀ a, e.rdByte a = d.rdByte a)

/-- A live panel with no service due whose next word reads uncorrectable, or has a reserved COP, faults with code 1 at any control
command, and one whose control syllable stands where R157 does not allow it faults with code 2; a reserved AOP faults with code 1 at any array
command. A fault sets the fault code and PNL.EVENTS.FAULT before the panel stops. (06_correlation_array.md R154,
06_correlation_array.md R155, 06_correlation_array.md R157, 06_correlation_array.md R163, 14_memory_and_integrity.md R351) -/
def Obligations.PanelReservedSyllableFaults : Prop :=
  ∀ (s : State) (p : Nat), p < 64 → upIsl s (p / 8) → s.dev.canIssue p = true →
    let d := s.dev
    (d.serviceDue p = 0 → (d.panel p).ctrl = false → d.progBad p = true →
      let e := (d.onchipUe (0x40 + p) (R.PNL_UCODE p (d.get (F.PNL_PC_PC p))).addr).tick p
      Acts (.pnlNop p) s (e.panelFault p 1) ∧ Acts (.pnlHalt p) s (e.panelFault p 1)) ∧
    (d.serviceDue p = 0 → (d.panel p).ctrl = false → d.progBad p = false → copKnown (d.cop p) = false →
      Acts (.pnlNop p) s ((d.tick p).panelFault p 1) ∧ Acts (.pnlSeta p) s ((d.tick p).panelFault p 1) ∧
      Acts (.pnlFmark p) s ((d.tick p).panelFault p 1) ∧ Acts (.pnlHalt p) s ((d.tick p).panelFault p 1)) ∧
    (d.serviceDue p = 0 → (d.panel p).ctrl = false → d.progBad p = false → d.misplaced p 0x10 = true → d.cop p = 0x10 →
      Acts (.pnlBr p) s ((d.tick p).panelFault p 2)) ∧
    (d.serviceDue p = 0 → (d.panel p).ctrl = false → d.progBad p = false → d.misplaced p 0x17 = true → d.cop p = 0x17 →
      Acts (.pnlHalt p) s ((d.tick p).panelFault p 2)) ∧
    ((d.panel p).ctrl = true → 6 < d.aop p →
      Acts (.arrayNop p) s ((d.tick p).panelFault p 1) ∧ Acts (.arrAcc p []) s ((d.tick p).panelFault p 1) ∧
      Acts (.arrBeamd p) s ((d.tick p).panelFault p 1)) ∧
    ∀ code, code < 16 → ((d.put (F.PNL_STATUS_FAULT_CODE p) code).flag (F.PNL_EVENTS_FAULT p)).get (F.PNL_STATUS_FAULT_CODE p) = code ∧
      ((d.put (F.PNL_STATUS_FAULT_CODE p) code).flag (F.PNL_EVENTS_FAULT p)).is (F.PNL_EVENTS_FAULT p) = true

/-- For a panel outside P mode, its close point not due, that issues ACC or RETR on a bound slot whose vectors lie inside the
Insole: ACC adds to every cell of the slot x times the conjugate of y of the vectors that the binding's offsets and TI name,
RETR subtracts the product of the masked vectors that PRR, PRC and RI name, and where none of the products crosses alignment
groups they are exactly these; bytes of bad parity that either fetches are counted, those of ACC posted as verdicts, and one
that RETR finds and the panel's ACC did not marks the granule; the cycle is counted, INC advances TI or RI, and the
sequencer goes on. An ACC on a free slot is counted as unbound. (02_time_and_alignment.md R42, 06_correlation_array.md R141,
06_correlation_array.md R144, 06_correlation_array.md R156, 07_accumulation_and_drain.md R170, 08_flagging_and_retraction.md
R206) -/
def Obligations.CorrelationAddsAndRetractionSubtracts : Prop :=
  ∀ (s : State) (p : Nat) (bad : List (Nat × Byte)), p < 64 → upIsl s (p / 8) →
    let d := s.dev
    let x := d.panel p
    let w := d.arrWord p
    let n := d.arrSlot p
    let gang := d.pGang p
    x.closing = none → d.get (F.PNL_CFG_PHASE p) = 0 → n < d.slotLimit p →
    (∀ b nr nc, (x.slot n).bind = some b → vecLengths b.shape gang = some (nr, nc) →
      let ro := b.rowOff + x.ti * x.ts
      let co := b.colOff + x.ti * x.ts
      let e := d.upset (p / 8) bad
      let rows := e.fetchVec (p / 8) ro gang nr
      let cols := e.fetchVec (p / 8) co gang nc
      (ArrayIssues d p 1 → inInsole ro gang nr = true → inInsole co gang nc = true → b.shape ≠ 3 →
        let c := e.crossFree gang (crossesAt b.shape gang (e.vecGroups (p / 8) ro gang nr) [] (e.vecGroups (p / 8) co gang nc) []) (productAt b.shape gang rows [] cols [])
        Acts (.arrAcc p bad) s (arrayDone d ((c.1.correlate p n b 1 c.2).paritySeen p (d.pFrame p + x.ti / 4096) ro co
          (e.badIn (p / 8) ro gang nr (fun _ => true) ++ e.badIn (p / 8) co gang nc fun _ => true)) p 1)) ∧
      (ArrayIssues d p 1 → (inInsole ro gang nr = false ∨ inInsole co gang nc = false) →
        Acts (.arrAcc p bad) s ((d.tick p).panelFault p 4))) ∧
    (∀ b nr nc, (x.slot n).bind = some b → vecLengths b.shape gang = some (nr, nc) → b.shape ≠ 3 →
      let ro := x.prr + x.ri * x.ts
      let co := x.prc + x.ri * x.ts
      let e := d.upset (p / 8) bad
      ArrayIssues d p 2 → inInsole ro gang nr = true → inInsole co gang nc = true →
        let c := e.crossFree gang (crossesAt b.shape gang
            (maskGroups (bitsOf w 20 19) (bitsOf w 18 12) (e.vecGroups (p / 8) ro gang nr)) []
            (maskGroups (bitsOf w 11 10) (bitsOf w 9 3) (e.vecGroups (p / 8) co gang nc)) [])
          (productAt b.shape gang
            (maskVec (bitsOf w 20 19) (bitsOf w 18 12) (e.fetchVec (p / 8) ro gang nr)) []
            (maskVec (bitsOf w 11 10) (bitsOf w 9 3) (e.fetchVec (p / 8) co gang nc)) [])
        Acts (.arrRetr p bad) s (arrayDone d ((c.1.correlate p n b (-1) c.2).parityAgain p (d.retrFrame p) ro co
          (e.badIn (p / 8) ro gang nr (maskKeeps (bitsOf w 20 19) (bitsOf w 18 12))
            ++ e.badIn (p / 8) co gang nc (maskKeeps (bitsOf w 11 10) (bitsOf w 9 3)))) p 2)) ∧
    ((x.slot n).bind = none → ArrayIssues d p 1 → Acts (.arrAcc p bad) s (arrayDone d (d.unbound p) p 1)) ∧
    ((x.slot n).bind = none → ArrayIssues d p 2 → Acts (.arrRetr p bad) s (arrayDone d (d.unbound p) p 2)) ∧
    (∀ (e : Dev) (f : Nat → Bool) (v : Nat → Int × Int), (∀ q, q < planeWords gang → f q = false) → e.crossFree gang f v = (e, v))

/-- For a panel, its close point not due, that issues the array syllable: NOP only goes on; ZACC clears, shifts and accumulates
the lag chain as its bits say; ZSHIFT shifts without accumulating and changes no slot; BEAMV and BEAMD perform the beam
operation, BEAMD with SLOT2, and EMIT advances A11; on a free slot each counts as unbound; each completes wherever its slots
are below the limit and its vectors lie inside the Insole; after each the cycle is counted, INC advances TI and the sequencer
goes on, and an operation that faults stops the panel with its code. (06_correlation_array.md R155, 07_accumulation_and_drain.md R167, 09_beamforming.md R218,
09_beamforming.md R226) -/
def Obligations.LagAndBeamSyllablesTakeEffect : Prop :=
  ∀ (s : State) (p : Nat), p < 64 → upIsl s (p / 8) →
    let d := s.dev
    let w := d.arrWord p
    let x := d.panel p
    let n := d.arrSlot p
    let m := bitsOf w 21 17
    let k := p / 8
    let gang := d.pGang p
    let ro (b : Bind) := b.rowOff + x.ti * x.ts
    let co (b : Bind) := b.colOff + x.ti * x.ts
    let next11 := if bitOf (d.pA p 9) 1 then (d.pA p 11 + 1) % 2 ^ 32 else d.pA p 11
    (ArrayIssues d p 0 → Acts (.arrayNop p) s (arrayEnd d d p 0)) ∧
    (x.closing = none → n < d.slotLimit p →
      ((x.slot n).bind = none →
        (ArrayIssues d p 3 → Acts (.arrZacc p) s (arrayDone d (d.unbound p) p 3)) ∧
        (ArrayIssues d p 4 → Acts (.arrZshift p) s (arrayDone d (d.unbound p) p 4)) ∧
        (ArrayIssues d p 5 → Acts (.arrBeamv p) s (arrayDone d ((d.unbound p).emitStep p) p 5)) ∧
        (ArrayIssues d p 6 → m < d.slotLimit p → Acts (.arrBeamd p) s (arrayDone d ((d.unbound p).emitStep p) p 6))) ∧
      (∀ b, (x.slot n).bind = some b → inInsole (ro b) gang 1 = true → inInsole (co b) gang 1 = true →
        let y := (d.fetchVec k (co b) gang 1).getD 0 (0, 0)
        let chain (clr shift : Bool) := (fun c => if shift then chainShift (0, 0) (planeWords gang) c y else c) (if clr then [] else x.chain)
        (ArrayIssues d p 3 → ∃ e, Acts (.arrZacc p) s (arrayDone d e p 3) ∧
          (d.insoleBad = [] → (e.panel p).chain = chain (bitOf w 20) (bitOf w 21))) ∧
        (ArrayIssues d p 4 → ∃ e, Acts (.arrZshift p) s (arrayDone d e p 4) ∧
          (d.insoleBad = [] → (e.panel p).chain = chain (bitOf w 20) true ∧ (e.panel p).slots = x.slots))) ∧
      (∀ b, (x.slot n).bind = some b → (inInsole (ro b) gang 1 = false ∨ inInsole (co b) gang 1 = false) →
        (ArrayIssues d p 3 → Acts (.arrZacc p) s ((d.tick p).panelFault p 4)) ∧
        (ArrayIssues d p 4 → Acts (.arrZshift p) s ((d.tick p).panelFault p 4))) ∧
      (∀ b, (x.slot n).bind = some b → inInsole (ro b) gang (planeSide gang) = true →
        (ArrayIssues d p 5 → ∃ e, Acts (.arrBeamv p) s (arrayDone d e p 5) ∧ (d.insoleBad = [] → e.pA p 11 = next11 ∧ (e.panel p).slots = x.slots)) ∧
        (ArrayIssues d p 6 → m < d.slotLimit p → (x.slot m).bind ≠ none →
          ∃ e, Acts (.arrBeamd p) s (arrayDone d e p 6) ∧ (d.insoleBad = [] → d.get (F.ISL_RED_CFG_SRC k) ≠ 2 → e.pA p 11 = next11)))) ∧
    ((d.panel p).closing = none →
      (∀ e, ArrayIssues d p 3 → d.lag p (bitOf w 20) (bitOf w 21) true = .done e → Acts (.arrZacc p) s (arrayDone d e p 3)) ∧
      (∀ e, ArrayIssues d p 4 → d.lag p (bitOf w 20) true false = .done e → Acts (.arrZshift p) s (arrayDone d e p 4)) ∧
      (∀ e, ArrayIssues d p 5 → d.beamOp p none = .done e → Acts (.arrBeamv p) s (arrayDone d e p 5)) ∧
      (∀ e, ArrayIssues d p 6 → d.beamOp p (some (bitsOf w 21 17)) = .done e → Acts (.arrBeamd p) s (arrayDone d e p 6)) ∧
      (∀ c, ArrayIssues d p 3 → d.lag p (bitOf w 20) (bitOf w 21) true = .fault c → Acts (.arrZacc p) s ((d.tick p).panelFault p c)) ∧
      (∀ c, ArrayIssues d p 5 → d.beamOp p none = .fault c → Acts (.arrBeamv p) s ((d.tick p).panelFault p c))) ∧
    (d.slotLimit p ≤ d.arrSlot p → d.lag p true true true = .fault 1 ∧ d.beamOp p none = .fault 1)

/-- Adding a product to a word gives in each part the exact sum where it lies within plus and minus the limit, and the nearer
limit otherwise; a part that clamps is marked, a mark never clears by adding, and a marked word leaves the panel as the
saturation mark. In a plane of n words whose parts lie within the limit, every word below n takes its product once and every
word from n on is unchanged. (06_correlation_array.md R141, 07_accumulation_and_drain.md R170, 07_accumulation_and_drain.md
R171) -/
def Obligations.AccumulatorsClampAndMark : Prop :=
  (∀ (lim : Int) (c : Cell) (v : Int × Int), 0 ≤ lim →
    let r := c.add lim v
    (-lim ≤ c.re + v.1 → c.re + v.1 ≤ lim → r.re = c.re + v.1 ∧ r.sre = c.sre) ∧
    (lim < c.re + v.1 → r.re = lim ∧ r.sre = true) ∧ (c.re + v.1 < -lim → r.re = -lim ∧ r.sre = true) ∧
    (-lim ≤ c.im + v.2 → c.im + v.2 ≤ lim → r.im = c.im + v.2 ∧ r.sim = c.sim) ∧
    (lim < c.im + v.2 → r.im = lim ∧ r.sim = true) ∧ (c.im + v.2 < -lim → r.im = -lim ∧ r.sim = true) ∧
    (c.sre = true → r.sre = true) ∧ (c.sim = true → r.sim = true) ∧
    ((r.sre = true ∨ r.sim = true) → r.word = markWord)) ∧
  (∀ (lim : Int) (n : Nat) (t : Tab Cell) (f : Nat → Int × Int) (q : Nat), 0 ≤ lim →
    (∀ j, -lim ≤ (Tab.get Cell.zero t j).re ∧ (Tab.get Cell.zero t j).re ≤ lim ∧ -lim ≤ (Tab.get Cell.zero t j).im ∧ (Tab.get Cell.zero t j).im ≤ lim) →
    Tab.get Cell.zero (planeAdd lim n t f) q = if q < n then (Tab.get Cell.zero t q).add lim (f q) else Tab.get Cell.zero t q)

/-- PLANE_BUFFER_FREE takes the oldest captured plane off the port unless its crossing still holds a plane of the panel, and
captures what is queued; PROMOTE_ADD_COMPLETE adds the captured plane into its promotion plane and frees the capture buffer;
LOADW_COMPLETE of a slot that is loading waits while a channel it reads trains, and else leaves the slot bound, no longer
loading, whatever it read.
(06_correlation_array.md R151, 07_accumulation_and_drain.md R174, 09_beamforming.md R231, 09_beamforming.md R217) -/
def Obligations.PlanesLeaveThePanelInOrder : Prop :=
  ∀ (s : State) (p : Nat), p < 64 → upIsl s (p / 8) →
    let d := s.dev
    let x := d.panel p
    (∀ op shape gang cells c partner rest, x.port = .plane op shape gang cells c partner :: rest → d.crossingFull p op.dump = false →
      Acts (.planeBufferFree p) s
        (((((d.updPanel p fun y => { y with port := rest }).planeLeaves p op shape gang cells partner).portFlush p 8).portCapture p 4).showSlots p)) ∧
    (∀ n b cells, x.promo = some (n, b, cells) → Acts (.promoteAddComplete p) s
      (((d.setPanel p { x with promo := none, planes := Tab.upd [] x.planes b fun t => planeSum t cells }).portCapture p 4).showSlots p)) ∧
    (∀ n b a, n < 32 → (x.slot n).bind = some b → b.loading = some a → d.memBusy a (64 + 2 * planeWords (d.pGang p)) = true →
      Acts (.loadwComplete p n) s d) ∧
    (∀ n b a, n < 32 → (x.slot n).bind = some b → b.loading = some a → d.memBusy a (64 + 2 * planeWords (d.pGang p)) = false →
      ∃ t, exec (.loadwComplete p n) s = .next t ∧ ∃ b', ((t.dev.panel p).slot n).bind = some b' ∧ b'.loading = none ∧ b'.tag = b.tag)

/-- On a lane of a role other than UNUSED that is DISABLED or DOWN, TRAIN starts training, and on every other lane TRAIN changes
nothing; DISABLE leaves the lane DISABLED with no lock, its PRBS enables clear and its transmitter not driving, whatever its
state, leaves the state of every other lane and all of memory, and then the receive half ends what it had open; a third unanswered request and the 500 ms end training as
failed; HUNT times out into training; a PLL that locks or unlocks shows in LANE.STATE; a failed training leaves the lane
DOWN with its result. (03_lanes.md R75, 03_lanes.md R64, 03_lanes.md R69, 03_lanes.md R71, 03_lanes.md R72, 03_lanes.md R76) -/
def Obligations.LaneStateChanges : Prop :=
  ∀ (s : State) (n : Nat), n < 96 → upIng s →
    let d := s.dev
    let st := d.laneState n
    let t := (d.lane n).trn
    (d.laneRole n ≠ roleUnused → (st = stDisabled ∨ st = stDown) → Acts (.laneTrain n) s (d.startTraining n)) ∧
    ((d.laneRole n = roleUnused ∨ (st ≠ stDisabled ∧ st ≠ stDown)) → Acts (.laneTrain n) s d) ∧
    (Acts (.laneDisable n) s ((d.laneDisable n).settleRx n 64) ∧
      (st ≠ stUp → (d.lane n).rx.buf = [] → Acts (.laneDisable n) s (d.laneDisable n)) ∧ (d.laneDisable n).laneState n = stDisabled ∧
      (d.laneDisable n).is (F.LANE_STATE_RX_LOCK n) = false ∧ (d.laneDisable n).is (F.LANE_PRBS_CTRL_GEN_EN n) = false ∧
      (d.laneDisable n).is (F.LANE_PRBS_CTRL_CHK_EN n) = false ∧ ((d.laneDisable n).lane n).tx.driving = false ∧
      (∀ m, m < 96 → m ≠ n → (d.laneDisable n).laneState m = d.laneState m) ∧ ∀ a, (d.laneDisable n).rdByte a = d.rdByte a) ∧
    (st = stTraining → t.reqPend = true → 2 ≤ t.unanswered → Acts (.trainRequestTimeout n) s (d.trainFail n resNoResponse)) ∧
    (st = stTraining → t.reqPend = true → t.unanswered < 2 →
      Acts (.trainRequestTimeout n) s (d.updTrn n fun t => { t with unanswered := t.unanswered + 1 })) ∧
    (st = stTraining → Acts (.trainingTimeout n) s (d.trainFail n (if t.lockSeen then resTimeout else resNoLock))) ∧
    (st = stHunt → Acts (.huntTimeout n) s ((d.flag (F.LANE_EVENTS_AUTO_RETRAIN n)).startTraining n)) ∧
    Acts (.lanePllLock n) s (d.flag (F.LANE_STATE_PLL_LOCK n)) ∧
    (d.is (F.LANE_STATE_PLL_LOCK n) = true → st = stTraining →
      Acts (.lanePllUnlock n) s ((((d.put (F.LANE_STATE_PLL_LOCK n) 0).flag (F.LANE_EVENTS_PLL_LOST n)).trainFail n resPll).settleRx n 64)) ∧
    ∀ res, res < 8 → (d.trainFail n res).laneState n = stDown ∧ (d.trainFail n res).get (F.LANE_TRN_RESULT n) = res

/-- A lane that detects signal in ELEC_IDLE enters WAKE, and goes on to full training where the idle lasted 10 ms, and otherwise only
shows SIGNAL; loss of signal on an UP lane that saw
no idle-entry flag hunts, and after the flag it only clears SIGNAL; WAKE without lock retrains with SLOW_WAKE; a transmitter
asked to idle whose buffer is empty sends its last IDLE blocks and stops; an idle transmitter that must wake drives a burst
within 10 ms and retrains after it, but not in TEST. (03_lanes.md R75, 03_lanes.md R77, 03_lanes.md R78, 03_lanes.md R79) -/
def Obligations.LaneIdleAndWake : Prop :=
  ∀ (s : State) (n : Nat), n < 96 → s.dev.up = true →
    let d := s.dev
    let l := d.lane n
    (d.ingHeld = false →
      (d.laneState n = stElecIdle → d.ticks - l.rx.idleAt < tenMs → Acts (.signalDetect n) s
        (((d.flag (F.LANE_STATE_SIGNAL n)).setLaneState n stWake).updRx n LaneRx.begin_)) ∧
      (d.laneState n = stElecIdle → tenMs ≤ d.ticks - l.rx.idleAt → Acts (.signalDetect n) s
        (((((d.flag (F.LANE_STATE_SIGNAL n)).setLaneState n stWake).updRx n LaneRx.begin_).flag (F.LANE_EVENTS_SLOW_WAKE n)).startTraining n)) ∧
      (d.laneState n ≠ stElecIdle → Acts (.signalDetect n) s (d.flag (F.LANE_STATE_SIGNAL n))) ∧
      (l.rx.idleFlag = true → Acts (.lossOfSignal n) s (d.put (F.LANE_STATE_SIGNAL n) 0)) ∧
      (l.rx.idleFlag = false → d.laneUp n = true →
        Acts (.lossOfSignal n) s (((d.put (F.LANE_STATE_SIGNAL n) 0).enterHunt n).settleRx n 64)) ∧
      (d.laneState n = stWake → Acts (.wakeLockTimeout n) s ((d.flag (F.LANE_EVENTS_SLOW_WAKE n)).startTraining n)) ∧
      (d.enterHunt n).laneState n = stHunt) ∧
    (d.egrHeld = false →
      (d.is (F.LANE_CTRL_IDLE_REQ n) = true → l.tx.empty = true → d.laneUp n = true → d.is (F.LANE_STATE_TX_IDLE n) = false →
        ∃ t, exec (.txIdleEntry n) s = .next t ∧ t.dev.is (F.LANE_STATE_TX_IDLE n) = true ∧ (t.dev.lane n).tx.driving = false ∧
          (t.dev.lane n).tx.idleTick = d.ticks ∧ (t.dev.lane n).rx = l.rx ∧ ∀ m, m ≠ n → t.dev.lane m = d.lane m) ∧
      (d.is (F.LANE_STATE_TX_IDLE n) = true → d.is (F.LANE_CTRL_IDLE_REQ n) = false → d.laneState n ≠ stTest → d.ticks - l.tx.idleTick < tenMs →
        Acts (.txWake n) s ((d.put (F.LANE_STATE_TX_IDLE n) 0).updTx n fun t => { t.restart with wake := some 0 })) ∧
      (d.is (F.LANE_STATE_TX_IDLE n) = true → d.is (F.LANE_CTRL_IDLE_REQ n) = false → d.laneState n ≠ stTest → tenMs ≤ d.ticks - l.tx.idleTick →
        Acts (.txWake n) s (((d.flag (F.LANE_EVENTS_SLOW_WAKE n)).startTraining n).settleRx n 64)) ∧
      ((d.is (F.LANE_STATE_TX_IDLE n) = false ∨ d.laneState n = stTest) → Acts (.txWake n) s d))

/-- INJECT marks the next bit; SNAP copies both counters to the registers and leaves the counters; CLEAR zeroes both counters
and lets them count again and leaves the registers; a locked checker after 64 matching bits shows CHK_LOCK; 512 errors in
its window clear the lock with PRBS_UNLOCK; a full bit counter stops both; an enable that R82 does not allow raises
PRBS_REFUSED and changes nothing else, and an allowed one sets its enable and takes a DISABLED, DOWN or UP lane with nothing
left to settle to TEST; clearing one enable of two keeps TEST, and clearing the last leaves it DISABLED. (03_lanes.md R81, 03_lanes.md R82, 03_lanes.md
R83, 03_lanes.md R75) -/
def Obligations.PrbsCommandsAct : Prop :=
  ∀ (s : State) (n : Nat), n < 96 → upIng s →
    let d := s.dev
    let p := (d.lane n).prbs
    Acts (.prbsInject n) s (d.updPrbs n fun p => { p with inject := true }) ∧
    (∃ t, exec (.prbsSnap n) s = .next t ∧ t.dev.get (F.LANE_PRBS_ERR_ERRORS n) = p.errs % 2 ^ 32 ∧
      t.dev.get (F.LANE_PRBS_BITS_BITS n) = min p.bits (2 ^ 48 - 1) ∧ t.dev.lanes = d.lanes) ∧
    (∃ t, exec (.prbsClear n) s = .next t ∧ (t.dev.lane n).prbs = { p with errs := 0, bits := 0, stopped := false } ∧ t.dev.regs = d.regs) ∧
    (d.laneState n = stTest → d.is (F.LANE_PRBS_CTRL_CHK_EN n) = true → d.is (F.LANE_PRBS_CTRL_CHK_LOCK n) = false → p.matched = 64 →
      Acts (.prbsCheckerLock n) s ((d.flag (F.LANE_PRBS_CTRL_CHK_LOCK n)).updPrbs n fun p => { p with window := 0 })) ∧
    (d.is (F.LANE_PRBS_CTRL_CHK_LOCK n) = true → 512 ≤ popcount 1024 p.window.toNat →
      Acts (.prbsCheckerUnlock n) s (((d.put (F.LANE_PRBS_CTRL_CHK_LOCK n) 0).flag (F.LANE_EVENTS_PRBS_UNLOCK n)).updPrbs n fun p =>
        { p with chk := 0, seed := 0, matched := 0, window := 0 })) ∧
    (2 ^ 48 - 1 ≤ p.bits → Acts (.prbsCounterSaturate n) s (d.updPrbs n fun p => { p with bits := 2 ^ 48 - 1, stopped := true })) ∧
    (d.prbsAllowed n = false → Acts (.prbsGenEn n true) s (d.flag (F.LANE_EVENTS_PRBS_REFUSED n)) ∧
      Acts (.prbsChkEn n true) s (d.flag (F.LANE_EVENTS_PRBS_REFUSED n))) ∧
    (d.prbsAllowed n = true → d.is (F.LANE_PRBS_CTRL_GEN_EN n) = false →
      ∃ t, exec (.prbsGenEn n true) s = .next t ∧ t.dev.is (F.LANE_PRBS_CTRL_GEN_EN n) = true ∧ (t.dev.lane n).tx.driving = true ∧
        ((d.laneState n = stDisabled ∨ d.laneState n = stDown) → (d.lane n).rx.buf = [] → t.dev.laneState n = stTest)) ∧
    (d.prbsAllowed n = true → d.is (F.LANE_PRBS_CTRL_CHK_EN n) = false →
      ∃ t, exec (.prbsChkEn n true) s = .next t ∧ t.dev.is (F.LANE_PRBS_CTRL_CHK_EN n) = true ∧ (t.dev.lane n).prbs.seed = 0 ∧
        (d.laneState n = stUp → (d.lane n).rx.buf = [] → (d.lane n).rx.frame = none → d.ing.opened = none → t.dev.laneState n = stTest)) ∧
    (d.is (F.LANE_PRBS_CTRL_CHK_EN n) = true → d.laneState n = stTest →
      ∃ t, exec (.prbsGenEn n false) s = .next t ∧ t.dev.is (F.LANE_PRBS_CTRL_GEN_EN n) = false ∧ t.dev.laneState n = stTest ∧
        (t.dev.lane n).tx.driving = false) ∧
    (d.is (F.LANE_PRBS_CTRL_GEN_EN n) = false → d.laneState n = stTest →
      ∃ t, exec (.prbsChkEn n false) s = .next t ∧ t.dev.is (F.LANE_PRBS_CTRL_CHK_EN n) = false ∧ t.dev.laneState n = stDisabled)

/-- A receive command takes the block of its type at the head of the lane's elastic buffer. ACK, NAK, PAUSE, TRIGGER and HANDOVER
enter the crossing to egress and act there once nothing stands before them, and are lost on an egress in reset: an ACK
releases every buffered frame it covers, a NAK starts go-back-N unless a replay from it has just begun, a PAUSE holds new
frames for BLOCKS blocks, a TRIGGER acts unless a copy came in the preceding 1 s, a HANDOVER with the pair's values gives the
gap its partner. A TRAIN in TRAINING answers its request; an FSTART opens a frame after truncating one still open or is counted LOST, an FEND closes the open frame in its class, a
QUALITY sets the lane's level, and an idle-entry flag puts an UP lane in ELEC_IDLE. Where another item stands at the head,
the command changes nothing. (04_sloldo_framing.md R106, 04_sloldo_framing.md R110, 04_sloldo_framing.md R111,
04_sloldo_framing.md R114, 04_sloldo_framing.md R115, 04_sloldo_framing.md R116, 04_sloldo_framing.md R117, 03_lanes.md R69,
16_timing_unit.md R409) -/
def Obligations.SloldoControlBlocksAct : Prop :=
  ∀ (s : State) (n : Nat), n < 96 → upIng s →
    let d := s.dev
    let crosses (typ : Nat) (c : Instr) (act : Dev → Payload → Dev) : Prop :=
      (∀ q e, d.takeCtrl n typ = some (q, e) →
        let f := e.afterCtrl n
        (f.egrHeld = true → Acts c s f) ∧ (f.egrHeld = false → f.relay = [] → Acts c s (act f q)) ∧
        (∀ x rest, f.egrHeld = false → f.relay = .frame x :: rest →
          Acts c s { f with relay := f.relay ++ [.ctl n (f.lane n).rx.count q] })) ∧
      (d.takeCtrl n typ = none → Acts c s d)
    crosses 5 (.ackReceive n) (fun f q => f.ackAct n q) ∧ crosses 6 (.nakReceive n) (fun f q => f.nakAct n q) ∧
    crosses 7 (.pauseReceive n) (fun f q => f.pauseAct n q) ∧ crosses 8 (.triggerReceive n) (fun f q => f.triggerAct q) ∧
    crosses 9 (.handoverReceive n) (fun f q => f.handoverAct n q) ∧
    (∀ (f : Dev) (q : Payload) g rest, (f.lane n).tx.replay = g :: rest → f.replays n = true → seqBehind g.seq (pf q 1 0 16) = false →
      f.ackAct n q =
        (f.updTx n fun t =>
          { t with replay := t.replay.filter (fun g => !seqCovers (pf q 1 0 16) g.seq)
                   resend := t.resend.filter (fun g => !seqCovers (pf q 1 0 16) g.seq) }).framesAcked
          ((f.lane n).tx.replay.filter fun g => seqCovers (pf q 1 0 16) g.seq)) ∧
    (∀ (f : Dev) (q : Payload), f.replays n = true → (∀ k, (f.lane n).tx.lastReplay ≠ some (pf q 1 0 16, k)) →
      f.nakAct n q = f.goBack n (pf q 1 0 16)) ∧
    (∀ (f : Dev) (q : Payload), ((f.pauseAct n q).lane n).tx.pause = (if pf q 1 0 16 = 0 then none else some (pf q 1 0 16))) ∧
    (∀ (f : Dev) (q : Payload),
      let old := f.seenTrig.any fun x => x.1 == pf q 1 0 8 && x.2.1 == pf q 2 0 16 && decide (f.viewIng ≤ x.2.2 + secUnit)
      let seen := { f with seenTrig := (f.seenTrig.filter fun (x : Nat × Nat × Nat) => !(x.1 == pf q 1 0 8 && x.2.1 == pf q 2 0 16))
                                      ++ [(pf q 1 0 8, pf q 2 0 16, f.viewIng)] }
      (old = true → f.triggerAct q = seen) ∧
      (old = false → f.triggerAct q = if f.is F.CAP_TRIG_CFG_C2C_EN then
        seen.capTrigger (pf q 14 0 4) (seen.segAt (timeOf (pf q 4 0 48) (pf q 10 0 32) 0)) false true else seen)) ∧
    (∀ (f : Dev) (q : Payload), (f.fo.gap = none → f.handoverAct n q = f) ∧
      (∀ g, f.fo.gap = some g → f.laneGroup n = f.get F.FO_CFG_C2C → pf q 2 0 8 = f.get F.FO_CFG_PAIR_ID → pf q 1 0 1 = b2n g.releasing →
        ∃ h, (f.handoverAct n q).fo.gap = some h ∧ h.partner = some (pf q 3 0 48, pf q 13 0 16, pf q 9 0 32) ∧
          (g.sent = true → g.agreedLeft = none → h.agreedLeft = some 3))) ∧
    (∀ q e, d.takeCtrl n 0x10 = some (q, e) → crcOk q = true → Acts (.fstartReceive n) s
      (((e.truncate n).updRx n fun r =>
        { r with frame := some { hdr := q, data := [], blocks := 0, malformed := malformed ((e.truncate n).laneRole n) q
                                 up := (e.truncate n).laneUp n || ((e.truncate n).lane n).rx.buf.contains .left } }).settleRx n 64)) ∧
    (∀ q e f, d.takeCtrl n 0x11 = some (q, e) → (e.lane n).rx.frame = some f →
      Acts (.fendReceive n) s ((e.closeFrame n f (frameClass f q)).settleLanes)) ∧
    (∀ q e, d.takeCtrl n 4 = some (q, e) → ∃ t, exec (.qualityReceive n) s = .next t ∧
      Tab.get 15 t.dev.tim.laneQl n = if pf q 1 0 4 = 0 then 15 else pf q 1 0 4) ∧
    (∀ q e, d.takeCtrl n 1 = some (q, e) → pf q 1 0 1 = 1 → (e.afterCtrl n).laneUp n = true → Acts (.idleReceive n) s
      ((((e.afterCtrl n).setLaneState n stElecIdle).updRx n fun r =>
        { r.seek with idleFlag := true, idleAt := (e.afterCtrl n).ticks }).settleRx n 64)) ∧
    (∀ q e, d.takeCtrl n 1 = some (q, e) → pf q 1 0 1 = 0 → Acts (.idleReceive n) s (e.afterCtrl n)) ∧
    (∀ q e, d.takeCtrl n 3 = some (q, e) → pf q 1 0 2 ≠ 3 → (e.afterCtrl n).is (F.PTP_PORT_CFG_EN (1 + n)) = true → pf q 1 0 2 ≠ 1 →
      Acts (.timeReceive n) s ((e.afterCtrl n).stamp
        { tx := false, port := 1 + n, type := 8 + pf q 1 0 2, domain := pf q 18 0 8, seqId := pf q 2 0 16
          time := (e.afterCtrl n).rxStamp (1 + n) (d.headTime n) (pf q 1 0 2 == 0), carried := timeOf (pf q 4 0 48) (pf q 10 0 32) (pf q 14 0 32) })) ∧
    (∀ q e, d.takeCtrl n 2 = some (q, e) → (e.afterCtrl n).laneState n ≠ stTraining → Acts (.trainReceive n) s (e.afterCtrl n)) ∧
    (∀ q e, d.takeCtrl n 2 = some (q, e) → (e.afterCtrl n).laneState n = stTraining → ∃ t, exec (.trainReceive n) s = .next t ∧
      (pf q 2 6 1 = 1 → t.dev.is (F.LANE_STATE_PARTNER_READY n) = true) ∧
      (pf q 1 0 2 = 0 → (t.dev.lane n).trn.stat = (0, 0, 0) ∧ (t.dev.lane n).trn.change = none) ∧
      (pf q 1 0 2 = 1 → ((e.afterCtrl n).lane n).trn.change = none → ((e.afterCtrl n).lane n).trn.stat = (0, 0, 0) →
        (t.dev.lane n).trn.change = some (1, 0, pf q 1 4 3))) ∧
    (d.takeCtrl n 0x10 = none → Acts (.fstartReceive n) s d) ∧ (d.takeCtrl n 2 = none → Acts (.trainReceive n) s d)

/-- A data block at the head of the elastic buffer joins the frame that is open or is counted as an orphan. Line bits that
arrive in TEST with the checker enabled reach the PRBS checker, in TRAINING, UP, HUNT and WAKE the Sloldo receiver, which adapts its
equalizer in the first two and nothing else by that, and in DISABLED, DOWN and ELEC_IDLE nothing. A requested preset is applied to the transmit taps and answered UPDATED for all three.
(04_sloldo_framing.md R99, 04_sloldo_framing.md R106, 03_lanes.md R83, 03_lanes.md R65, 03_lanes.md R68, 03_lanes.md R70) -/
def Obligations.DataBlocksJoinTheOpenFrame : Prop :=
  ∀ (s : State) (n : Nat) (line : List Bool), n < 96 → upIng s →
    let d := s.dev
    let e := d.settleRx n 64
    (∀ q rest, (e.lane n).rx.buf = .block false q :: rest → ((e.popRx n).lane n).rx.frame = none →
      Acts (.dataBlockReceive n) s (((e.popRx n).bump (F.FRM_CNT_COUNT n 6) 1).settleRx n 64)) ∧
    (∀ q rest f, (e.lane n).rx.buf = .block false q :: rest → ((e.popRx n).lane n).rx.frame = some f →
      Acts (.dataBlockReceive n) s
        ((((e.popRx n).updRx n fun r => { r with frame := some { f with data := f.data ++ [q] } }).countBlock n).settleRx n 64)) ∧
    (d.laneState n = stTest → d.is (F.LANE_PRBS_CTRL_CHK_EN n) = true → Acts (.blockReceive n line) s
      (d.updPrbs n fun p => line.foldl (fun p b => p.check (d.get (F.LANE_PRBS_CTRL_POLY n)) (d.is (F.LANE_PRBS_CTRL_INVERT n))
        (d.is (F.LANE_PRBS_CTRL_CHK_LOCK n)) (b ^^ d.is (F.LANE_CFG_RX_INV n))) p)) ∧
    ((d.laneState n = stTraining ∨ d.laneState n = stUp ∨ d.laneState n = stHunt ∨ d.laneState n = stWake) →
      Acts (.blockReceive n line) s (((d.adaptDfe n).rxBits n (d.is (F.LANE_CFG_RX_INV n)) line).settleRx n 64)) ∧
    (d.laneState n ≠ stTraining → d.laneState n ≠ stUp → d.adaptDfe n = d) ∧ (∀ r : Reg, r.addr ≠ (R.LANE_RX_EQ n).addr → (d.adaptDfe n).rdReg r = d.rdReg r) ∧
    ((d.laneState n = stDisabled ∨ d.laneState n = stDown ∨ d.laneState n = stElecIdle) → Acts (.blockReceive n line) s d) ∧
    (∀ k tap, (d.lane n).trn.change = some (1, tap, k) → ∃ t, exec (.tapChangeApply n) s = .next t ∧
      (t.dev.get (F.LANE_TX_EQ_PRE n), t.dev.get (F.LANE_TX_EQ_MAIN n), t.dev.get (F.LANE_TX_EQ_POST n)) = preset k ∧
      (t.dev.lane n).trn.stat = (1, 1, 1) ∧ (t.dev.lane n).trn.change = none)

/-- An UP lane that replays sends the ACK that is due, of the last frame taken in order; a receiver that waits owes its NAK again; a
late acknowledgement makes the transmitter go back to its oldest buffered frame, once that has been sent and unless the lane
is paused; a pause whose count has run out ends and no other does; an owed DELAY_RESP is queued on its lane; a lane that left
UP leaves the rotation of its group, and without replay loses what waited, which is counted; an exhausted replay takes the lane
DOWN; and at a block boundary outside training and TEST the transmitter drives the block due in the order of R98. At every block
boundary one block of a pause passes. (04_sloldo_framing.md R98, 04_sloldo_framing.md R110, 04_sloldo_framing.md R111,
04_sloldo_framing.md R112, 04_sloldo_framing.md R114, 03_lanes.md R74, 16_timing_unit.md R409, 03_lanes.md R81) -/
def Obligations.TransmitHalfActs : Prop :=
  ∀ (s : State) (n : Nat), n < 96 → upEgr s →
    let d := s.dev
    let l := d.lane n
    (d.replays n = true → d.laneUp n = true → l.rx.ackDue = true → Acts (.ackSend n) s
      ((d.updRx n fun r => { r with ackDue := false }).updTx n fun t => { t with ack := some ((l.rx.okSeq + 65535) % 65536) })) ∧
    (l.rx.ackDue = false → Acts (.ackSend n) s d) ∧
    (l.rx.nakWait = true → d.laneUp n = true → Acts (.nakRepeat n) s (d.updTx n fun t => { t with nak := some (l.rx.expSeq, l.rx.nakReason) })) ∧
    (∀ f rest, l.tx.replay = f :: rest → d.replays n = true → d.laneUp n = true → l.tx.pause = none →
      (f.sent = true → Acts (.ackWaitTimeout n) s (d.goBack n f.seq)) ∧ (f.sent = false → Acts (.ackWaitTimeout n) s d)) ∧
    (∀ e, (((d.goBack n e).lane n).tx.resend.map (·.seq)) = (l.tx.replay.filter fun g => g.seq == e || seqBehind g.seq e).map (·.seq)) ∧
    (l.tx.pause = some 0 → Acts (.pauseExpire n) s (d.updTx n fun t => { t with pause := none })) ∧
    (l.tx.pause ≠ some 0 → Acts (.pauseExpire n) s d) ∧
    (∀ o, (d.ptp.owed.find? fun o => o.1 == n) = some o → d.laneUp n = true → ∃ t, exec (.delayRespSend n) s = .next t ∧
      (t.dev.lane n).tx.time = l.tx.time ++ [o.2] ∧ t.dev.ptp.owed = d.ptp.owed.erase o) ∧
    (l.rotDue = none → Acts (.laneRotationRemove n) s d) ∧
    (∀ g, l.rotDue = some g → d.laneUp n = true → Acts (.laneRotationRemove n) s (d.updLane n fun l => { l with rotDue := none })) ∧
    (∀ g, l.rotDue = some g → d.laneUp n = false → d.is (F.EGR_GROUP_CFG_REPLAY g) = false →
      ∃ t, exec (.laneRotationRemove n) s = .next t ∧ (t.dev.lane n).tx.queue = [] ∧ (t.dev.lane n).tx.cur = none ∧ (t.dev.lane n).rotDue = none ∧
        t.dev.get (F.EGR_GROUP_LOST_COUNT g) =
          (d.get (F.EGR_GROUP_LOST_COUNT g) + l.tx.queue.length + b2n l.tx.cur.isSome) % 2 ^ (F.EGR_GROUP_LOST_COUNT g).bits) ∧
    (∀ f, l.tx.exhausted = some f → d.replays n = true → d.laneUp n = true → l.tx.pause = none →
      l.rx.buf = [] → l.rx.frame = none → d.ing.opened = none →
      ∃ t, exec (.replayExhausted n) s = .next t ∧ t.dev.laneState n = stDown ∧
        t.dev.evr.transit.length = ((d.linkFail (d.laneGroup n) (d.lanesOf (d.laneGroup n))).1.laneDown n).evr.transit.length + 1) ∧
    (l.tx.driving = false → Acts (.blockTransmit n) s (d.updTx n LaneTx.tick)) ∧
    (l.tx.driving = true → d.laneState n ≠ stTest → d.laneState n ≠ stTraining → l.tx.wake = none →
      Acts (.blockTransmit n) s (((d.dueBlock n).1.updTx n fun t =>
        t.drive (d.is (F.LANE_CFG_TX_INV n)) (d.dueBlock n).2.1 (d.dueBlock n).2.2).updTx n LaneTx.tick)) ∧
    (∀ t : LaneTx, t.tick.pause = t.pause.map (· - 1) ∧
      t.tick.lastReplay = match t.lastReplay with | some (q, k) => if k + 1 < 64 then some (q, k + 1) else none | none => none)

/-- Storing a write over the fields of a register whose fields do not overlap: a bit of an RW field that the write covers takes
the written bit; an RW-L bit does so only while no pattern is active; a W1C bit that is written 1 clears and otherwise
stays; every bit of a field of another type, and every bit outside the fields, stays; no other register and no byte of
memory changes. (00_scope.md R15, 00_scope.md R19) -/
def Obligations.RegisterFieldsFollowTheirAccessType : Prop :=
  ∀ (d : Dev) (r : Reg) (fs : List FieldDef) (v m i : Nat), i < 64 →
    fs.Pairwise (fun a b => a.hi < b.lo ∨ b.hi < a.lo) →
    let new := ((d.storeFields r fs v m).rdReg r).getLsbD i
    let old := (d.rdReg r).getLsbD i
    let covered := if m.testBit i then v.testBit i else old
    (∀ f ∈ fs, f.lo ≤ i → i ≤ f.hi →
      (f.acc = .rw → new = covered) ∧
      (f.acc = .rwl → new = if d.active then old else covered) ∧
      (f.acc = .w1c → new = (old && !(m.testBit i && v.testBit i))) ∧
      (f.acc ≠ .rw → f.acc ≠ .rwl → f.acc ≠ .w1c → new = old)) ∧
    ((∀ f ∈ fs, i < f.lo ∨ f.hi < i) → new = old) ∧
    (∀ q : Reg, q.addr ≠ r.addr → (d.storeFields r fs v m).rdReg q = d.rdReg q) ∧
    ∀ a, (d.storeFields r fs v m).rdByte a = d.rdByte a

/-- A register write to a block of an island held in reset, one of a width other than 32 and 64, and one that is misaligned
answer an error response and change nothing; a 32-bit write to half of a register that requires whole-width writes, or one
that its register refuses, does too; a write to an address of no register changes nothing and answers OKAY, and one outside every
control block DECERR; ISL_RESET refuses the bits of ingest and egress while a pattern is active; a write that leaves those
clear, outside a swap, holds exactly the compute islands whose bits are set, whose units, verdicts, tables, staging entries and
panels are lost, and changes no panel of an island whose bit stays. (00_scope.md R19, 00_scope.md R20, 01_architecture.md R32,
01_architecture.md R33, 21_register_index.md R500, 00_scope.md R15, 15_welt_dma_and_qos.md R366) -/
def Obligations.RefusedWritesChangeNothing : Prop :=
  (∀ (s : State) (a w v : Nat), up s → weltTarget a ≠ 5 → Acts (.registerWrite a w v) s { s.dev with answer := (2, 0) }) ∧
  (∀ (s : State) (a w v : Nat), up s → weltTarget a = 5 →
    ((s.dev.blockHeld a = true ∨ (w ≠ 32 ∧ w ≠ 64) ∨ a % (w / 8) ≠ 0) →
      Acts (.registerWrite a w v) s { s.dev with answer := (1, 0) }) ∧
    (s.dev.blockHeld a = false → w = 32 → a % 4 = 0 → regRow a = none → Acts (.registerWrite a w v) s { s.dev with answer := (0, 0) }) ∧
    (∀ row ix off, s.dev.blockHeld a = false → w = 32 → a % 4 = 0 → regRow a = some (row, ix, off) →
      ((row.whole = true ∧ row.width = 64) ∨
        s.dev.writeRefused row.id (ix.getD 0 0) (v % 2 ^ 32 * 2 ^ (8 * off)) ((2 ^ 32 - 1) * 2 ^ (8 * off)) = true) →
      Acts (.registerWrite a w v) s { s.dev with answer := (1, 0) })) ∧
  ∀ (s : State) (v : Nat), up s →
    (s.dev.active = true → bitsOf v 9 8 ≠ 0 → Acts (.islResetWrite v) s { s.dev with answer := (1, 0) }) ∧
    ((s.dev.active = false ∨ bitsOf v 9 8 = 0) → (s.dev.islReset v).2 = false ∧
      Acts (.islResetWrite v) s { (s.dev.islReset v).1 with answer := (0, 0) }) ∧
    (bitsOf v 9 8 = 0 → s.dev.pat.next = [] → ∃ t, exec (.islResetWrite v) s = .next t ∧ t.dev.answer = (0, 0) ∧
      (∀ k, k < 8 → t.dev.islHeld k = bitOf v k) ∧ t.dev.ingHeld = false ∧ t.dev.egrHeld = false ∧
      (∀ k, k < 8 → bitOf v k = true → s.dev.islHeld k = false →
        (t.dev.isl k).units = [] ∧ (t.dev.isl k).verdicts = [] ∧ (t.dev.isl k).tabs = [] ∧ (t.dev.isl k).staging = [] ∧
        ∀ p, p < 64 → p / 8 = k → t.dev.panel p = PanelSt.init) ∧
      (∀ p, p < 64 → bitOf v (p / 8) = s.dev.islHeld (p / 8) → t.dev.panel p = s.dev.panel p))

/-- A 32-bit write to a register that accepts it stores the fields that it covers, then does what the register starts, and
answers an error response exactly where it covers an RW-L field while a pattern is active. (00_scope.md R15, 00_scope.md
R20) -/
def Obligations.RegisterWriteStoresThenActs : Prop :=
  ∀ (s : State) (a v : Nat) (row : RegDef) (ix : List Nat) (off : Nat), up s → weltTarget a = 5 → s.dev.blockHeld a = false → a % 4 = 0 →
    regRow a = some (row, ix, off) → (row.whole = true → row.width ≤ 32) → ¬(row.id = .INTC_PRIO ∧ ix.getD 0 0 = 0) →
    let m := (2 ^ 32 - 1) * 2 ^ (8 * off)
    let b := v % 2 ^ 32 * 2 ^ (8 * off)
    let j := if row.id == .MON_CS || row.id == .INTC_ENABLE then ix.getD 1 0 else 0
    s.dev.writeRefused row.id (ix.getD 0 0) b m = false →
    Acts (.registerWrite a 32 v) s
      { (s.dev.storeFields (row.id.reg ix) row.fields b m).writeActs s.dev row.id (ix.getD 0 0) j b m with
        answer := (b2n (s.dev.lockedWrite row.fields m), 0) } ∧
    (s.dev.active = false → s.dev.lockedWrite row.fields m = false)

/-- Over every row of the register map, the registers that require whole-width writes are exactly the nineteen named in R500,
and each of them is 64 bits wide. (21_register_index.md R500) -/
def Obligations.WholeWidthRegistersAreExactlyR500 : Prop :=
  ∀ e ∈ regBlocks, ∀ row ∈ e.2,
    (row.whole = true ↔ row.id ∈ [RegId.ING_AG_EPOCH_SC, .ING_AG_MAP_SC, .ING_AG_PERIOD, .ING_SLOT_COMMIT, .DEV_DRAIN_AT, .DEV_CORE_RVEC,
      .DEV_QSPI_CTRL, .ISL_VERDICT_POST, .ISL_WEIGHT_COMMIT, .PAT_ACTIVATE_AT, .PAT_STOP_AT, .CAP_TRIG_SW, .FUSE_REPAIR_PROG, .DMA_CH_RING,
      .TIM_INCREMENT, .TIM_TIME_LOAD_SEC, .PTP_LANE_TX, .MON_RATIO, .EVR_APPEND]) ∧ (row.whole = true → row.width = 64)

/-- A read of control space changes the device only where it is a 64-bit read of PTP.TS_POP or a 32-bit read of an INTC.CLAIM; a
read of any 32-bit half of PTP.TS_POP, and a 64-bit read that touches INTC.CLAIM, receives an error response and removes
nothing. (21_register_index.md R499, 00_scope.md R16, 00_scope.md R17) -/
def Obligations.OnlyPopRegistersReadWithAnEffect : Prop :=
  (∀ e ∈ regBlocks, ∀ row ∈ e.2, (∃ f ∈ row.fields, f.acc = .pop) ↔ (row.id = .PTP_TS_POP ∨ row.id = .INTC_CLAIM)) ∧
  ∀ (d : Dev) (a w : Nat),
    (¬(a = R.PTP_TS_POP.addr ∧ w = 64) → (∀ c, c < 16 → ¬(a = (R.INTC_CLAIM c).addr ∧ w = 32)) → (d.regRead a w).1 = d) ∧
    ((d.regRead R.PTP_TS_POP.addr 64).1 = d.tsPop.1 ∧ (d.regRead R.PTP_TS_POP.addr 64).2 = (d.tsPop.2, false)) ∧
    (∀ c, c < 16 → (d.regRead (R.INTC_CLAIM c).addr 32) = ((d.intcClaim c).1, (d.intcClaim c).2, false)) ∧
    (d.regRead R.PTP_TS_POP.addr 32 = (d, 0, true) ∧ d.regRead (R.PTP_TS_POP.addr + 4) 32 = (d, 0, true)) ∧
    ∀ c, c < 16 → d.regRead ((R.INTC_CLAIM c).addr / 8 * 8) 64 = (d, 0, true)

/-- A slot-mask commit or a drain named at a frame that is not above ING.FRAME_HEAD sets its LATE flag and writes an event
record with the frame, and changes neither the commits that wait nor memory; one above it waits, and a slot-mask commit that
replaces a waiting one shows REPLACED. (02_time_and_alignment.md R56, 05_ingest_and_corner_turn.md R126,
07_accumulation_and_drain.md R186) -/
def Obligations.LateCommitsAreRefused : Prop :=
  ∀ (s : State) (v : Nat), s.dev.up = true → s.dev.ingHeld = false →
    let d := s.dev
    let f := v % 2 ^ 48
    (f ≤ d.get F.ING_FRAME_HEAD_HEAD → ∃ t, exec (.slotCommitPost v) s = .next t ∧ t.dev.is F.ING_SLOT_STATUS_LATE = true ∧
      t.dev.ing = d.ing ∧ t.dev.get F.ING_SLOT_COMMIT_AT_FRAME = f ∧ t.dev.evr.transit.length = d.evr.transit.length + 1 ∧
      ∀ a, t.dev.rdByte a = d.rdByte a) ∧
    (d.get F.ING_FRAME_HEAD_HEAD < f → ∃ t, exec (.slotCommitPost v) s = .next t ∧ t.dev.is F.ING_SLOT_STATUS_PENDING = true ∧
      t.dev.ing = { d.ing with slotAt := some f } ∧ t.dev.get F.ING_SLOT_COMMIT_AT_FRAME = f ∧ t.dev.evr = d.evr ∧
      (d.ing.slotAt.isSome = true → t.dev.is F.ING_SLOT_STATUS_REPLACED = true)) ∧
    ((d.active = false ∨ f ≤ d.get F.ING_FRAME_HEAD_HEAD) → ∃ t, exec (.drainPost v) s = .next t ∧ t.dev.is F.DEV_DRAIN_STATUS_LATE = true ∧
      t.dev.spill = d.spill ∧ t.dev.evr.transit.length = d.evr.transit.length + 1 ∧ ∀ a, t.dev.rdByte a = d.rdByte a)

/-- Arming a group whose boundary its own frames have passed latches the shadow map at that boundary and clears ARM, and one whose
boundary lies ahead keeps it armed. A deadline that device time has not reached does nothing; one that it has reached ends the
group's oldest frame, which goes on to the next, completes the frame where the group is in use, and sets UNDERRUN where a member
had left a position unfilled. A marker at the head of the crossing to an island becomes its newest marker, and a drain, swap or
mask commit there is kept by the island. A statistics record updates the valid count and enters its ring, or is dropped and
counted where the ring is full. The oldest staged write is sent once its queue has room, and, its channels up, commits byte for
byte and is timed; one that a lost channel refuses is counted. The filler begins the next unit once its frame is complete, marked
and within the run-ahead, and a unit that has been read stands in the Insole. A generated frame whose members are IN completes.
(02_time_and_alignment.md R45, 02_time_and_alignment.md R49, 02_time_and_alignment.md R51, 02_time_and_alignment.md R57,
05_ingest_and_corner_turn.md R130, 05_ingest_and_corner_turn.md R136, 15_welt_dma_and_qos.md R383,
11_pattern_images_and_modes.md R283) -/
def Obligations.IngestCommandsAct : Prop :=
  ∀ (s : State), s.dev.up = true →
    let d := s.dev
    (d.ingHeld = false → ∀ g, g < 64 →
      let x := d.group g
      let m := (x.maps.head?.map (·.2)).getD TimeMap.reset
      let n := (firstFrameAfter m (d.epoch g) d.viewIng).getD x.top
      let f := x.fold
      let q := x.tail 64 (max f d.ing.first)
      ((n < x.top ∨ n ≤ f) → ∃ t, exec (.agCommitArm g) s = .next t ∧ (t.dev.group g).maps = (n, d.shadowMap g) :: x.maps ∧
        (t.dev.group g).armAt = none ∧ t.dev.is (F.ING_AG_COMMIT_ARM g) = false) ∧
      (x.top ≤ n → f < n → ∃ t, exec (.agCommitArm g) s = .next t ∧ (t.dev.group g).maps = x.maps ∧
        (t.dev.group g).armAt = some n ∧ t.dev.is (F.ING_AG_COMMIT_ARM g) = true) ∧
      (d.viewIng < d.deadline g f → Acts (.frameDeadline g) s d) ∧
      (d.deadline g f ≤ d.viewIng → ∃ t, exec (.frameDeadline g) s = .next t ∧ (t.dev.group g).fold = f + 1) ∧
      (d.deadline g f ≤ d.viewIng → d.active = true → d.ing.first ≤ f → d.stoppedFor f = false → d.members f g ≠ [] →
        ∃ t, exec (.frameDeadline g) s = .next t ∧ (t.dev.frame g f).done = true ∧
          ((∃ u, u ∈ d.members f g ∧ d.maskedFor f u = false ∧ d.streamFull g f u = false) →
            t.dev.is (F.ING_AG_STATUS_UNDERRUN g) = true)) ∧
      (d.pat.armed = none → (d.generated q = false ∨ d.members q g = []) → Acts (.testFrameGenerate g) s d) ∧
      (∀ h, d.pat.armed = none → d.ing.opened = some h → q ≤ h → d.generated q = true → d.stoppedFor q = false →
        d.frameOpen g q = true → d.members q g ≠ [] →
        (∀ u, u ∈ d.members q g → d.is (F.ING_STREAM_ST_OUT u) = false ∧ (d.stream u).inFrom ≤ q) →
        ∃ t, exec (.testFrameGenerate g) s = .next t ∧ (t.dev.frame g q).done = true)) ∧
    (∀ k, k < 8 → d.islHeld k = false →
      let x := d.isl k
      let items := Tab.get [] d.ing.toIsl k
      (∀ f rest, items = .marker f :: rest → d.islLive k = true → ∃ t, exec (.frameMarkerArrive k) s = .next t ∧
        (t.dev.isl k).marked = some f ∧ t.dev.get (F.ISL_MARK_HEAD_FRAME k) = f % 2 ^ 48 ∧ Tab.get [] t.dev.ing.toIsl k = rest ∧
        (t.dev.isl k).units = x.units ∧ t.dev.panels = d.panels ∧ ∀ a, t.dev.rdByte a = d.rdByte a) ∧
      ((∀ f rest, items ≠ .marker f :: rest) → Acts (.frameMarkerArrive k) s d) ∧
      (∀ f rest, items = .drain f :: rest → ∃ t, exec (.commitArrive k) s = .next t ∧
        ⟨1, f, false⟩ ∈ (t.dev.isl k).commits ∧ Tab.get [] t.dev.ing.toIsl k = rest) ∧
      (∀ f b rest, items = .swap f b :: rest → ∃ t, exec (.commitArrive k) s = .next t ∧
        ⟨2, f, b⟩ ∈ (t.dev.isl k).commits ∧ Tab.get [] t.dev.ing.toIsl k = rest) ∧
      (∀ f b rest, items = .mask f b :: rest → ∃ t, exec (.commitArrive k) s = .next t ∧
        ⟨0, f, b⟩ ∈ (t.dev.isl k).commits ∧ Tab.get [] t.dev.ing.toIsl k = rest) ∧
      (∀ f rest, items = .stat f [] :: rest → Acts (.statRecordDeliver k) s (d.popIsl k)) ∧
      (∀ f r rest, items = .stat f [r] :: rest →
        let j := r.chan / 16 % 2
        let len := d.icfg k f (F.ISL_STAT_RING_LEN k j)
        let base := d.icfg k f (F.ISL_STAT_RING_BASE k j)
        let wr := d.get (F.ISL_STAT_WR_COUNT k j)
        ∃ t, exec (.statRecordDeliver k) s = .next t ∧ Tab.get [] t.dev.ing.toIsl k = rest ∧
          (d.occOpen k f = true → Tab.get 0 (t.dev.isl k).valid (validKey f r.ct r.chan) = r.n) ∧
          (d.statUsed k j + 1 ≤ len → t.dev.get (F.ISL_STAT_WR_COUNT k j) = (wr + 1) % 2 ^ 32 ∧
            ∀ i, i < 16 → t.dev.rdByte (awlDataAddr (2 * k + j) ((base + wr % 2 ^ 32 % max 1 len) % 16384 * 16) + i) = BitVec.ofNat 8 (r.bytes.getD i 0)) ∧
          (len < d.statUsed k j + 1 → t.dev.get (F.ISL_STAT_WR_COUNT k j) = wr ∧
            t.dev.get (F.ISL_STAT_DROP_COUNT k j) = (d.get (F.ISL_STAT_DROP_COUNT k j) + 1) % 2 ^ (F.ISL_STAT_DROP_COUNT k j).bits ∧
            ∀ a, t.dev.rdByte a = d.rdByte a)) ∧
      (let n := x.nextFill.1
       let u := x.nextFill.2
       ∀ fu, (d.planFor k n)[u]? = some fu → d.islLive k = true → d.active = true → d.lostFrame k n = none → x.units = [] →
        (n ≤ d.islFrame k + d.icfg k n (F.ISL_FILL_CFG_RUN_AHEAD k) → n < d.get F.ING_FRAME_TAIL_TAIL → (∃ m, x.marked = some m ∧ n ≤ m) →
          ∃ t, exec (.fillUnitRead k) s = .next t ∧
            (t.dev.isl k).nextFill = (if u + 1 < (d.planFor k n).length then (n, u + 1) else (n + 1, 0)) ∧
            (t.dev.isl k).units = [⟨n, u, fu, false, false, false, (x.released.filter fun r => r.1 == n && r.2.1 == u).map (·.2.2)⟩]) ∧
        ((d.islFrame k + d.icfg k n (F.ISL_FILL_CFG_RUN_AHEAD k) < n ∨ d.get F.ING_FRAME_TAIL_TAIL ≤ n ∨ x.marked = none) →
          ∃ t, exec (.fillUnitRead k) s = .next t ∧ (t.dev.isl k).nextFill = (n, u) ∧ (t.dev.isl k).units = [])) ∧
      (∀ e, (x.units.find? fun e => !e.full) = some e →
        let b := d.sampleBytes e.frame
        let full := x.units.map fun y => if y = e then { y with full := true } else y
        let from_ (v : Nat × Nat × Nat × Nat) : Nat := d.ctAddr e.frame v.2.2.2 k v.2.2.1 v.2.1
        (e.drop = true → ∃ t, exec (.fillUnitComplete k) s = .next t ∧ (t.dev.isl k).units = x.units.filter (fun y => y != e)) ∧
        (e.drop = false → e.zero = true → ∃ t, exec (.fillUnitComplete k) s = .next t ∧ (t.dev.isl k).units = full ∧
          (∀ i, i < e.fu.size b → t.dev.rdByte (insoleAddr k e.fu.dest + i) = 0) ∧
          ∀ a, (a < insoleAddr k e.fu.dest ∨ insoleAddr k e.fu.dest + e.fu.size b ≤ a) → t.dev.rdByte a = d.rdByte a) ∧
        (e.drop = false → e.zero = false → (∃ v, v ∈ e.fu.samples b ∧ d.memBusy (from_ v) b = true) → Acts (.fillUnitComplete k) s d) ∧
        (e.drop = false → e.zero = false → (∀ v, v ∈ e.fu.samples b → d.memBusy (from_ v) b = false) →
          (∀ v, v ∈ e.fu.samples b → (d.memRead (from_ v) b).err = false ∧ (d.memRead (from_ v) b).ue = []) →
          ∃ t, exec (.fillUnitComplete k) s = .next t ∧ (t.dev.isl k).units = full ∧
            ∀ v i, v ∈ e.fu.samples b → i < b → t.dev.rdByte (insoleAddr k (e.fu.dest + v.1) + i) = BitVec.ofNat 8 (d.sdByte (from_ v + i)))) ∧
      ((x.units.find? fun e => !e.full) = none → Acts (.fillUnitComplete k) s d)) ∧
    (d.ingHeld = false → ∀ c ns, c < 12 →
      (∀ w, (d.ing.staging.find? fun w => (d.chanOf w.addr).1 == c) = some w → d.indigoUsed c + w.cells.length ≤ 16384 →
        ∃ t, exec (.ctWriteSend c) s = .next t ∧ t.dev.ing.sent = d.ing.sent ++ [w] ∧
          t.dev.ing.staging = d.ing.staging.filter (·.id ≠ w.id) ∧ ∀ a, t.dev.rdByte a = d.rdByte a) ∧
      ((d.ing.sent.find? fun w => (d.chanOf w.addr).1 == c) = none → Acts (.ctWriteCommit c ns) s d) ∧
      (∀ w, (d.ing.sent.find? fun w => (d.chanOf w.addr).1 == c) = some w →
        ((∃ x, x ∈ w.cells ∧ d.memBusy x.1 1 = true) → Acts (.ctWriteCommit c ns) s d) ∧
        ((∀ x, x ∈ w.cells → d.memBusy x.1 1 = false) →
          ((∀ x, x ∈ w.cells → d.beatLost x.1 = false ∧ d.sdramInUse x.1 1 = true) → w.cells.Pairwise (fun a b => a.1 ≠ b.1) →
            ∃ t, exec (.ctWriteCommit c ns) s = .next t ∧ t.dev.ing.sent = d.ing.sent.filter (·.id ≠ w.id) ∧
              (∀ x, x ∈ w.cells → t.dev.rdByte x.1 = x.2) ∧ (∀ a, (∀ x, x ∈ w.cells → a ≠ x.1) → t.dev.rdByte a = d.rdByte a) ∧
              t.dev.get F.WELT_IND_MAX_NS = max (d.get F.WELT_IND_MAX_NS) (min ns (2 ^ 24 - 1)) ∧
              (4000 < ns → t.dev.is F.WELT_EVENTS_IND_OVER = true)) ∧
          ((∃ x, x ∈ w.cells ∧ d.beatLost x.1 = true) → ∃ t, exec (.ctWriteCommit c ns) s = .next t ∧
            t.dev.ing.sent = d.ing.sent.filter (·.id ≠ w.id) ∧ t.dev.is F.WELT_EVENTS_IND_DROP = true))))

/-- SNAP copies seconds, nanoseconds and fraction of device time and changes neither time nor memory; a write of INCREMENT is
refused while the servo owns it, and otherwise takes the value held within its limits, INC_CLAMP showing that it was not the
one written; a LOAD at once is refused with LOAD_REFUSED and leaves time while a pattern is active, and otherwise sets time,
clears what is below its units and sends a time message; a LOAD at a PPS edge waits; PHASE_STEP adds to PHASE_PEND within
its 40 bits; PHASE_SLEW moves at most 1 ns of it into the output phase; a time message makes the view of every island that is not
held device time. (16_timing_unit.md R386, 16_timing_unit.md R387, 16_timing_unit.md R388, 16_timing_unit.md R389, 16_timing_unit.md
R390, 16_timing_unit.md R407) -/
def Obligations.TimeRegistersAct : Prop :=
  ∀ (s : State), up s →
    let d := s.dev
    (∃ t, exec .timeSnap s = .next t ∧ t.dev.get F.TIM_SNAP_SEC_SEC = timeSec d.time % 2 ^ 48 ∧ t.dev.get F.TIM_SNAP_NSF_NS = timeNs d.time ∧
      t.dev.get F.TIM_SNAP_NSF_FRAC = timeFrac d.time ∧ t.dev.time = d.time ∧ ∀ a, t.dev.rdByte a = d.rdByte a) ∧
    (∀ v, v < 2 ^ 64 →
      (d.is F.TIM_STATUS_HW_OWNS = true → Acts (.incrementWrite v) s { d with answer := (1, 0) }) ∧
      (d.is F.TIM_STATUS_HW_OWNS = false → ∃ t, exec (.incrementWrite v) s = .next t ∧ t.dev.answer = (0, 0) ∧
        t.dev.get F.TIM_INCREMENT_INC = max incMin (min incMax v) ∧
        (incMin ≤ v → v ≤ incMax → t.dev.is F.TIM_HISTORY_INC_CLAMP = d.is F.TIM_HISTORY_INC_CLAMP) ∧
        ((v < incMin ∨ incMax < v) → t.dev.is F.TIM_HISTORY_INC_CLAMP = true) ∧ t.dev.tim.wdog = false)) ∧
    (let at_ := d.get F.TIM_CTRL_LOAD_AT
     let sec := d.get F.TIM_TIME_LOAD_SEC_SEC
     let ns := min (d.get F.TIM_TIME_LOAD_NS_NS) 999999999
     (at_ ≠ 1 → at_ ≠ 2 → d.active = true → ∃ t, exec .timeLoadRequest s = .next t ∧ t.dev.time = d.time ∧
        t.dev.is F.TIM_HISTORY_LOAD_REFUSED = true) ∧
     (at_ ≠ 1 → at_ ≠ 2 → d.active = false → ∃ t, exec .timeLoadRequest s = .next t ∧ t.dev.time = min (timeOf sec ns 0) clockMax ∧
        t.dev.tim.hid = 0 ∧ t.dev.viewIng = t.dev.time ∧ t.dev.is F.TIM_HISTORY_LOAD_DONE = true) ∧
     ((at_ = 1 ∨ at_ = 2) → ∃ t, exec .timeLoadRequest s = .next t ∧ t.dev.tim.load = some (at_, sec, ns) ∧ t.dev.time = d.time ∧
        t.dev.is F.TIM_CTRL_LOAD = true)) ∧
    (∀ v, ∃ t, exec (.phaseStep v) s = .next t ∧ t.dev.phasePend = clampI (-(2 ^ 39)) (2 ^ 39 - 1) (d.phasePend + sext 32 v) ∧
      (t.dev.is F.TIM_STATUS_SLEWING = true ↔ t.dev.phasePend ≠ 0)) ∧
    (∃ t, exec .phaseSlew s = .next t ∧ t.dev.tim.phase = d.tim.phase + clampI (-1024) 1024 d.phasePend ∧
      t.dev.phasePend = d.phasePend - clampI (-1024) 1024 d.phasePend) ∧
    (∃ t, exec .timeMessageSend s = .next t ∧ t.dev.viewIng = d.time ∧ t.dev.viewEgr = d.time ∧ t.dev.viewMem = d.time ∧ t.dev.viewSoc = d.time ∧
      (∀ k, k < 8 → (t.dev.isl k).view = if (d.isl k).held then (d.isl k).view else d.time) ∧ t.dev.time = d.time ∧ t.dev.regs = d.regs)

/-- A quality message that fails its check changes nothing, and one that repeats the level of the last takes effect; a time-out
on a line or lane makes its level 15; the PTP watchdog disqualifies reference 10 with reason WDOG while it is enabled, and
does nothing at WDOG 0; build-out ends only in SWITCHING, once it has lasted BO seconds of device time; arming a frame output shows
ARM; a frame output without a train gives no pulse, nor does one before its device time, and one with a train records the rise; an epoch
for a second that had none yet sends a time message and places PPS_OUT at the whole second plus the output phase. QUALITY_SEND queues one QUALITY block on every lane that is due one and none on another. An evaluation
shows every reference's quality and disqualifies each that fails a condition, with its reason. A PPS edge keeps the time and the
phase of the edge, and a load that waits for it takes effect, the input's delay added, unless a pattern is active. (16_timing_unit.md R392,
16_timing_unit.md R393, 16_timing_unit.md R394, 16_timing_unit.md R395, 16_timing_unit.md R399, 16_timing_unit.md R405,
16_timing_unit.md R406) -/
def Obligations.ReferencesAndOutputsAct : Prop :=
  ∀ (s : State), up s →
    let d := s.dev
    (∀ ql m, ql < 4 →
      ((bitsOf m 7 0 ≠ 0xA5 ∨ bitsOf m 15 12 ≠ 15 - bitsOf m 11 8) → Acts (.qlMessageReceive ql m) s d) ∧
      (bitsOf m 7 0 = 0xA5 → bitsOf m 15 12 = 15 - bitsOf m 11 8 → (Tab.get (15, 15) d.tim.lines ql).2 = bitsOf m 11 8 →
        ∃ t, exec (.qlMessageReceive ql m) s = .next t ∧ Tab.get (15, 15) t.dev.tim.lines ql = (bitsOf m 11 8, bitsOf m 11 8)) ∧
      (∃ t, exec (.qlTimeout ql) s = .next t ∧ (Tab.get (15, 15) t.dev.tim.lines ql).1 = 15 ∧ t.dev.regs = d.regs)) ∧
    (∀ k, k < 4 → ∃ t, exec (.lrefQualityTimeout k) s = .next t ∧ Tab.get 15 t.dev.tim.laneQl (d.lrefLane k) = 15 ∧ t.dev.regs = d.regs) ∧
    (∃ t, exec .qualitySend s = .next t ∧ t.dev.regs = d.regs ∧ ∀ n, n < 96 →
      let a := d.refActive
      let q := if 4 ≤ a ∧ a < 8 ∧ d.lrefLane (a - 4) = n then 15 else d.get F.TIM_STATUS_QL_TX
      let x := (d.lane n).tx
      (t.dev.lane n).tx.qual = if d.get (F.LANE_STATE_STATE n) = 2 ∧ (d.get (F.LANE_CFG_ROLE n) = 3 ∨ d.is F.TIM_QTX_ALL = true) then
        x.qual ++ [sealBlock ([4, q] ++ toBytes 2 x.qualCount)] else x.qual) ∧
    (d.get F.TIM_PTP_REF_WDOG = 0 → Acts .ptpWatchdogExpire s d) ∧
    (d.get F.TIM_PTP_REF_WDOG ≠ 0 → ∃ t, exec .ptpWatchdogExpire s = .next t ∧ t.dev.tim.wdog = true ∧
      t.dev.is (F.TIM_REF_STATUS_QUALIFIED 10) = false ∧ t.dev.get (F.TIM_REF_STATUS_REASON 10) = 6) ∧
    (∀ act range lock freqs, ∃ t, exec (.referenceEvaluation act range lock freqs) s = .next t ∧ t.dev.tim.ms = d.tim.ms + 1 ∧
      ∀ i, i < 11 → t.dev.get (F.TIM_REF_STATUS_QL i) = d.refQuality i % 2 ^ (F.TIM_REF_STATUS_QL i).bits ∧
        (d.refFails i act range ≠ 0 → t.dev.is (F.TIM_REF_STATUS_QUALIFIED i) = false ∧
          t.dev.get (F.TIM_REF_STATUS_REASON i) = d.refFails i act range)) ∧
    ((d.timState ≠ timSwitching ∨ d.time < d.tim.swAt + max 1 (d.get F.TIM_SEL_CFG_BO) * secUnit) → Acts .buildOutEnd s d) ∧
    (d.timState = timSwitching → d.tim.swAt + max 1 (d.get F.TIM_SEL_CFG_BO) * secUnit ≤ d.time → d.refTarget ≠ 8 → d.refTarget ≠ 9 →
      Acts .buildOutEnd s (((d.timEnter timLocked d.refTarget 15).revertCheck).showWtr)) ∧
    (d.timState = timSwitching → d.builtOut = true → d.is F.TIM_CTRL_REVERTIVE = false → d.is F.TIM_CTRL_FORCE_EN = false → ∃ t, exec .buildOutEnd s = .next t ∧
      t.dev.timState = timLocked ∧ t.dev.refActive = d.refTarget ∧ t.dev.refTarget = 15) ∧
    (∀ p, p < 2 → ∃ t, exec (.ppsEdge p) s = .next t ∧ (t.dev.ppsIn p).edge = some d.ticks ∧
      (t.dev.ppsIn p).phase = halfSecond ((d.time : Int) - d.ppsDelay p) ∧
      ((∀ sec ns, d.tim.load ≠ some (1 + p, sec, ns)) → t.dev.time = d.time ∧ t.dev.tim.load = d.tim.load) ∧
      ∀ sec ns, d.tim.load = some (1 + p, sec, ns) → t.dev.tim.load = none ∧
        (d.active = true → t.dev.time = d.time ∧ t.dev.is F.TIM_HISTORY_LOAD_REFUSED = true) ∧
        (d.active = false → t.dev.time = min ((timeOf sec ns 0 : Int) + d.ppsDelay p).toNat clockMax ∧
          t.dev.is F.TIM_HISTORY_LOAD_DONE = true)) ∧
    (timeSec d.time = d.tim.epoch → Acts .epoch s d) ∧
    (timeSec d.time ≠ d.tim.epoch → ∃ t, exec .epoch s = .next t ∧ t.dev.viewEgr = d.time ∧ t.dev.tim.epoch = timeSec d.time ∧ t.dev.time = d.time ∧
      (d.is F.TIM_PPS_OUT_PPS_EN = true → t.dev.tim.ppsRise = some ((timeSec d.time * secUnit : Nat) + ns10 d.tim.phase))) ∧
    (∀ k, k < 4 →
      (∃ t, exec (.frameOutArm k) s = .next t ∧ t.dev.is (F.TIM_FO_CFG_ARM k) = true ∧ t.dev.time = d.time) ∧
      ((d.tim.trains.find? fun e => e.1 == k) = none → Acts (.frameOutPulse k) s d) ∧
      (∀ j q m, (d.tim.trains.find? fun e => e.1 == k) = some (j, q, m) →
        let rise : Int := (q + d.get (F.TIM_FO_OFFSET_NS k) * nsUnit + m * d.get (F.TIM_FO_PERIOD_PERIOD k) * 65536 : Nat) + ns10 d.tim.phase
        (d.time < rise → Acts (.frameOutPulse k) s d) ∧
        (rise ≤ d.time → ∃ t, exec (.frameOutPulse k) s = .next t ∧ Tab.get none t.dev.tim.rises k = some rise ∧ t.dev.viewIng = d.time)))

/-- TS_POP on an empty FIFO answers zero and removes nothing; else it removes the oldest stamp, answers a key with VALID set, its
TX bit, and LOST where a stamp was discarded since the last pop, and puts the stamp's own and carried times in the registers. A write of PTP.LANE_TX queues a SYNC or DELAY_REQ
on a lane that is UP, and is refused with TX_REFUSED for any other message, lane number or lane state. (16_timing_unit.md
R411, 16_timing_unit.md R409, 00_scope.md R17) -/
def Obligations.TimeStampsLeaveInOrder : Prop :=
  ∀ (s : State), up s →
    let d := s.dev
    (d.ptp.fifo = [] → Acts .tsPop s { d with answer := (0, 0) }) ∧
    (∀ x rest, d.ptp.fifo = x :: rest → ∃ t, exec .tsPop s = .next t ∧ t.dev.ptp = { d.ptp with fifo := rest, lost := false } ∧
      t.dev.answer.1 = 0 ∧ bitsOf t.dev.answer.2 63 63 = 1 ∧ bitsOf t.dev.answer.2 62 62 = b2n x.tx ∧ bitsOf t.dev.answer.2 61 61 = b2n d.ptp.lost ∧
      bitsOf t.dev.answer.2 60 54 = x.port % 128 ∧ bitsOf t.dev.answer.2 31 16 = x.seqId % 65536 ∧
      t.dev.get F.PTP_TS_SEC_SEC = timeSec x.time % 2 ^ 48 ∧ t.dev.get F.PTP_TS_NSF_NS = timeNs x.time ∧
      t.dev.get F.PTP_TS_NSF_FRAC = timeFrac x.time ∧ t.dev.get F.PTP_TS_CSEC_SEC = timeSec x.carried % 2 ^ 48) ∧
    ∀ v, let n := bitsOf v 6 0
      ((2 ≤ bitsOf v 9 8 ∨ 96 ≤ n ∨ d.laneUp n = false) → Acts (.ptpLaneTx v) s (d.flag F.PTP_STATUS_TX_REFUSED)) ∧
      (bitsOf v 9 8 < 2 → n < 96 → d.laneUp n = true → ∃ t, exec (.ptpLaneTx v) s = .next t ∧
        (t.dev.lane n).tx.time = (d.lane n).tx.time ++ [{ msg := bitsOf v 9 8, seqId := bitsOf v 31 16, domain := bitsOf v 39 32, time := 0 }] ∧
        t.dev.regs = d.regs)

/-- A claim answers the qualifying source of highest priority, or zero, clears its pending bit and gives it to the context; a
complete of a source that the context has not claimed, or that is not enabled for it, changes nothing; else the source is no
longer claimed; the machine timer and software interrupts of a hart follow CMP, TIME and SWI, and are clear while it is
held; a write of CORE_HOLD that is not allowed receives an error response and changes nothing, and another starts each hart that it
releases at CORE_RVEC and leaves the running ones where they are.
(17_application_cores_boot_management.md R420, 17_application_cores_boot_management.md R421,
17_application_cores_boot_management.md R423, 17_application_cores_boot_management.md R418) -/
def Obligations.InterruptsClaimAndComplete : Prop :=
  (∀ (s : State) (c : Nat), up s → c < 16 →
    let d := s.dev
    let src := d.bestSource (d.qualifying c)
    (src = 0 → Acts (.intcClaim c) s { d with answer := (0, 0) }) ∧
    (src ≠ 0 → Acts (.intcClaim c) s
      { (d.setIntc { d.intc with pend := d.intc.pend ^^^ 2 ^ src, claimed := Tab.set 0 d.intc.claimed src (c + 1) }) with answer := (0, src) }) ∧
    (src ∈ d.qualifying c ∨ (src = 0 ∧ d.qualifying c = [])) ∧
    (∀ x ∈ d.qualifying c, d.get (F.INTC_PRIO_PRIO x) ≤ d.get (F.INTC_PRIO_PRIO src) ∧
      (d.get (F.INTC_PRIO_PRIO x) = d.get (F.INTC_PRIO_PRIO src) → src ≤ x)) ∧
    ∀ i, ((Tab.get 0 d.intc.claimed i ≠ c + 1 ∨ d.intEnabled c i = false) → Acts (.intcComplete c i) s d) ∧
      (Tab.get 0 d.intc.claimed i = c + 1 → d.intEnabled c i = true → ∃ t, exec (.intcComplete c i) s = .next t ∧
        Tab.get 0 t.dev.intc.claimed i = 0)) ∧
  (∀ (s : State) (h : Nat), up s → h < 8 → ∃ t, exec (.machineTimerInterrupt h) s = .next t ∧
    (t.dev.hart h).mtip = (!s.dev.hartHeld h && decide (s.dev.get (F.HTIM_CMP_CMP h) ≤ s.dev.get F.HTIM_TIME_COUNT)) ∧
    (t.dev.hart h).msip = (!s.dev.hartHeld h && s.dev.is (F.HTIM_SWI_SET h)) ∧ (t.dev.hart h).pc = (s.dev.hart h).pc ∧
    ∀ j, j ≠ h → t.dev.hart j = s.dev.hart j) ∧
  ∀ (s : State) (v : Nat), up s → (coreHoldAllowed v = false → Acts (.coreHoldWrite v) s { s.dev with answer := (1, 0) }) ∧
    (coreHoldAllowed v = true → ∃ t, exec (.coreHoldWrite v) s = .next t ∧ t.dev.answer = (0, 0) ∧ t.dev.get F.DEV_CORE_CTRL_HOLD = v % 256 ∧
      ∀ h, h < 8 → bitOf v h = false →
        (s.dev.hartHeld h = true → (t.dev.hart h).pc = s.dev.get F.DEV_CORE_RVEC_ADDR * 4) ∧
        (s.dev.hartHeld h = false → (t.dev.hart h).pc = (s.dev.hart h).pc))

/-- A write to MON.CFG or MON.SRC of an output that is not IDLE receives an error response and changes nothing; a START with INC
outside its range, or with more than 12 stages, sets EVENTS.BAD_CFG and changes nothing else. (R463) -/
def Obligations.MonitorRefusesAsR463States : Prop :=
  (∀ (s : State) (o v : Nat) (src : Bool), up s → o < 2 → s.dev.monState o ≠ monIdle →
    Acts (.monConfigWrite o src v) s { s.dev with answer := (1, 0) }) ∧
  ∀ (s : State) (o : Nat), upEgr s → o < 2 →
    (s.dev.get (F.MON_RATIO_INC o) < 2 ^ 29 ∨ 2 ^ 33 ≤ s.dev.get (F.MON_RATIO_INC o) ∨ 12 < s.dev.get (F.MON_CFG_STAGES o)) →
    Acts (.monStart o) s (s.dev.flag (F.MON_EVENTS_BAD_CFG o)) ∧ (s.dev.flag (F.MON_EVENTS_BAD_CFG o)).is (F.MON_EVENTS_BAD_CFG o) = true

/-- START of an IDLE output within the limits empties its buffer and makes it FILLING, and of another one changes nothing; STOP
in RUN waits for a crossing, in a fade marks the fade, in FILLING or WAIT_ZC makes it IDLE; an output without a source
sample takes none, an IDLE one only passes it, and another puts the next one in its buffer while that has room; an IDLE output
and one that fills send silence where they are enabled, and one filled to its target goes on; a frame on MON_IN shows LOCK and
enters the elastic buffer. (19_monitor_port_and_housekeeping.md R454, 19_monitor_port_and_housekeeping.md R461,
19_monitor_port_and_housekeeping.md R462, 19_monitor_port_and_housekeeping.md R466) -/
def Obligations.MonitorOutputsStartRunAndStop : Prop :=
  ∀ (s : State), upEgr s →
    let d := s.dev
    (∀ o, o < 2 →
      (2 ^ 29 ≤ d.get (F.MON_RATIO_INC o) → d.get (F.MON_RATIO_INC o) < 2 ^ 33 → d.get (F.MON_CFG_STAGES o) ≤ 12 →
        (d.monState o = monIdle → ∃ t, exec (.monStart o) s = .next t ∧ t.dev.monState o = monFilling ∧ (t.dev.mon1 o).buf = [] ∧
          (t.dev.mon1 o).src = (d.mon1 o).src) ∧
        (d.monState o ≠ monIdle → Acts (.monStart o) s d)) ∧
      (d.monState o = monRun → Acts (.monStop o) s ((d.setMon o { d.mon1 o with waited := 0 }).setMonState o monStopZc)) ∧
      ((d.monState o = monFadeOut ∨ d.monState o = monFadeIn) → Acts (.monStop o) s (d.setMon o { d.mon1 o with stop := true })) ∧
      ((d.monState o = monFilling ∨ d.monState o = monWaitZc) → Acts (.monStop o) s (d.monToIdle o)) ∧
      ((d.mon1 o).src = [] → Acts (.monSourceSample o) s d) ∧
      (∀ m rest, (d.mon1 o).src = m :: rest →
        let rest' := if m.left ≤ 1 then rest else { m with cnt := m.cnt + 1, left := m.left - 1, at_ := m.at_ + 1 } :: rest
        ∃ t, exec (.monSourceSample o) s = .next t ∧ (t.dev.mon1 o).src = rest' ∧
          (d.monState o = monIdle → (t.dev.mon1 o).buf = (d.mon1 o).buf) ∧
          (d.monState o ≠ monIdle → (d.mon1 o).next.getD m.cnt = m.cnt → (d.mon1 o).buf.length < 16384 →
            (t.dev.mon1 o).buf = (d.mon1 o).buf ++ [Tab.get ((0 : Int), (0 : Int)) m.codes m.at_] ∧ (t.dev.mon1 o).next = some (m.cnt + 1) ∧
              t.dev.monState o = d.monState o)) ∧
      ((d.monState o = monIdle ∨ d.monState o = monFilling) → ∃ t, exec (.monOutputFrame o) s = .next t ∧
        (t.dev.mon1 o).out.on = d.is (F.MON_CFG_EN o) ∧ (t.dev.mon1 o).out.a = 0 ∧ (t.dev.mon1 o).out.b = 0 ∧
        (t.dev.mon1 o).buf = (d.mon1 o).buf ∧
        (d.monState o = monIdle → t.dev.monState o = monIdle) ∧
        (d.monState o = monFilling → t.dev.monState o =
          if d.monTarget o ≤ (d.mon1 o).buf.length then (if (d.mon1 o).cause = 0 then monWaitZc else monFadeIn) else monFilling))) ∧
    (d.monState 1 = monIdle → Acts (.monOutputFrame 1) s (d.monSend 1 (0, 0) false)) ∧
    (∀ start a b mark, Acts (.monInFrame start a b mark) s (d.monInFrame start a b mark) ∧
      (d.monIn.buf.length < 16 → d.monIn.block = [] → start = false → isPaPb d.monIn.prev a = false → isPaPb a b = false →
        d.monIn.csMute = false → d.monIn.quiet < 8191 →
        ∃ t, exec (.monInFrame start a b mark) s = .next t ∧ t.dev.monIn.buf = d.monIn.buf ++ [(sext 24 a, sext 24 b)] ∧
          t.dev.is F.MON_IN_STATUS_LOCK = true))

/-- The end of a scan conversion puts its code in HK.RESULT of its input with VALID set and COUNT increased; the end of an
urgent one puts it in HK.URGENT_RESULT and shows URGENT_DONE, and the held request runs next; an urgent request runs at
once, one more is held, and a further one is refused; a thermal trip drives THERM_TRIP_N. That an
input number beyond the last is refused is the model's choice (log entry 6). (19_monitor_port_and_housekeeping.md R470,
19_monitor_port_and_housekeeping.md R471, 19_monitor_port_and_housekeeping.md R472) -/
def Obligations.HousekeepingConverts : Prop :=
  ∀ (s : State), up s →
    let d := s.dev
    (∀ code, code < 65536 →
      (∀ i, i < 24 → d.hk.urgent = none → d.hk.scan = some i → ∃ t, exec (.hkConversionDone code) s = .next t ∧
        t.dev.get (F.HK_RESULT_CODE i) = code ∧ t.dev.is (F.HK_RESULT_VALID i) = true ∧
        t.dev.get (F.HK_RESULT_COUNT i) = (d.get (F.HK_RESULT_COUNT i) + 1) % 256) ∧
      (∀ i, i < 24 → d.hk.urgent = some i → ∃ t, exec (.hkConversionDone code) s = .next t ∧
        t.dev.get F.HK_URGENT_RESULT_CODE = code ∧ t.dev.get F.HK_URGENT_RESULT_INPUT = i ∧ t.dev.is F.HK_STATUS_URGENT_DONE = true ∧
        t.dev.hk.urgent = d.hk.held ∧ t.dev.hk.scan = d.hk.scan) ∧
      (d.hk.urgent = none → d.hk.scan = none → Acts (.hkConversionDone code) s d)) ∧
    (∀ i, i < 24 →
      (d.hk.urgent = none → ∃ t, exec (.hkUrgentRequest i) s = .next t ∧ t.dev.hk = { d.hk with urgent := some i }) ∧
      (d.hk.urgent.isSome = true → d.hk.held = none → ∃ t, exec (.hkUrgentRequest i) s = .next t ∧ t.dev.hk = { d.hk with held := some i }) ∧
      (d.hk.urgent.isSome = true → d.hk.held.isSome = true → ∃ t, exec (.hkUrgentRequest i) s = .next t ∧ t.dev.hk = d.hk ∧
        t.dev.is F.HK_STATUS_REFUSED = true)) ∧
    ∃ t, exec .thermTrip s = .next t ∧ t.dev.thermTrip = true ∧ t.dev.regs = d.regs ∧ t.dev.mem = d.mem

/-- LOAD in LOADING, ARMED or SWAPPING is refused, and elsewhere discards the shadow and makes the port LOADING; the end of a load
leaves the port LOADED with a shadow or in ERROR without one, with READ_ERR where the header cannot be read and BAD_LENGTH where
its length is none; CANCEL in
LOADED empties the port, in ARMED disarms it, and elsewhere is refused; an activation that is late, or that finds no loaded
pattern, is refused and records so; one above the head arms an active device; a stop that is late or finds no pattern is
refused, and another waits; KEY_LOCK and REQ_SIG stay set once set; a completion that is not due changes nothing; a cold
activation that completes shows SWAPPED and EMPTY. (11_pattern_images_and_modes.md R274, 11_pattern_images_and_modes.md
R277, 11_pattern_images_and_modes.md R279, 11_pattern_images_and_modes.md R280, 11_pattern_images_and_modes.md R281,
11_pattern_images_and_modes.md R286) -/
def Obligations.PatternPortMovesBetweenItsStates : Prop :=
  ∀ (s : State), up s →
    let d := s.dev
    let st := d.patState
    ((st = patLoading ∨ st = patArmed ∨ st = patSwapping) → Acts .patternLoad s (d.flag F.PAT_EVENTS_REFUSED)) ∧
    (st ≠ patLoading → st ≠ patArmed → st ≠ patSwapping → ∃ t, exec .patternLoad s = .next t ∧ t.dev.patState = patLoading ∧
      t.dev.pat.shadow = none ∧ t.dev.active = d.active ∧ ∀ a, t.dev.rdByte a = d.rdByte a) ∧
    (∀ ok ext,
      let c := Instr.patternLoadDone ok ext
      let a := d.pat.load.1
      let h := d.engineRead 2 3 a 64 (ok || 64 ≤ ext.length, ext)
      ((st ≠ patLoading ∨ d.engineBusy a d.pat.load.2 = true) → Acts c s d) ∧
      (st = patLoading → d.engineBusy a d.pat.load.2 = false → ∃ t, exec c s = .next t ∧
        (t.dev.patState = patLoaded ∧ t.dev.pat.shadow.isSome = true ∧ t.dev.is F.PAT_EVENTS_LOADED = true ∨
          t.dev.patState = patError ∧ t.dev.pat.shadow = none ∧ t.dev.is F.PAT_EVENTS_LOAD_ERR = true) ∧
        (h.2.1 = false → t.dev.patState = patError ∧ t.dev.get F.PAT_STATUS_ERR_CODE = 15) ∧
        (h.2.1 = true → lengthOk (le h.2.2 8 4) d.pat.load.2 = false → t.dev.patState = patError ∧ t.dev.get F.PAT_STATUS_ERR_CODE = 1))) ∧
    (st = patLoaded → ∃ t, exec .patternCancel s = .next t ∧ t.dev.patState = patEmpty ∧ t.dev.pat.shadow = none) ∧
    (st = patArmed → d.ingHeld = false → ∃ t, exec .patternCancel s = .next t ∧ t.dev.patState = patLoaded ∧ t.dev.pat.armed = none ∧
      t.dev.pat.shadow = d.pat.shadow ∧ t.dev.is F.PAT_EVENTS_CANCELLED = true) ∧
    (st ≠ patLoaded → st ≠ patArmed → Acts .patternCancel s (d.flag F.PAT_EVENTS_REFUSED)) ∧
    (∃ t, exec .reqSigSet s = .next t ∧ t.dev.is F.PAT_CTRL_REQ_SIG = true ∧ t.dev.is F.PAT_CTRL_KEY_LOCK = d.is F.PAT_CTRL_KEY_LOCK) ∧
    (∃ t, exec .keyLockSet s = .next t ∧ t.dev.is F.PAT_CTRL_KEY_LOCK = true ∧ t.dev.is F.PAT_CTRL_REQ_SIG = d.is F.PAT_CTRL_REQ_SIG) ∧
    (∀ v, d.ingHeld = false → d.is F.ECC_DIAG_CTRL_EN = false →
      (st ≠ patLoaded → st ≠ patArmed → ∃ t, exec (.activatePost v) s = .next t ∧ t.dev.is F.PAT_EVENTS_REFUSED = true ∧ t.dev.pat = d.pat ∧
        t.dev.get F.PAT_ACTIVATE_AT_AT_FRAME = v % 2 ^ 48) ∧
      ((st = patLoaded ∨ st = patArmed) → v % 2 ^ 48 ≤ d.get F.ING_FRAME_HEAD_HEAD → ∃ t, exec (.activatePost v) s = .next t ∧
        t.dev.is F.PAT_EVENTS_LATE = true ∧ t.dev.pat = d.pat ∧ t.dev.evr.transit.length = d.evr.transit.length + 1) ∧
      ((st = patLoaded ∨ st = patArmed) → d.get F.ING_FRAME_HEAD_HEAD < v % 2 ^ 48 → d.active = true → d.stopping = false →
        ∃ t, exec (.activatePost v) s = .next t ∧ t.dev.pat = { d.pat with armed := some (v % 2 ^ 48) } ∧ t.dev.patState = patArmed)) ∧
    (d.ingHeld = false → ∀ v, (d.active = false → ∃ t, exec (.stopPost v) s = .next t ∧ t.dev.is F.PAT_EVENTS_REFUSED = true ∧ t.dev.pat = d.pat) ∧
      (d.active = true → d.stopping = false → v % 2 ^ 48 ≤ d.get F.ING_FRAME_HEAD_HEAD → ∃ t, exec (.stopPost v) s = .next t ∧
        t.dev.is F.PAT_EVENTS_LATE = true ∧ t.dev.pat = d.pat) ∧
      (d.active = true → d.stopping = false → d.get F.ING_FRAME_HEAD_HEAD < v % 2 ^ 48 → ∃ t, exec (.stopPost v) s = .next t ∧
        t.dev.pat = { d.pat with stop := some (v % 2 ^ 48) } ∧ t.dev.is F.PAT_STATUS_STOP_PEND = true)) ∧
    (d.pat.cold = false → Acts .coldActivationComplete s d) ∧
    (∀ f b rest, d.pat.cold = true → d.pat.next = (f, some b) :: rest → ∃ t, exec .coldActivationComplete s = .next t ∧
      t.dev.patState = patEmpty ∧ t.dev.is F.PAT_EVENTS_SWAPPED = true ∧ t.dev.pat.next = rest ∧ t.dev.get F.PAT_ACTIVE_AT_FRAME = f % 2 ^ 48) ∧
    (d.pat.next = [] → Acts .swapComplete s d ∧ Acts .stopComplete s d) ∧
    (∀ f b rest, d.pat.cold = false → d.pat.next = (f, some b) :: rest → d.swapSettled f = true → ∃ t, exec .swapComplete s = .next t ∧
      t.dev.patState = patEmpty ∧ t.dev.is F.PAT_EVENTS_SWAPPED = true ∧ t.dev.pat.next = rest) ∧
    (∀ f rest, d.pat.next = (f, none) :: rest → d.swapSettled f = true → ((List.range 8).all fun k => (d.isl k).tabs.isEmpty) = true →
      ∃ t, exec .stopComplete s = .next t ∧ t.dev.is F.PAT_EVENTS_STOPPED = true ∧ t.dev.active = false ∧ t.dev.pat.next = rest)

/-- A TRAIN on a channel that is not ONLINE is refused while a pattern is active, does nothing on an ABSENT or TRAINING channel,
and else starts training; training that passes makes the channel ONLINE, one that fails or times out makes it OFFLINE with
its code and the lost flags; the end of training of a channel that is not training changes nothing; a channel that is not
ONLINE issues nothing and owes no refresh unless it trains; the idle timer closes the row of its bank; a waiting request
rises in urgency by one up to three. (14_memory_and_integrity.md R335, 14_memory_and_integrity.md R336,
14_memory_and_integrity.md R337, 14_memory_and_integrity.md R338, 14_memory_and_integrity.md R342,
14_memory_and_integrity.md R343) -/
def Obligations.MemoryChannelsTrainAndFail : Prop :=
  ∀ (s : State) (c : Nat), up s → c < 12 →
    let d := s.dev
    let st := d.chanState c
    let q := d.memCh c
    (d.active = true → st ≠ chOnline → Acts (.channelTrain c) s (d.put (F.MEM_CH_STATUS_RESULT c) 7)) ∧
    (d.active = false → (st = chAbsent ∨ st = chTraining) → Acts (.channelTrain c) s d) ∧
    ((d.active = false ∨ st = chOnline) → st ≠ chAbsent → st ≠ chTraining → ∃ t, exec (.channelTrain c) s = .next t ∧
      t.dev.chanState c = chTraining ∧ t.dev.is (F.MEM_CH_CTRL_TRAIN c) = true ∧ ∀ a, t.dev.rdByte a = d.rdByte a) ∧
    (∀ code, 1 ≤ code → code ≤ 5 →
      (st ≠ chTraining → Acts (.channelTrainingDone c code) s d) ∧
      (st = chTraining → code = 1 → ∃ t, exec (.channelTrainingDone c 1) s = .next t ∧ t.dev.chanState c = chOnline ∧
        t.dev.get (F.MEM_CH_STATUS_RESULT c) = 1 ∧ t.dev.is (F.MEM_CH_CTRL_TRAIN c) = false) ∧
      (st = chTraining → 2 ≤ code → ∃ t, exec (.channelTrainingDone c code) s = .next t ∧ t.dev.chanState c = chOffline ∧
        t.dev.get (F.MEM_CH_STATUS_RESULT c) = code ∧ t.dev.is F.DEV_STATUS_DRAM_CHANNEL_LOST = true ∧ (t.dev.memCh c).queue = [] ∧
        (d.active = true → d.stopping = false → t.dev.pat.stop = some (d.get F.ING_FRAME_HEAD_HEAD + 1)))) ∧
    (st ≠ chTraining → Acts (.channelTrainingTimeout c) s d) ∧
    (st = chTraining → ∃ t, exec (.channelTrainingTimeout c) s = .next t ∧ t.dev.chanState c = chOffline ∧ t.dev.get (F.MEM_CH_STATUS_RESULT c) = 6) ∧
    (st ≠ chOnline → Acts (.memRequestIssue c) s d) ∧
    (∀ r, st = chOnline → d.get (F.MEM_CH_STATUS_OWED c) = 0 → d.pickReq q = some r → ∃ t, exec (.memRequestIssue c) s = .next t ∧
      (t.dev.memCh c).queue = q.queue.erase r ∧ (t.dev.memCh c).busy = q.busy ++ [r] ∧ ∀ a, t.dev.rdByte a = d.rdByte a) ∧
    (∀ fails ecc beat, q.busy = [] → Acts (.memTransferDone c fails ecc beat) s d) ∧
    (∀ r rest fails beat, q.busy = r :: rest → fails < 4 → ∃ t, exec (.memTransferDone c fails 0 beat) s = .next t ∧
      (t.dev.memCh c).busy = rest ∧ t.dev.ueBeats = d.ueBeats) ∧
    (∀ i, Acts (.urgencyRise c i) s (d.updMemCh c fun q =>
      { q with queue := q.queue.zipIdx.map fun e => if e.2 = i then { e.1 with urg := min 3 (e.1.urg + 1) } else e.1 })) ∧
    (st ≠ chOnline → st ≠ chTraining → Acts (.refreshDue c) s d) ∧
    (st = chOnline → q.queue = [] → d.get (F.MEM_CH_STATUS_OWED c) = 0 → Acts (.refreshDue c) s (d.put (F.MEM_CH_STATUS_OWED c) 0)) ∧
    ∀ bank, ∃ t, exec (.rowIdleClose c bank) s = .next t ∧ Tab.get 0 (t.dev.memCh c).rows bank = 0 ∧ (t.dev.memCh c).queue = q.queue

/-- A scrubber that is disabled, or whose channel is not ONLINE, reads nothing; one that reads goes on to the next beat; a
write-back takes the oldest corrected beat; an interleave mask written while a pattern is active, or that names a channel
not ONLINE, receives an error response and changes nothing, and another is taken; a repair is refused while a pattern is
active, while one is programmed, or where the entry is used, and else programs the entry, which then reads VALID and keeps
its value. (14_memory_and_integrity.md R334, 14_memory_and_integrity.md R352, 14_memory_and_integrity.md R355,
14_memory_and_integrity.md R351) -/
def Obligations.ScrubbingInterleaveAndRepair : Prop :=
  ∀ (s : State), up s →
    let d := s.dev
    (∀ c ecc, c < 12 → ecc ≤ 2 →
      ((d.is F.MEM_SCRUB_EN = false ∨ d.chanState c ≠ chOnline) → Acts (.scrubRead c ecc) s d) ∧
      (d.is F.MEM_SCRUB_EN = true → d.chanState c = chOnline → ∃ t, exec (.scrubRead c ecc) s = .next t ∧
        (t.dev.memCh c).scrub = (if (d.memCh c).scrub + 64 < d.chanCap then (d.memCh c).scrub + 64 else 0) ∧ ∀ a, t.dev.rdByte a = d.rdByte a) ∧
      ((d.sd.back.find? fun a => (d.chanOf a).1 == c) = none → Acts (.scrubWriteback c) s d) ∧
      (∀ a, (d.sd.back.find? fun a => (d.chanOf a).1 == c) = some a → ∃ t, exec (.scrubWriteback c) s = .next t ∧ t.dev.sd.back = d.sd.back.erase a)) ∧
    (∀ mem outcome, outcome < 2 ^ 16 →
      ((d.is F.ECC_ONCHIP_SCRUB_EN = false ∨ scrubWords mem = 0) → Acts (.onchipScrub mem outcome) s d) ∧
      (d.is F.ECC_ONCHIP_SCRUB_EN = true → scrubWords mem ≠ 0 → ∃ t, exec (.onchipScrub mem outcome) s = .next t ∧
        Tab.get 0 t.dev.sd.onchip mem = if Tab.get 0 d.sd.onchip mem + 1 < scrubWords mem then Tab.get 0 d.sd.onchip mem + 1 else 0)) ∧
    (∀ mask, mask < 4096 →
      ((d.active = true ∨ ∃ c, c < 12 ∧ bitOf mask c = true ∧ d.chanState c ≠ chOnline) →
        Acts (.ilvMaskWrite mask) s { d with answer := (1, 0) }) ∧
      (d.active = false → (∀ c, c < 12 → bitOf mask c = true → d.chanState c = chOnline) → ∃ t, exec (.ilvMaskWrite mask) s = .next t ∧
        t.dev.answer = (0, 0) ∧ t.dev.get F.MEM_ILV_MASK = mask)) ∧
    (∀ v, let e := bitsOf v 37 32
      (bitOf v 0 = true → (d.active = true ∨ d.is F.FUSE_REPAIR_STATUS_BUSY = true ∨ repairUsed (Tab.get 0 d.fuses e) = true) →
        ∃ t, exec (.repairProgram v) s = .next t ∧ t.dev.is F.FUSE_REPAIR_STATUS_REFUSED = true ∧ t.dev.burning = d.burning ∧ t.dev.fuses = d.fuses) ∧
      (bitOf v 0 = true → d.active = false → d.is F.FUSE_REPAIR_STATUS_BUSY = false → repairUsed (Tab.get 0 d.fuses e) = false →
        ∃ t, exec (.repairProgram v) s = .next t ∧ t.dev.burning = some (e, bitsOf v 29 4 * 16) ∧ t.dev.fuses = d.fuses ∧
          t.dev.is F.FUSE_REPAIR_STATUS_BUSY = true)) ∧
    (d.burning = none → Acts .repairDone s d) ∧
    (∀ e w, d.burning = some (e, w) → ∃ t, exec .repairDone s = .next t ∧ Tab.get 0 t.dev.fuses e = 2 ^ 31 + w ∧ t.dev.burning = none ∧
      t.dev.is F.FUSE_REPAIR_STATUS_DONE = true ∧ ∀ j, j ≠ e → Tab.get 0 t.dev.fuses j = Tab.get 0 d.fuses j)

/-- A plane whose record does not fit the spill region changes no memory and sets RANGE; one whose record's channels train waits; one that goes onto a record of its
integration's parity in the panel's spill list is stored as it is with INIT, and else as the sum of the record as read and
the plane; any other plane stores words that the statement leaves open; a completed write retires the panel's oldest one and
counts; a marker waits for its panel's writes and dump read, and an empty list ends at once; a dump read sends its next record, once
the one before has left; a drain that is late, or without a pattern, which is discarded too, or fifth is refused, and another waits; the oldest drain completes, in DONE and DRAIN_DONE_AT,
once every panel of its islands has passed it. (07_accumulation_and_drain.md R180, 07_accumulation_and_drain.md R181,
07_accumulation_and_drain.md R183, 07_accumulation_and_drain.md R185, 07_accumulation_and_drain.md R186,
07_accumulation_and_drain.md R189, 07_accumulation_and_drain.md R190, 14_memory_and_integrity.md R346) -/
def Obligations.SpillAdderTakesPlanesClosesAndDrains : Prop :=
  ∀ (s : State), up s →
    let d := s.dev
    let onward (l : List MemItem) : List MemItem := l.dropWhile fun i => match i with | .beam _ _ _ _ _ _ _ _ => true | _ => false
    (∀ k, k < 8 →
      ((d.isl k).toMem = [] → Acts (.spillPlaneArrive k) s d ∧ Acts (.closeMarkerArrive k) s d) ∧
      (∀ p tag a kind init words start frame rest, (d.isl k).toMem = .plane p tag a kind init words start frame :: rest →
        Acts (.closeMarkerArrive k) s d ∧
        (d.recordFits start a kind = false → ∃ t, exec (.spillPlaneArrive k) s = .next t ∧ t.dev.is F.MEM_SPILL_STATUS_RANGE = true ∧
          (t.dev.isl k).toMem = onward rest ∧ t.dev.spill = d.spill ∧ ∀ b, t.dev.rdByte b = d.rdByte b) ∧
        (d.recordFits start a kind = true → d.recordBusy start a kind = true → Acts (.spillPlaneArrive k) s d) ∧
        (d.recordFits start a kind = true → d.recordBusy start a kind = false →
          let e := { d.popMem k with spill := { d.spill with writes := d.spill.writes ++ [(p, frame)] } }
          let r := e.spillRead start a kind
          let sum := addRecord r.words words
          (init = true → e.recordPlaced p start a = true → Acts (.spillPlaneArrive k) s (e.writeRecord start a kind words)) ∧
          (init = false → e.recordPlaced p start a = true → Acts (.spillPlaneArrive k) s
            (let x := (e.spillReport start a kind 1 r).writeRecord start a kind sum.1
             if sum.2 then x.flag F.MEM_SPILL_STATUS_SAT else x)) ∧
          (e.recordPlaced p start a = false → ∃ (w : Tab Nat) (sat : Bool), (init = true → sat = false) ∧ Acts (.spillPlaneArrive k) s
            (let x := (if init then e.fresh else e.fresh.spillReport start a kind 1 r).writeRecord start a kind w
             if sat then x.flag F.MEM_SPILL_STATUS_SAT else x)))) ∧
      (∀ p f par start rest, (d.isl k).toMem = .mark p f par start :: rest →
        Acts (.spillPlaneArrive k) s d ∧
        (((d.spill.writes.any fun w => w.1 == p) = true ∨ d.dumpBusy p = true) → Acts (.closeMarkerArrive k) s d) ∧
        ((d.spill.writes.any fun w => w.1 == p) = false → d.dumpBusy p = false →
          (d.cfg start (F.MEM_SPILL_LIST_COUNT p) = 0 → ∃ t, exec (.closeMarkerArrive k) s = .next t ∧
            (t.dev.isl k).toMem = onward rest ∧ t.dev.spill.dumps = d.spill.dumps ∧
            t.dev.spill.toEgr = if d.egrHeld = true then d.spill.toEgr else d.spill.toEgr ++ [EgrItem.notice p f true]) ∧
          (d.cfg start (F.MEM_SPILL_LIST_COUNT p) ≠ 0 → p < 64 → ∃ t, exec (.closeMarkerArrive k) s = .next t ∧
            (t.dev.isl k).toMem = onward rest ∧ t.dev.dumpBusy p = true ∧ t.dev.spill.dumps = d.spill.dumps ++ [DumpRead.mk p par f start 0])))) ∧
    (∀ p, p < 64 →
      ((d.spill.writes.find? fun w => w.1 == p) = none → Acts (.spillWriteDone p) s d) ∧
      (∀ w, (d.spill.writes.find? fun w => w.1 == p) = some w → ∃ t, exec (.spillWriteDone p) s = .next t ∧
        t.dev.spill = { d.spill with writes := d.spill.writes.erase w } ∧
        t.dev.get F.MEM_SPILL_ADDS_COUNT = (d.get F.MEM_SPILL_ADDS_COUNT + 1) % 2 ^ 64) ∧
      ((d.spill.dumps.find? fun x => x.panel == p) = none → Acts (.dumpReadRecord p) s d) ∧
      (∀ x, (d.spill.dumps.find? fun x => x.panel == p) = some x →
        let count := d.cfg x.start (F.MEM_SPILL_LIST_COUNT p)
        let busy := d.memBusy (d.cfg x.start (F.MEM_SPILL_LIST_BASE p) * 16 + 16 * x.entry) 16
        ((d.memCrossingFull p = true ∨ count ≤ x.entry ∨ busy = true) → Acts (.dumpReadRecord p) s d) ∧
        (d.memCrossingFull p = false → x.entry < count → busy = false → d.listEntry x = none → ∃ t, exec (.dumpReadRecord p) s = .next t ∧
          x ∉ t.dev.spill.dumps) ∧
        (∀ rec key kind, d.memCrossingFull p = false → x.entry < count → busy = false → d.listEntry x = some (rec, key, kind) →
          (d.recordBusy x.start rec kind = true → Acts (.dumpReadRecord p) s d) ∧
          (d.recordBusy x.start rec kind = false → d.egrHeld = false → ∃ t u tail, exec (.dumpReadRecord p) s = .next t ∧
            t.dev.spill.toEgr = d.spill.toEgr ++ EgrItem.plane u :: tail ∧ u.panel = p ∧ u.key = key ∧ u.start = x.start ∧
            u.close = some x.f ∧ x ∉ t.dev.spill.dumps)))) ∧
    (∀ v, let f := v % 2 ^ 48
      let others := d.spill.drainsAt.filter fun x => x.1 ≠ f
      (d.ingHeld = false → d.active = false → ∃ t, exec (.drainPost v) s = .next t ∧ t.dev.is F.DEV_DRAIN_STATUS_DISCARDED = true ∧
        t.dev.is F.DEV_DRAIN_STATUS_LATE = true ∧ t.dev.spill = d.spill) ∧
      (d.ingHeld = false → d.active = true → f ≤ d.get F.ING_FRAME_HEAD_HEAD → ∃ t, exec (.drainPost v) s = .next t ∧ t.dev.is F.DEV_DRAIN_STATUS_LATE = true ∧
        t.dev.spill = d.spill) ∧
      (d.ingHeld = false → d.active = true → d.get F.ING_FRAME_HEAD_HEAD < f → 4 ≤ others.length → ∃ t, exec (.drainPost v) s = .next t ∧
        t.dev.is F.DEV_DRAIN_STATUS_FULL = true ∧ t.dev.spill = d.spill) ∧
      (d.ingHeld = false → d.active = true → d.get F.ING_FRAME_HEAD_HEAD < f → others.length < 4 → ∃ t, exec (.drainPost v) s = .next t ∧
        t.dev.spill.drainsAt = sortBy (·.1) (others ++ [(f, bitsOf v 55 48)]) ∧ t.dev.get F.DEV_DRAIN_STATUS_PENDING = others.length + 1)) ∧
    (d.spill.drains = [] → Acts .drainComplete s d) ∧
    (∀ f mask rest, d.spill.drains = (f, mask) :: rest →
      (((maskPanels mask).all fun p => d.drainPassed p f) = false → Acts .drainComplete s d) ∧
      (((maskPanels mask).all fun p => d.drainPassed p f) = true → ∃ t, exec .drainComplete s = .next t ∧ t.dev.spill.drains = rest ∧
        t.dev.is F.DEV_DRAIN_STATUS_DONE = true ∧ t.dev.get F.DEV_DRAIN_DONE_AT_FRAME = f % 2 ^ 48))

/-- The frame of a verdict word agrees with its low 16 bits and is at most 32,768 before and less than 32,768 after
ISL_n.FRAME_NO. Exactly the first that applies of REJECTED, STALE, DUPLICATE and ACCEPTED is counted; the first two set
their flags and change no verdict or table; a duplicate changes nothing else; one that is accepted is queued where fewer
than 256 are, and else is entered at once as OVERFLOW for every panel of its mask. The verdict unit takes the oldest
accepted verdict; with RETRACT_EN 0 it queues no retraction on any panel; and a post of the island's own cores that waits is checked
first, the oldest at each handling (model's choice, log 112). (08_flagging_and_retraction.md R200,
08_flagging_and_retraction.md R201, 08_flagging_and_retraction.md R203, 08_flagging_and_retraction.md R215) -/
def Obligations.VerdictsAreCheckedAndHandled : Prop :=
  ∀ (s : State) (k v : Nat), k < 8 → upIsl s k →
    let d := s.dev
    let u := bitsOf v 44 32
    let g := bitsOf v 23 16
    let n := d.verdictFrame k (bitsOf v 15 0)
    let nn := n.toNat
    let gr : Granule := ⟨nn, u, g⟩
    let rejected := ¬ (u < d.cfg nn F.ING_CT_CFG_STREAMS ∧ d.chFirst nn k / 16 ≤ g ∧ 16 * g < d.chFirst nn k + d.chCount nn k)
    let stale := n < 0 ∨ nn + d.icfg k nn (F.ISL_VERDICT_CFG_HORIZON k) < d.islFrame k ∨ (d.isl k).sealedFrame nn = true
    let seen := ((d.isl k).occ.any fun i => match i with | .granule g' _ _ => g' == gr | _ => false) = true
    let counted (t : State) (j : Nat) : Prop := ∀ c, c < 4 → t.dev.get (F.ISL_VERDICT_CNT_COUNT k c) =
      (d.get (F.ISL_VERDICT_CNT_COUNT k c) + if c = j then 1 else 0) % 2 ^ 32
    (n - (bitsOf v 15 0 : Nat)) % 65536 = 0 ∧ (d.islFrame k : Int) - 32768 ≤ n ∧ n < (d.islFrame k : Int) + 32768 ∧
    (rejected → ∃ t, exec (.verdictPost k v) s = .next t ∧ counted t vRejected ∧ t.dev.is (F.ISL_VERDICT_EVENTS_REJECTED k) = true ∧
      t.dev.isls = d.isls) ∧
    (¬ rejected → stale → ∃ t, exec (.verdictPost k v) s = .next t ∧ counted t vStale ∧ t.dev.is (F.ISL_VERDICT_EVENTS_STALE k) = true ∧
      t.dev.isls = d.isls) ∧
    (¬ rejected → ¬ stale → seen → Acts (.verdictPost k v) s (d.bump (F.ISL_VERDICT_CNT_COUNT k vDuplicate) 1)) ∧
    (¬ rejected → ¬ stale → ¬ seen → 256 ≤ d.verdictsQueued k → ∃ t, exec (.verdictPost k v) s = .next t ∧ counted t vAccepted ∧
      t.dev.is (F.ISL_VERDICT_EVENTS_OVERFLOW k) = true ∧ (t.dev.isl k).verdicts = (d.isl k).verdicts ∧
      (t.dev.isl k).occ = (d.isl k).occ ++ [.granule gr (d.granuleMask k gr) ((d.granuleMask k gr).map fun m => (m, cOverflow))]) ∧
    (¬ rejected → ¬ stale → ¬ seen → d.verdictsQueued k < 256 → ∃ t, exec (.verdictPost k v) s = .next t ∧ counted t vAccepted ∧
      (t.dev.isl k).verdicts = (d.isl k).verdicts ++ [gr] ∧ (t.dev.isl k).occ = (d.isl k).occ ++ [.granule gr [] []]) ∧
    ((d.isl k).verdicts = [] → Tab.get [] d.posts k = [] → Acts (.verdictHandle k) s d) ∧
    (∀ gr rest, (d.isl k).verdicts = gr :: rest → Tab.get [] d.posts k = [] → ∃ t, exec (.verdictHandle k) s = .next t ∧
      (t.dev.isl k).verdicts = rest ∧ (d.icfg k gr.frame (F.ISL_VERDICT_CFG_RETRACT_EN k) = 0 → t.dev.panels = d.panels)) ∧
    (∀ c rest, Tab.get [] d.posts k = (c, v) :: rest → (d.isl k).verdicts = [] → rejected → ∃ t, exec (.verdictHandle k) s = .next t ∧
      Tab.get [] t.dev.posts k = rest ∧ counted t vRejected ∧ t.dev.isls = d.isls)

/-- With no emission nothing happens; one of a block of a single part completes at once, is counted, and its samples go to egress; of
more parts, one that meets no entry is staged, one that meets an entry of another key evicts it with its flag and takes its place,
and the last part completes the sum and frees the entry. Beam samples leave the crossing when egress is not
blocked, and stay when it is. A weight commit at a frame after the newest marker is pending with its bank, replacing an
earlier one, and else is LATE and changes no commit. (09_beamforming.md R221, 09_beamforming.md R222, 09_beamforming.md
R224, 09_beamforming.md R233) -/
def Obligations.BeamVectorsAndWeightCommits : Prop :=
  ∀ (s : State) (k : Nat), k < 8 →
    let d := s.dev
    let x := d.isl k
    (upIsl s k →
      (x.emissions = [] → Acts (.beamEmission k) s d) ∧
      (∀ e rest, x.emissions = e :: rest →
        let d' := d.updIsl k fun x => { x with emissions := rest }
        let parts := d.icfg k e.fb (F.ISL_BEAM_TAB_PARTS_M1 k e.bb) + 1
        let i := 32 * (e.t % 32) + e.bb
        (parts = 1 → Acts (.beamEmission k) s (d'.beamComplete k e)) ∧
        (parts = 1 → d.lostFrame k e.fb = none → ∃ t samples, exec (.beamEmission k) s = .next t ∧
          (t.dev.isl k).emissions = rest ∧ t.dev.get (F.ISL_BEAM_CNT_COUNT k 0) = (d.get (F.ISL_BEAM_CNT_COUNT k 0) + 1) % 2 ^ 32 ∧
          samples.length = planeSide (d.cfg e.fb F.ING_CT_CFG_FMT) ∧ (e.bad = true → ∀ c, c < samples.length → samples.getD c (1, 1) = (0, 0)) ∧
          (d.egrHeld = false → (t.dev.isl k).toEgr = x.toEgr ++ [.beam k e.bb e.fb e.ch e.t e.bad samples])) ∧
        (∀ o, parts ≠ 1 → Tab.get none x.staging i = some o → o.em.sameKey e = false → ∃ t, exec (.beamEmission k) s = .next t ∧
          (t.dev.isl k).emissions = rest ∧ Tab.get none (t.dev.isl k).staging i = some ⟨e, 1⟩ ∧
          t.dev.is (F.ISL_BEAM_EVENTS_EVICT k) = true) ∧
        (parts ≠ 1 → Tab.get none x.staging i = none →
          Acts (.beamEmission k) s (d'.updIsl k fun x => { x with staging := Tab.set none x.staging i (some ⟨e, 1⟩) })) ∧
        (∀ o, parts ≠ 1 → Tab.get none x.staging i = some o → o.em.sameKey e = true →
          let grp := (o.em.grp ++ e.grp).eraseDups
          let sum := { e with bad := o.em.bad || e.bad, grp := grp, sums := stagedSum (mixedGroups grp) o.em.sums e.sums }
          (parts ≤ o.parts + 1 → Acts (.beamEmission k) s
            ((d'.updIsl k fun x => { x with staging := Tab.erase x.staging i }).beamComplete k sum)) ∧
          (o.parts + 1 < parts → Acts (.beamEmission k) s
            (d'.updIsl k fun x => { x with staging := Tab.set none x.staging i (some ⟨sum, o.parts + 1⟩) })))) ∧
      (∀ v, let f := v % 2 ^ 48
        let bank := v / 2 ^ 48 % 2
        (d.get (F.ISL_MARK_HEAD_FRAME k) < f → ∃ t, exec (.weightCommitPost k v) s = .next t ∧
          (t.dev.isl k).weightAt = some (f, bank) ∧ t.dev.is (F.ISL_WEIGHT_STATUS_PENDING k) = true ∧
          t.dev.is (F.ISL_WEIGHT_STATUS_OTHER_FREE k) = false ∧
          (x.weightAt ≠ none → t.dev.is (F.ISL_WEIGHT_STATUS_REPLACED k) = true)) ∧
        (f ≤ d.get (F.ISL_MARK_HEAD_FRAME k) → ∃ t, exec (.weightCommitPost k v) s = .next t ∧ t.dev.isls = d.isls ∧
          t.dev.is (F.ISL_WEIGHT_STATUS_LATE k) = true ∧
          t.dev.is (F.ISL_WEIGHT_STATUS_PENDING k) = d.is (F.ISL_WEIGHT_STATUS_PENDING k)))) ∧
    (upEgr s →
      (x.toEgr = [] → Acts (.beamSampleArrive k) s d) ∧
      (∀ ka bb fb ch t bad samples rest, x.toEgr = .beam ka bb fb ch t bad samples :: rest →
        (d.egrBlocked k = true → Acts (.beamSampleArrive k) s d) ∧
        (d.egrBlocked k = false → ∃ t, exec (.beamSampleArrive k) s = .next t ∧ (t.dev.isl k).toEgr = rest)))

/-- A dump marker at the head of the crossing from ingest takes the next dump number and shows its frame, and the control blocks
behind it act; the item at the head of a crossing is taken by the command of its kind when egress is not blocked; a plane whose
entry is disabled is counted and enters no queue; a close notice raises its panel's mark; of a queue, the oldest ready unit that
is due is suppressed and counted, dropped and counted where the queue has no destination, entered where it fits, and else dropped
under POLICY 1 or held; a group with no lane that can take a frame deals none, and else the lane takes one more frame; a relayed
frame at the head of the crossing is dropped and counted where its group does not receive, entered where it fits, and where it
does not it is a gap to its receiver in a group with replay and else dropped. (10_products_and_egress.md
R240, 10_products_and_egress.md R241, 10_products_and_egress.md R247, 10_products_and_egress.md R248,
10_products_and_egress.md R250, 10_products_and_egress.md R251, 10_products_and_egress.md R252, 10_products_and_egress.md
R253, 20_events_faults_failover.md R488) -/
def Obligations.EgressRoutesQueuesAndDeals : Prop :=
  ∀ (s : State), upEgr s →
    let d := s.dev
    let noCtl (l : List EgrIn) : Prop := ∀ n c p r, l ≠ .ctl n c p :: r
    ((∀ f rest, d.relay ≠ .dump f :: rest) → Acts .dumpMarkerArrive s d) ∧
    (∀ f rest, d.relay = .dump f :: rest → Acts .dumpMarkerArrive s (Dev.crossed ({ d with relay := rest }.dumpNumber f))) ∧
    (∀ f rest, d.relay = .dump f :: rest → noCtl rest → ∃ t, exec .dumpMarkerArrive s = .next t ∧ t.dev.relay = rest ∧
      t.dev.get F.EGR_DUMP_SEQ_NEXT = (d.get F.EGR_DUMP_SEQ_NEXT + 1) % 2 ^ 32 ∧ t.dev.get F.EGR_DUMP_LAST_F_FRAME = f % 2 ^ 48) ∧
    (∀ src, src < 9 →
      (d.egrItems src = [] → Acts (.egressUnitArrive src) s d ∧ Acts (.closeNoticeArrive src) s d) ∧
      (∀ u rest, d.egrItems src = .plane u :: rest →
        Acts (.closeNoticeArrive src) s d ∧
        (d.egrBlocked src = true → Acts (.egressUnitArrive src) s d) ∧
        (d.egrBlocked src = false → Acts (.egressUnitArrive src) s (Dev.dumpSettle ((d.popEgr src).planeArrive src u))) ∧
        (d.egrBlocked src = false → d.cfg u.start (F.PRT_ENTRY_EN (u.key % 32768)) = 0 → d.onchipBad 3 (8 * (u.key % 32768)) 8 = false →
          ∃ t, exec (.egressUnitArrive src) s = .next t ∧ (src < 8 → t.dev.egrItems src = rest) ∧ t.dev.egr = d.egr ∧
            t.dev.get F.EGR_ROUTE_ERR_CNT_COUNT = (d.get F.EGR_ROUTE_ERR_CNT_COUNT + 1) % 2 ^ 32 ∧ t.dev.is F.EGR_EVENTS_ROUTE_ERR = true)) ∧
      (∀ k f start addr len rest, d.egrItems src = .table k f start addr len :: rest → d.egrBlocked src = false →
        (d.memBusy addr len = true → Acts (.egressUnitArrive src) s d) ∧
        (d.memBusy addr len = false → Acts (.egressUnitArrive src) s ((d.popEgr src).tableArrive src k f start addr len).checkDumps)) ∧
      (∀ p f mem rest, d.egrItems src = .notice p f mem :: rest →
        let old := Tab.get (0, 0) d.egr.notices p
        Acts (.egressUnitArrive src) s d ∧
        (d.egrBlocked src = true → Acts (.closeNoticeArrive src) s d) ∧
        (d.egrBlocked src = false → ∃ t, exec (.closeNoticeArrive src) s = .next t ∧ t.dev.egrItems src = rest ∧
          Tab.get (0, 0) t.dev.egr.notices p = if mem then (old.1, max old.2 (f + 1)) else (max old.1 (f + 1), old.2)))) ∧
    (∀ q, q < 4096 →
      ((d.egr.wait.find? fun u => u.queue == q && d.unitReady u && d.unitDue u) = none → Acts (.queueEntry q) s d) ∧
      (∀ u, (d.egr.wait.find? fun u => u.queue == q && d.unitReady u && d.unitDue u) = some u →
        let out := d.updEgr fun e => { e with wait := e.wait.erase u }
        let dest := d.qcfg u (F.EGR_QUEUE_DEST q)
        (d.suppressed u = true → Acts (.queueEntry q) s (out.bump F.FO_SUPP_CNT_COUNT 1).checkDumps.dumpSettle) ∧
        (d.suppressed u = false → dest ≠ 1 → dest ≠ 2 → Acts (.queueEntry q) s (out.dropUnit u).checkDumps.dumpSettle) ∧
        (d.suppressed u = false → (dest = 1 ∨ dest = 2) →
          (d.unitFits u = true → Acts (.queueEntry q) s (out.enqueue u).checkDumps.dumpSettle) ∧
          (d.unitFits u = false → d.qcfg u (F.EGR_QUEUE_POLICY q) = 1 → Acts (.queueEntry q) s (out.dropUnit u).checkDumps.dumpSettle) ∧
          (d.unitFits u = false → d.qcfg u (F.EGR_QUEUE_POLICY q) = 0 → Acts (.queueEntry q) s d)) ∧
        (d.suppressed u = false → dest ≠ 1 → dest ≠ 2 → ∃ t, exec (.queueEntry q) s = .next t ∧
          t.dev.get (F.EGR_Q_DROP_COUNT q) = (d.get (F.EGR_Q_DROP_COUNT q) + 1) % 2 ^ 32 ∧ t.dev.is F.EGR_EVENTS_Q_DROP = true ∧
          t.dev.queue q = d.queue q) ∧
        (d.suppressed u = false → dest = 1 → d.unitFits u = true → (∀ h, h ∈ d.queue q → d.qcfg h (F.EGR_QUEUE_DEST q) = 1) → ∃ t, exec (.queueEntry q) s = .next t ∧
          t.dev.queue q = d.queue q ++ [u]))) ∧
    (∀ g, g < 32 →
      (d.turnOf g = none → Acts (.egressFrameDeal g) s d) ∧
      (∀ q left, d.turnOf g = some (q, left) → ((d.ringUnit q).txn ≠ 0 ∨ d.storeBad 4 = false) →
        let bs := (d.nextPart (d.ringUnit q)).bytes.take 1024
        let lane := nextAfter (Tab.get (0, 0, 0) d.egr.turn g).2.2 (d.groupLanes g (32 * (ceilDiv bs.length 32 + 2)))
        (lane = none → Acts (.egressFrameDeal g) s d) ∧
        (∀ n, lane = some n → ∃ t fr, exec (.egressFrameDeal g) s = .next t ∧ (t.dev.lane n).tx.queue = (d.lane n).tx.queue ++ [fr] ∧
          fr.data = blocksOf bs ∧ Tab.get (0, 0, 0) t.dev.egr.turn g = (q + 1, left - 1, n + 1)))) ∧
    ((∀ x rest, d.relay ≠ .frame x :: rest) → Acts .relayFrameArrive s d) ∧
    ∀ x rest, d.relay = .frame x :: rest →
      let d' := { d with relay := rest }
      let g := d.cfg x.cfg (F.LANE_CFG_GROUP x.lane)
      let u := d'.relayUnit (d'.cfg x.cfg (F.EGR_GROUP_CFG_RX_QUEUE g)) x
      let dest := d'.qcfg u (F.EGR_QUEUE_DEST u.queue)
      let taken (e : Dev) : Dev := if e.replays x.lane then e.replayTaken x.lane (pf x.hdr 2 0 16) else e
      (d.cfg x.cfg (F.EGR_GROUP_CFG_RX_EN g) ≠ 1 →
        Acts .relayFrameArrive s (taken (d'.bump (F.EGR_RELAY_DROP_COUNT g) 1)).crossed ∧
        (noCtl rest → ∃ t, exec .relayFrameArrive s = .next t ∧ t.dev.relay = rest ∧ t.dev.egr = d.egr ∧
          t.dev.get (F.EGR_RELAY_DROP_COUNT g) = (d.get (F.EGR_RELAY_DROP_COUNT g) + 1) % 2 ^ 32)) ∧
      (d.cfg x.cfg (F.EGR_GROUP_CFG_RX_EN g) = 1 →
        (dest ≠ 1 → dest ≠ 2 → Acts .relayFrameArrive s (taken (d'.dropUnit u)).crossed) ∧
        ((dest = 1 ∨ dest = 2) → d'.unitFits u = true → Acts .relayFrameArrive s (taken (d'.enqueue u)).crossed) ∧
        ((dest = 1 ∨ dest = 2) → d'.unitFits u = false → d.replays x.lane = true → Acts .relayFrameArrive s (d'.relayGap x).crossed) ∧
        ((dest = 1 ∨ dest = 2) → d'.unitFits u = false → d.replays x.lane = false →
          Acts .relayFrameArrive s (d'.bump (F.EGR_RELAY_DROP_COUNT g) 1).crossed))

/-- A poll or a kick of a waiting writer rereads its descriptor: one that cannot be read halts the ring, one with OWN starts the
data write and ends WAITING, and another leaves the writer waiting; so does a poll of an idle writer with a unit, and a kick of a
halted one, at INDEX 0 where BASE or LOG_N has changed; every other poll and kick changes nothing, and none acts while the
descriptor's channel is TRAINING; a halted ring without units is idle again; the response to the data write is followed by the
header, that by the status, that of a whole unit by the next INDEX, and an error response to the status halts the ring. Releasing a window
that presents nothing changes nothing, one with no complete fill shows nothing valid, and one with a complete fill shows
that dump. (10_products_and_egress.md R255, 10_products_and_egress.md R256, 10_products_and_egress.md R259,
10_products_and_egress.md R260) -/
def Obligations.RingsAndWindowsStep : Prop :=
  ∀ (s : State), upEgr s →
    let d := s.dev
    (∀ q, q < 4096 →
      let x := d.ring q
      let rereads (c : Instr) (r : MRead) : Prop :=
        ((r.err = true ∨ r.ue ≠ []) → ∃ t, exec c s = .next t ∧ (t.dev.ring q).phase = 5 ∧ t.dev.is (F.EGR_RING_PTR_WAITING q) = false) ∧
        (r.err = false → r.ue = [] → bitOf (r.bytes.getD 12 0) 0 = true → ∃ t, exec c s = .next t ∧ (t.dev.ring q).phase = 2 ∧
          t.dev.is (F.EGR_RING_PTR_WAITING q) = false) ∧
        (r.err = false → r.ue = [] → bitOf (r.bytes.getD 12 0) 0 = false → ∃ t, exec c s = .next t ∧ (t.dev.ring q).phase = 1 ∧
          t.dev.is (F.EGR_RING_PTR_WAITING q) = true ∧ t.dev.mem = d.mem)
      let starts (c : Instr) : Prop := ∀ u l, d.queue q = u :: l → d.qcfg u (F.EGR_QUEUE_DEST q) = 2 → d.storeBad 4 = false →
        let base := d.qcfg u (F.EGR_RING_CFG_BASE q)
        let index := if x.last = (base, d.qcfg u (F.EGR_RING_CFG_LOG_N q)) then d.get (F.EGR_RING_PTR_INDEX q) else 0
        rereads c (d.memRead (base * 64 + 64 * index) 16)
      (d.ringBusy q = true → Acts (.ringDescPoll q) s d ∧ Acts (.ringWriteResponse q) s d ∧ (x.phase = 1 → Acts (.ringKick q) s d)) ∧
      (d.ringBusy q = false → x.phase = 1 → rereads (.ringDescPoll q) (d.memRead (d.descAddr q) 16) ∧
        rereads (.ringKick q) (d.memRead (d.descAddr q) 16)) ∧
      (d.ringBusy q = false → (x.phase = 0 → starts (.ringDescPoll q)) ∧ (x.phase = 5 → starts (.ringKick q))) ∧
      (d.queue q = [] → (x.phase = 0 → Acts (.ringDescPoll q) s d) ∧
        (x.phase = 5 → Acts (.ringKick q) s (d.setRing q { x with phase := 0 }))) ∧
      (x.phase ≠ 0 → x.phase ≠ 1 → Acts (.ringDescPoll q) s d) ∧
      (x.phase ≠ 1 → x.phase ≠ 5 → Acts (.ringKick q) s d) ∧
      (d.ringBusy q = false →
        (x.phase = 2 → ∃ t, exec (.ringWriteResponse q) s = .next t ∧ (t.dev.ring q).phase = 3 ∧ (t.dev.ring q).err = x.bad) ∧
        (x.phase = 3 → ∃ t, exec (.ringWriteResponse q) s = .next t ∧ (t.dev.ring q).phase = 4 ∧ (t.dev.ring q).err = (x.err || x.bad)) ∧
        (x.phase = 4 → x.bad = true → ∃ t, exec (.ringWriteResponse q) s = .next t ∧ (t.dev.ring q).phase = 5 ∧
          t.dev.queue q = (d.queue q).tail ∧ t.dev.get (F.EGR_RING_PTR_INDEX q) = d.get (F.EGR_RING_PTR_INDEX q)) ∧
        (x.phase = 4 → x.bad = false → (d.queue q).tail = [] → ((d.ringUnit q).advance x.len).parts = [] →
          ∃ t, exec (.ringWriteResponse q) s = .next t ∧ (t.dev.ring q).phase = 0 ∧ t.dev.queue q = [] ∧
            t.dev.get (F.EGR_RING_PTR_INDEX q) =
              (d.get (F.EGR_RING_PTR_INDEX q) + 1) % 2 ^ d.qcfg (d.ringUnit q) (F.EGR_RING_CFG_LOG_N q) % 2 ^ 16)) ∧
      ((x.phase = 0 ∨ x.phase = 1 ∨ x.phase = 5) → Acts (.ringWriteResponse q) s d)) ∧
    ∀ w, w < 16 →
      let x := d.win w
      (x.on = false → Acts (.winRelease w) s d) ∧
      (x.on = true → (∀ f q, x.fill ≠ some (f, q, true)) → ∃ t, exec (.winRelease w) s = .next t ∧
        t.dev.is (F.EGR_WIN_HDR_VALID w) = false ∧ t.dev.win w = { x with shown := [], on := false }) ∧
      (∀ f q, x.on = true → x.fill = some (f, q, true) → ∃ t, exec (.winRelease w) s = .next t ∧
        t.dev.is (F.EGR_WIN_HDR_VALID w) = true ∧ t.dev.get (F.EGR_WIN_HDR_FRAME w) = f % 2 ^ 48 ∧
        t.dev.is (F.EGR_WIN_CTRL_WAITING w) = false ∧ t.dev.win w = ⟨x.words, true, none, []⟩)

/-- Every compute command (NOP, accumulators, data registers, searches, branches, loops, REP, RTE, local I/O, POSTV, WAIT,
HALT), given to a core whose next word has its OP and whose slots are done, applies that OP's effect and advances; on a core
that is not running it changes nothing; TRAP takes no effect but leaves its exception, with code 6 and EADDR its target, to
be taken. A pending branch of BR, taken or not taken branches (which have their two delay slots all the same), CALL, RET, RTE and a
REP are stated by what is then pending, CALL by LINK too. NOP goes to the next word and changes no register; WAIT leaves the core
waiting unless an enabled source is pending, HALT leaves it HALTED with its flag. (12_awl_signal_cores.md R293, 12_awl_signal_cores.md R294, 12_awl_signal_cores.md R297,
12_awl_signal_cores.md R300, 12_awl_signal_cores.md R302, 12_awl_signal_cores.md R306, 12_awl_signal_cores.md R308,
12_awl_signal_cores.md R310) -/
def Obligations.AwlComputeSyllablesTakeEffect : Prop :=
  ∀ (s : State) (n : Nat) (e : Dev), n < 16 → upIsl s (awlIsl n) →
    let d := s.dev
    let x := e.awl1 n
    let w := x.word
    let rows : List (Nat × Instr) :=
      [(0x00, .awlNop n), (0x01, .awlMac n), (0x02, .awlMsu n), (0x03, .awlMpy n), (0x04, .awlMova n), (0x05, .awlAdda n), (0x06, .awlInsh n),
       (0x07, .awlIns24 n), (0x08, .awlSha n), (0x09, .awlMovx n), (0x0A, .awlMovxl n), (0x0B, .awlMovxm n), (0x0C, .awlMovxh n),
       (0x0D, .awlAddac n)] ++
      [(0x10, .awlAdd n), (0x11, .awlSub n), (0x12, .awlAnd n), (0x13, .awlOr n), (0x14, .awlXor n), (0x15, .awlAddi n), (0x16, .awlShi n),
       (0x17, .awlLi n), (0x18, .awlLui n), (0x19, .awlMaxx n), (0x1A, .awlMinx n), (0x1B, .awlMaxa n), (0x1C, .awlMina n), (0x1D, .awlMovs n),
       (0x1E, .awlMovts n)] ++
      [(0x20, .awlBr n), (0x21, .awlBeqz n), (0x22, .awlBnez n), (0x23, .awlBltz n), (0x24, .awlBgez n), (0x25, .awlCall n), (0x26, .awlRet n),
       (0x27, .awlLoop n), (0x28, .awlLoopr n), (0x29, .awlRep n), (0x2A, .awlRte n), (0x2B, .awlIor n), (0x2C, .awlIow n), (0x2D, .awlIora n),
       (0x2E, .awlIowa n), (0x2F, .awlPostv n), (0x30, .awlWait n), (0x32, .awlHalt n)]
    let pends (c : Instr) (br : Option (Nat × AwlGo)) : Prop := ∃ t, exec c s = .next t ∧ (t.dev.awl1 n).br = br
    (∀ r, r ∈ rows → AwlIssues d n r.1 e →
      Acts r.2 s (let y := awlEff r.1 e n w; y.1.awlAdvance n x.br x.rep y.2)) ∧
    (∀ r, r ∈ rows → d.awlState n ≠ awlRunning → Acts r.2 s d ∧ Acts (.awlTrap n) s d) ∧
    (AwlIssues d n 0x20 e → x.br = none → x.rep = none → pends (.awlBr n) (some (2, .goTo (wTarget w)))) ∧
    (AwlIssues d n 0x21 e → x.br = none → x.rep = none → pends (.awlBeqz n) (some (2, if e.xOld n (wF1 w) = 0 then .goTo (wTarget w) else .on))) ∧
    (AwlIssues d n 0x22 e → x.br = none → x.rep = none → pends (.awlBnez n) (some (2, if e.xOld n (wF1 w) = 0 then .on else .goTo (wTarget w)))) ∧
    (AwlIssues d n 0x23 e → x.br = none → x.rep = none → pends (.awlBltz n) (some (2, if bitOf (e.xOld n (wF1 w)) 23 then .goTo (wTarget w) else .on))) ∧
    (AwlIssues d n 0x24 e → x.br = none → x.rep = none → pends (.awlBgez n) (some (2, if bitOf (e.xOld n (wF1 w)) 23 then .on else .goTo (wTarget w)))) ∧
    (AwlIssues d n 0x25 e → x.br = none → x.rep = none → ∃ t, exec (.awlCall n) s = .next t ∧ (t.dev.awl1 n).br = some (2, .goTo (wTarget w)) ∧
      t.dev.spec n spLink = (e.awlPc n + 3) % 2 ^ 13) ∧
    (AwlIssues d n 0x26 e → x.br = none → x.rep = none → pends (.awlRet n) (some (2, .goTo (e.specOld n spLink)))) ∧
    (AwlIssues d n 0x2A e → x.br = none → x.rep = none → pends (.awlRte n) (some (2, .rte))) ∧
    (AwlIssues d n 0x29 e → x.br = none → x.rep = none → ∃ t, exec (.awlRep n) s = .next t ∧ (t.dev.awl1 n).rep = some (w / 2 ^ 40 % 4096 + 1)) ∧
    (AwlIssues d n 0x00 e → x.br = none → x.rep = none → e.loopLevels n = 0 → ∃ t, exec (.awlNop n) s = .next t ∧
      t.dev.awlPc n = (e.awlPc n + 1) % 2 ^ 13 ∧ (∀ j, j < 32 → t.dev.get (F.AWL_XREG_VALUE n j) = e.get (F.AWL_XREG_VALUE n j)) ∧
      (∀ j, j < 4 → t.dev.rdReg (R.AWL_ACC n j) = e.rdReg (R.AWL_ACC n j)) ∧ (∀ i, i < 0x2A → t.dev.spec n i = e.spec n i)) ∧
    (AwlIssues d n 0x30 e → x.br = none → x.rep = none → x.halt = false → ∃ t, exec (.awlWait n) s = .next t ∧
      t.dev.awlState n = (if e.awlWakes n then awlRunning else awlWaiting)) ∧
    (AwlIssues d n 0x32 e → x.br = none → x.rep = none → ∃ t, exec (.awlHalt n) s = .next t ∧ t.dev.awlState n = awlHalted ∧
      t.dev.is (F.AWL_EVENTS_HALTED n) = true) ∧
    (d.awlState n = awlRunning → (d.awl1 n).point = true → (d.awl1 n).fault = none → d.awlIrqDue n = false → d.handler n = false →
      (∀ r, d.onchipRead (0x30 + n) (awlInstrAddr n 0) (awlInstrAddr n (8 * d.awlPc n)) 8 = (d, r, false) →
        wOp (ofBytes r) = 0x31 → d.awlIllegal n (ofBytes r) = false → d.awlMisplaced n (ofBytes r) = false →
        d.slotAccess n (wSlot (ofBytes r) 0) = false → d.slotAccess n (wSlot (ofBytes r) 1) = false →
        Acts (.awlTrap n) s (d.setAwl n { d.awl1 n with fault := some (6, wTarget (ofBytes r), false) })))

/-- With X and AC as they were before the word: ADD, SUB, AND, OR, XOR, ADDI, SHI, LI, LUI, MOVX, MOVXL, MOVXM, MOVXH, MOVS and
IOR leave the stated value, modulo 2^24, in X[F1], and change no other data register and no accumulator; MAC, MSU, ADDA,
ADDAC and a left SHA leave the clamped sum in AC[ACD], and OV where it clamped; MPY, MOVA, INSH, INS24, a right SHA and IORA
leave the value modulo 2^56; none of these writes memory. The searches take a strictly better value with IX and advance IDX
under M. LOOP sets LS, LE and LC and, with a count, a level; POSTV queues AC[55:0] as a verdict, its SOURCE 0; MOVTS writes X to a
special register, modulo its width, ROT modulo 24, and leaves ECAUSE and EADDR; IOW and IOWA write X and AC to the local I/O
registers that the statement names. (12_awl_signal_cores.md R297,
12_awl_signal_cores.md R298, 12_awl_signal_cores.md R299, 12_awl_signal_cores.md R301, 12_awl_signal_cores.md R310,
12_awl_signal_cores.md R311) -/
def Obligations.AwlOperationsWriteTheirResults : Prop :=
  ∀ (s : State) (n : Nat) (e : Dev), n < 16 → upIsl s (awlIsl n) →
    let d := s.dev
    let x := e.awl1 n
    let w := x.word
    let dest := xPhys (e.specOld n spRot) (wF1 w)
    let a := e.xOld n (wF2 w)
    let b := e.xOld n (wF3 w)
    let sa := e.xSigned n (wF2 w)
    let sb := e.xSigned n (wF3 w)
    let acd := wAcd w
    let ac := e.acOld n acd
    let acs := e.acOld n (wAcs w)
    let shift := sext 5 (wF3 w)
    let sh := sext 6 (w / 2 ^ 47 % 2 ^ 6)
    let max55 : Int := 2 ^ 55 - 1
    let setsX (op : Nat) (c : Instr) (v : Int) : Prop := AwlIssues d n op e → ∃ t, exec c s = .next t ∧
      (t.dev.get (F.AWL_XREG_VALUE n dest) : Int) = v % 2 ^ 24 ∧
      (∀ j, j < 32 → j ≠ dest → t.dev.get (F.AWL_XREG_VALUE n j) = e.get (F.AWL_XREG_VALUE n j)) ∧
      (∀ j, j < 4 → t.dev.rdReg (R.AWL_ACC n j) = e.rdReg (R.AWL_ACC n j)) ∧ t.dev.mem = e.mem
    let setsA (op : Nat) (c : Instr) (v : Int) : Prop := AwlIssues d n op e → ∃ t, exec c s = .next t ∧
      t.dev.rdReg (R.AWL_ACC n acd) = BitVec.ofInt 64 (sext 56 (ofInt 56 v)) ∧
      (∀ j, j < 4 → j ≠ acd → t.dev.rdReg (R.AWL_ACC n j) = e.rdReg (R.AWL_ACC n j)) ∧
      (∀ j, j < 32 → t.dev.get (F.AWL_XREG_VALUE n j) = e.get (F.AWL_XREG_VALUE n j)) ∧ t.dev.mem = e.mem
    let clamps (op : Nat) (c : Instr) (v : Int) : Prop := setsA op c (max (-(max55 + 1)) (min max55 v)) ∧
      (AwlIssues d n op e → (max55 < v ∨ v < -(max55 + 1)) → x.br = none → ∃ t, exec c s = .next t ∧ bitOf (t.dev.stat n) (10 + acd) = true)
    let searches (op : Nat) (c : Instr) (v : Int) (better : Prop) [Decidable better] : Prop := AwlIssues d n op e → ∃ t, exec c s = .next t ∧
      t.dev.rdReg (R.AWL_ACC n acd) = (if better then BitVec.ofInt 64 (sext 56 (ofInt 56 v)) else e.rdReg (R.AWL_ACC n acd)) ∧
      t.dev.spec n (spIx acd) = (if better then e.specOld n spIdx % 2 ^ 24 else e.spec n (spIx acd)) ∧
      (wM w = true → t.dev.spec n spIdx = (e.specOld n spIdx + 1) % 2 ^ 24)
    setsX 0x10 (.awlAdd n) (a + b) ∧ setsX 0x11 (.awlSub n) (a - b) ∧ setsX 0x12 (.awlAnd n) ((a &&& b : Nat) : Int) ∧
    setsX 0x13 (.awlOr n) ((a ||| b : Nat) : Int) ∧ setsX 0x14 (.awlXor n) ((a ^^^ b : Nat) : Int) ∧
    setsX 0x15 (.awlAddi n) (a + sext 8 (w / 2 ^ 40)) ∧ (0 ≤ shift → setsX 0x16 (.awlShi n) (sa * 2 ^ shift.toNat)) ∧
    (shift < 0 → setsX 0x16 (.awlShi n) (sa / 2 ^ (-shift).toNat)) ∧ setsX 0x17 (.awlLi n) (sext 13 (w / 2 ^ 40)) ∧
    setsX 0x18 (.awlLui n) ((w / 2 ^ 40 % 2 ^ 11 * 2 ^ 13 + e.xOld n (wF1 w) % 2 ^ 13 : Nat) : Int) ∧
    setsX 0x09 (.awlMovx n)
      (max (-(2 ^ 23)) (min (2 ^ 23 - 1) (if wF3 w = 0 then ac else (ac + 2 ^ (wF3 w - 1)) / 2 ^ wF3 w))) ∧
    setsX 0x0A (.awlMovxl n) ac ∧ setsX 0x0B (.awlMovxm n) (ac / 2 ^ 24) ∧ setsX 0x0C (.awlMovxh n) (ac / 2 ^ 48) ∧
    setsX 0x1D (.awlMovs n) (e.specOld n (wSpec w)) ∧ setsX 0x2B (.awlIor n) (e.ioRead n (wIo w)) ∧
    clamps 0x01 (.awlMac n) (ac + sa * sb) ∧ clamps 0x02 (.awlMsu n) (ac - sa * sb) ∧ clamps 0x05 (.awlAdda n) (ac + sa) ∧
    clamps 0x0D (.awlAddac n) (ac + acs) ∧ (0 ≤ sh → clamps 0x08 (.awlSha n) (ac * 2 ^ sh.toNat)) ∧
    (sh < 0 → setsA 0x08 (.awlSha n) (ac / 2 ^ (-sh).toNat)) ∧ setsA 0x03 (.awlMpy n) (sa * sb) ∧ setsA 0x04 (.awlMova n) sa ∧
    setsA 0x06 (.awlInsh n) (ac * 2 ^ 16 + (a % 2 ^ 16 : Nat)) ∧ setsA 0x07 (.awlIns24 n) (ac * 2 ^ 24 + (a : Nat)) ∧
    setsA 0x2D (.awlIora n) (e.ioRead n (wIo w)) ∧
    searches 0x19 (.awlMaxx n) sa (ac < sa) ∧ searches 0x1A (.awlMinx n) sa (sa < ac) ∧
    searches 0x1B (.awlMaxa n) acs (ac < acs) ∧ searches 0x1C (.awlMina n) acs (acs < ac) ∧
    (∀ c, c = .awlLoop n ∨ c = .awlLoopr n → AwlIssues d n (if c = .awlLoop n then 0x27 else 0x28) e →
      x.br = none → x.rep = none → e.loopLevels n < 2 → e.awlPc n < wTarget w → e.xOld n (wF1 w) ≠ 0 →
      (∀ i, i < e.loopLevels n → e.spec n (spLE i) ≠ e.awlPc n) → ∃ t, exec c s = .next t ∧
        t.dev.loopLevels n = e.loopLevels n + 1 ∧ t.dev.spec n (spLS (e.loopLevels n)) = (e.awlPc n + 1) % 2 ^ 13 ∧
        t.dev.spec n (spLE (e.loopLevels n)) = wTarget w ∧ t.dev.spec n (spLC (e.loopLevels n)) = e.xOld n (wF1 w)) ∧
    (AwlIssues d n 0x2F e → ∃ t, exec (.awlPostv n) s = .next t ∧ Tab.get [] t.dev.posts (awlIsl n) = Tab.get [] e.posts (awlIsl n) ++
      [(n, (ac % 2 ^ 56 - ac / 2 ^ 48 % 4 * 2 ^ 48).toNat)]) ∧
    (AwlIssues d n 0x1E e → ∃ t, exec (.awlMovts n) s = .next t ∧
      ((wSpec w < 0x18 ∨ 0x1F ≤ wSpec w ∧ wSpec w < 0x24 ∨ 0x25 ≤ wSpec w ∧ wSpec w < 0x28) →
        t.dev.spec n (wSpec w) = e.xOld n (wF1 w) % 2 ^ specBits (wSpec w)) ∧
      (wSpec w = 0x1E → e.loopLevels n = 0 → t.dev.spec n 0x1E = e.xOld n (wF1 w) % 24) ∧
      (∀ i, 0x28 ≤ i → i < 0x2A → t.dev.spec n i = e.spec n i) ∧
      ∀ j, j < 32 → t.dev.get (F.AWL_XREG_VALUE n j) = e.get (F.AWL_XREG_VALUE n j)) ∧
    (∀ c op v, c = .awlIow n ∧ op = 0x2C ∧ v = e.xOld n (wF1 w) ∨ c = .awlIowa n ∧ op = 0x2E ∧ v = (e.acOld n (wAcd w) % 2 ^ 56).toNat →
      AwlIssues d n op e → ∃ t, exec c s = .next t ∧
        (wIo w = 0x001 → t.dev.get (F.ISL_STAT_RD_COUNT (awlIsl n) (awlJ n)) = v % 2 ^ 32) ∧
        (wIo w = 0x004 → (t.dev.awl1 n).level = v % 65536) ∧ (wIo w = 0x020 → (t.dev.awl1 n).xloc = v / 32 * 32) ∧
        (wIo w = 0x021 → (t.dev.awl1 n).xfar = v % 2 ^ 40 / 64 * 64) ∧ (wIo w = 0x022 → (t.dev.awl1 n).xlen = v / 64 * 64) ∧
        (wIo w = 0x023 → x.xq.length < 4 → (t.dev.awl1 n).xq = x.xq ++ [⟨bitOf v 0, bitOf v 1, x.xloc, x.xfar, x.xlen⟩]) ∧
        (wIo w = 0x038 → t.dev.get (F.AWL_HOST_SIG_VALUE n) = v % 2 ^ 32 ∧ t.dev.is (F.AWL_EVENTS_SIGNAL n) = true) ∧
        ∀ j, j < 32 → t.dev.get (F.AWL_XREG_VALUE n j) = e.get (F.AWL_XREG_VALUE n j))

/-- LDW, LDH and LDHS, issued in either slot, write the value read for that slot to their register and change no memory and no
other data register; STW stores X sign-extended in 4 bytes and STH its low 2 bytes at the halfword address that the pointer
had before the word, and every other byte stays, as does every data register; all then leave the pointer at P + STEP, or
within the circular buffer, modulo 2^24. Where no on-chip error stands, the value read is that of the bytes at the pointer.
(12_awl_signal_cores.md R293, 12_awl_signal_cores.md R294, 12_awl_signal_cores.md R295, 12_awl_signal_cores.md R296) -/
def Obligations.AwlMoveSlotsLoadStoreAndStep : Prop :=
  ∀ (s : State) (n k : Nat) (e : Dev), n < 16 → k < 2 → upIsl s (awlIsl n) →
    let d := s.dev
    let x := e.awl1 n
    let m := wSlot x.word k
    let i := sPtr m
    let from_ := awlDataAddr n (2 * e.specOld n (spP i))
    let p : Int := e.spec n (spP i)
    let b : Int := e.specOld n (spB i)
    let l : Int := e.specOld n (spL i)
    let next : Int := if sCirc m = true ∧ l ≠ 0 then b + (p - b + sStep m) % l else p + sStep m
    let dest := xPhys (e.specOld n spRot) (sX m)
    let stepped (t : State) : Prop := (t.dev.spec n (spP i) : Int) = next % 2 ^ 24 ∧ bitOf (t.dev.awl1 n).slots k = true
    let loads (kind : Nat) (c : Instr) : Prop := AwlMoves d n k kind e → ∃ t, exec c s = .next t ∧ stepped t ∧ t.dev.mem = e.mem ∧
      t.dev.get (F.AWL_XREG_VALUE n dest) = (if k = 0 then x.ld.1 else x.ld.2) % 2 ^ 24 ∧
      ∀ j, j < 32 → j ≠ dest → t.dev.get (F.AWL_XREG_VALUE n j) = e.get (F.AWL_XREG_VALUE n j)
    let stores (kind len : Nat) (v : Int) (c : Instr) : Prop := AwlMoves d n k kind e → ∃ t, exec c s = .next t ∧ stepped t ∧
      (∀ j, j < len → t.dev.rdByte (from_ + j) = BitVec.ofInt 8 (v / 256 ^ j)) ∧
      (∀ a, (∀ j, j < len → a ≠ from_ + j) → t.dev.rdByte a = e.rdByte a) ∧
      ∀ j, j < 32 → t.dev.get (F.AWL_XREG_VALUE n j) = e.get (F.AWL_XREG_VALUE n j)
    loads 1 (.awlLdw n k) ∧ loads 2 (.awlLdh n k) ∧ loads 3 (.awlLdhs n k) ∧
    stores 4 4 (e.xSigned n (sX m)) (.awlStw n k) ∧ stores 5 2 (e.xSigned n (sX m)) (.awlSth n k) ∧
    (d.awlBegin n true = .ready e → (d.awl1 n).snap = none → d.chk = [] → d.sd.bad = [] → d.is F.ECC_DIAG_CTRL_EN = false →
      ∀ k, k < 2 → let m := wSlot x.word k
        let v := if k = 0 then x.ld.1 else x.ld.2
        let at_ := awlDataAddr n (2 * d.spec n (spP (sPtr m)))
        x.word = d.rdLE (awlInstrAddr n (8 * d.awlPc n)) 8 ∧
        (sKind m = 1 → v = d.rdLE at_ 4 % 2 ^ 24) ∧ (sKind m = 2 → v = d.rdLE at_ 2) ∧
        (sKind m = 3 → v = if d.rdLE at_ 2 < 2 ^ 15 then d.rdLE at_ 2 else d.rdLE at_ 2 + 2 ^ 24 - 2 ^ 16))

/-- At an interruptible point a fault outside a handler saves STAT and PC, sets ECAUSE and EADDR, clears IE, LV and RF, sets H
and goes to the vector of its code; inside one it puts the core into FAULT; an interrupt that is due does the same with code
7 (its EADDR is not stated); otherwise, and in any other state, nothing is entered. A waiting core wakes when an enabled
source is pending. RUN starts a HALTED core; HALT stops one at a point and else is kept; RESET leaves it HALTED at PC 0 with
every register 0, but for the counters CYCLES and STALLS, and memory kept; STEP ends HALTED or in FAULT, after a NOP HALTED at the
next word; a doorbell sets its source; XFER_GO queues up to four transfers; one that ends leaves the queue, with ERR where its range
is bad or its move failed and else counted with its source set. (12_awl_signal_cores.md R290, 12_awl_signal_cores.md R304,
12_awl_signal_cores.md R305, 12_awl_signal_cores.md R306, 12_awl_signal_cores.md R307, 12_awl_signal_cores.md R308,
12_awl_signal_cores.md R313, 12_awl_signal_cores.md R315) -/
def Obligations.AwlExceptionsAndControl : Prop :=
  ∀ (s : State) (n : Nat), n < 16 → upIsl s (awlIsl n) →
    let d := s.dev
    let x := d.awl1 n
    let st := d.awlState n
    let entered (t : State) (code : Nat) (deferred : Bool) : Prop :=
      t.dev.spec n spEstat = d.stat n % 2 ^ 24 ∧ t.dev.spec n spEpc = d.awlPc n ∧ t.dev.spec n spEcause = code + 16 * b2n deferred ∧
      t.dev.awlPc n = 8 * code ∧ t.dev.is (F.AWL_EVENTS_EXCEPTION n) = true ∧
      (∀ i, i < 14 → bitOf (t.dev.stat n) i = (if i = 5 then true else if i = 0 ∨ 6 ≤ i ∧ i ≤ 9 then false else bitOf (d.stat n) i)) ∧
      (∀ j, j < 32 → t.dev.get (F.AWL_XREG_VALUE n j) = d.get (F.AWL_XREG_VALUE n j)) ∧ t.dev.mem = d.mem
    ((st ≠ awlRunning ∨ x.point = false) → Acts (.awlExceptionEntry n) s d) ∧
    (∀ code ea df, st = awlRunning → x.point = true → x.fault = some (code, ea, df) → code < 8 →
      (d.handler n = false → ∃ t, exec (.awlExceptionEntry n) s = .next t ∧ entered t code df ∧ t.dev.spec n spEaddr = ea % 2 ^ 24 ∧
        (t.dev.awl1 n).fault = none) ∧
      (d.handler n = true → ∃ t, exec (.awlExceptionEntry n) s = .next t ∧ t.dev.awlState n = awlFault ∧
        t.dev.is (F.AWL_EVENTS_DOUBLE n) = true)) ∧
    (st = awlRunning → x.point = true → x.fault = none →
      (d.awlIrqDue n = false → Acts (.awlExceptionEntry n) s d) ∧
      (d.awlIrqDue n = true → ∃ t, exec (.awlExceptionEntry n) s = .next t ∧ entered t 7 false)) ∧
    ((st ≠ awlWaiting ∨ d.awlWakes n = false) → Acts (.awlWaitWake n) s d) ∧
    (st = awlWaiting → d.awlWakes n = true →
      (d.awlIrqDue n = false → Acts (.awlWaitWake n) s (d.setAwlState n awlRunning)) ∧
      (d.awlIrqDue n = true → ∃ t, exec (.awlWaitWake n) s = .next t ∧ entered t 7 false ∧ t.dev.awlState n = awlRunning)) ∧
    (st = awlHalted → Acts (.awlRun n) s (d.setAwlState n awlRunning)) ∧ (st ≠ awlHalted → Acts (.awlRun n) s d) ∧
    ((st = awlRunning ∨ st = awlWaiting) → x.point = true → ∃ t, exec (.awlCtrlHalt n) s = .next t ∧ t.dev.awlState n = awlHalted ∧
      t.dev.is (F.AWL_EVENTS_HALTED n) = true ∧ t.dev.awlPc n = d.awlPc n) ∧
    ((st = awlRunning ∨ st = awlWaiting) → x.point = false → Acts (.awlCtrlHalt n) s (d.setAwl n { x with halt := true })) ∧
    (st ≠ awlRunning → st ≠ awlWaiting → Acts (.awlCtrlHalt n) s d) ∧
    (∃ t, exec (.awlReset n) s = .next t ∧ t.dev.awlState n = awlHalted ∧ t.dev.awlPc n = 0 ∧ t.dev.awl1 n = AwlSt.init ∧
      (∀ j, j < 32 → t.dev.get (F.AWL_XREG_VALUE n j) = 0) ∧ (∀ j, j < 4 → t.dev.rdReg (R.AWL_ACC n j) = 0) ∧
      (∀ a, a < 0x1000 → (a < 0x20 ∨ 0x30 ≤ a) → Tab.get 0 t.dev.regs ((R.AWL_CTRL n).addr + a) = 0) ∧ t.dev.mem = d.mem) ∧
    (st ≠ awlHalted → Acts (.awlStep n) s d) ∧
    (st = awlHalted → ∃ t, exec (.awlStep n) s = .next t ∧ (t.dev.awlState n = awlHalted ∨ t.dev.awlState n = awlFault)) ∧
    (st = awlHalted → x.fault = none → x.point = true → d.chk = [] → d.sd.bad = [] → d.is F.ECC_DIAG_CTRL_EN = false →
      d.rdLE (awlInstrAddr n (8 * d.awlPc n)) 8 = 0 → d.loopLevels n = 0 → ∃ t, exec (.awlStep n) s = .next t ∧
        t.dev.awlState n = awlHalted ∧ t.dev.awlPc n = (d.awlPc n + 1) % 2 ^ 13) ∧
    Acts (.doorbellRing n) s (d.setAwl n { x with ipend := x.ipend ||| 8 }) ∧
    (∀ v, (4 ≤ x.xq.length → Acts (.xferGo n v) s (d.setAwl n { x with xref := true })) ∧
      (x.xq.length < 4 → Acts (.xferGo n v) s (d.setAwl n { x with xq := x.xq ++ [⟨bitOf v 0, bitOf v 1, x.xloc, x.xfar, x.xlen⟩] }))) ∧
    ∀ ok ext, (x.xq = [] → Acts (.xferEnd n ok ext) s d) ∧
      ∀ q rest, x.xq = q :: rest →
        (q.bad = true → Acts (.xferEnd n ok ext) s (d.setAwl n { x with xq := rest, xerr := true })) ∧
        (q.bad = false → d.engineBusy (q.far / 64 * 64) q.len = true → Acts (.xferEnd n ok ext) s d) ∧
        (q.bad = false → d.engineBusy (q.far / 64 * 64) q.len = false → weltTarget (q.far / 64 * 64) = 0 →
          let r := (d.setAwl n { x with xq := rest }).xferMove n q (ok, ext)
          ∃ t, exec (.xferEnd n ok ext) s = .next t ∧ (t.dev.awl1 n).xq = rest ∧ t.dev.mem = r.1.mem ∧
            (r.2 = true → (t.dev.awl1 n).xerr = true ∧ (t.dev.awl1 n).xdone = x.xdone) ∧
            (r.2 = false → (t.dev.awl1 n).xerr = x.xerr ∧ (t.dev.awl1 n).xdone = (x.xdone + 1) % 65536 ∧
              bitOf (t.dev.awl1 n).ipend 2 = true))

/-- A capture item leaves its queue, and its sample is the first of its piece where none of it has come; the header of the lowest
segment due is written, which closes the segment and moves NEXT_SEQ past it where it stands there; a disabled trigger does
nothing, an enabled one is counted as discarded without a pattern and else is settled at its segment; releasing a region that is
in use frees it. A port that is enabled and exists comes up at its width or x1, unless it is up or went down without a retrain; a
retrain leaves L0; a link that goes down sets LINK_DOWN and fails the requests in flight; a timeout fails the oldest of them; a
request to a port that is down does nothing, one in its window is issued as a burst, an MSI is taken, and another, or one that is
too long (model's reading, log 111), is unsupported and counted. (13_transient_capture.md R318, 13_transient_capture.md R319, 13_transient_capture.md
R321, 13_transient_capture.md R323, 13_transient_capture.md R324, 14_memory_and_integrity.md R327,
14_memory_and_integrity.md R328, 14_memory_and_integrity.md R329) -/
def Obligations.CaptureAndLinksAct : Prop :=
  ∀ (s : State), up s →
    let d := s.dev
    (d.cap.items = [] → ∀ full, Acts (.captureSampleArrive full) s d) ∧
    (∀ i rest full, d.cap.items = i :: rest → ∃ t, exec (.captureSampleArrive full) s = .next t ∧ t.dev.cap.items = rest) ∧
    (∀ n ct ch t code rest full, d.cap.items = .sig n ct ch t code :: rest →
      (d.capTaps n = [] → Acts (.captureSampleArrive full) s { d with cap := { d.cap with items := rest } }) ∧
      (∀ i, d.capTaps n = [i] → d.capCfg n (F.CAP_TAP_INDEX i) = ct → d.capCfg n (F.CAP_TAP_CHANNEL i) = ch →
        let seq := 16 * n + t / 256
        d.capSeg seq = ⟨seq, [], [], [], false⟩ → d.slotHeldOther seq = false → (∀ y, y ∈ d.cap.pieces → y.seq ≠ seq) →
        d.capUsed + d.pieceBytes (segFrame seq) ≤ 4194304 → ∃ u x, exec (.captureSampleArrive full) s = .next u ∧
          u.dev.cap.pieces = d.cap.pieces ++ [x] ∧ x.seq = seq ∧ x.tap = 0 ∧ x.piece = t % 256 / 32 ∧ x.got = [t % 32] ∧
          x.valid = if code.isSome then [t % 32] else [])) ∧
    (d.headerDue = none → Acts .captureHeaderWrite s d) ∧
    (∀ seq, d.headerDue = some seq →
      let busy := d.memBusy (d.slotAddr seq) (64 + mapBytes (d.capTaps (segFrame seq)).length)
      (busy = true → Acts .captureHeaderWrite s d) ∧
      (busy = false → ∃ t, exec .captureHeaderWrite s = .next t ∧ (∀ x, x ∈ t.dev.cap.segs → x.seq ≠ seq) ∧
        (d.cap.heads = [] → t.dev.get F.CAP_NEXT_SEQ_SEQ =
          if seq = d.get F.CAP_NEXT_SEQ_SEQ then (seq + 1) % 2 ^ 52 else d.get F.CAP_NEXT_SEQ_SEQ))) ∧
    (d.trigs = [] → Acts .captureTrigger s d) ∧
    (∀ x rest, d.trigs = x :: rest →
      let d' := { d with trigs := rest }
      Acts .captureTrigger s (if bitOf (d.get F.CAP_TRIG_CFG_RED_EN) x.k then d'.capTrigger 0 (16 * x.v.frame) true false else d')) ∧
    Acts .trigInEdge s (if d.is F.CAP_TRIG_CFG_PIN_EN then d.capTrigger 1 (d.segAt d.time) true true else d) ∧
    (∀ v, (d.is F.CAP_TRIG_CFG_SW_EN = false → Acts (.trigSw v) s d) ∧
      (d.is F.CAP_TRIG_CFG_SW_EN = true → d.active = false → Acts (.trigSw v) s (d.bump (F.CAP_CNT_COUNT 4) 1)) ∧
      (d.is F.CAP_TRIG_CFG_SW_EN = true → d.active = true → bitOf (d.get F.CAP_TRIG_CFG_FWD) 2 = false →
        Acts (.trigSw v) s (d.settleTrigger 2 (if bitOf v 63 then d.get F.CAP_NEXT_SEQ_SEQ else v % 2 ^ 52) false))) ∧
    (∀ r, r < 8 → (d.rgnState r = 0 → Acts (.regionRelease r) s d) ∧
      (d.rgnState r ≠ 0 → ∃ t, exec (.regionRelease r) s = .next t ∧ t.dev.rgnState r = 0 ∧
        (∀ q, q < 8 → q ≠ r → t.dev.rgnState q = d.rgnState q) ∧ ∀ a, t.dev.rdByte a = d.rdByte a)) ∧
    (∀ p, p < 4 →
      (∀ speed width,
        let most := if bitOf (d.pcieCfg (p / 2 * 2)) 4 then 2 else 4
        ((d.is (F.PCIE_CFG_ENABLE p) = false ∨ d.pciePort p = false ∨ d.pcieUp p = true ∨ p ∈ d.pcie.down) →
          Acts (.pcieLinkUp p speed width) s d) ∧
        (d.is (F.PCIE_CFG_ENABLE p) = true → d.pciePort p = true → d.pcieUp p = false → p ∉ d.pcie.down →
          ∃ t, exec (.pcieLinkUp p speed width) s = .next t ∧ t.dev.pcieUp p = true ∧ t.dev.get (F.PCIE_STATUS_SPEED p) ≤ max 1 speed ∧
          t.dev.get (F.PCIE_STATUS_WIDTH p) = if width = most then most else 1)) ∧
      (d.is (F.PCIE_CFG_ENABLE p) = false → Acts (.pcieRetrain p) s d) ∧
      (d.is (F.PCIE_CFG_ENABLE p) = true → ∃ t, exec (.pcieRetrain p) s = .next t ∧ t.dev.pcieUp p = false ∧ p ∉ t.dev.pcie.down ∧
        t.dev.is (F.PCIE_STATUS_LINK_DOWN p) = d.is (F.PCIE_STATUS_LINK_DOWN p)) ∧
      (d.pcieUp p = false → Acts (.pcieLinkDown p) s d ∧ ∀ tag write bus cells, Acts (.pcieInboundRequest p tag write bus cells) s d) ∧
      (d.pcieUp p = true → ∃ t, exec (.pcieLinkDown p) s = .next t ∧ t.dev.pcieUp p = false ∧ p ∈ t.dev.pcie.down ∧
        t.dev.is (F.PCIE_STATUS_LINK_DOWN p) = true ∧ ∀ b, b ∈ t.dev.welt.bursts → b.outboundOn p = false) ∧
      ((∀ b, b ∈ d.welt.bursts → b.outboundOn p = false) → Acts (.pcieCompletionTimeout p) s d) ∧
      (∀ l b r, d.welt.bursts = l ++ b :: r → b.outboundOn p = true → (∀ c, c ∈ l → c.outboundOn p = false) →
        Acts (.pcieCompletionTimeout p) s
          (d.setWelt { d.welt with bursts := l ++ { b with answer := some (weltErr, []) } :: r })) ∧
      Acts (.pcieAerMessage p) s (d.flag (F.PCIE_STATUS_AER p)) ∧
      (∀ tag write bus cells, d.pcieUp p = true →
        let c := Instr.pcieInboundRequest p tag write bus cells
        let most := if write then 256 else 512
        (∀ a, cells.length ≤ most → d.pcieInbound p bus cells.length = some a →
          Acts c s (d.weltIssue (burstOf (pcieMaster p) tag write p a (List.replicate (a % 64) none ++ cells)))) ∧
        (d.pcieInbound p bus cells.length = none → write = true → bus = d.get (F.PCIE_MSI_ADDR_BUS p) * 4 →
          ∀ b0 b1 b2 b3, cells = [some b0, some b1, some b2, some b3] → Acts c s (d.msi (256 + 32 * p + b0 % 32))) ∧
        ((most < cells.length ∨
            d.pcieInbound p bus cells.length = none ∧ (write = false ∨ bus ≠ d.get (F.PCIE_MSI_ADDR_BUS p) * 4)) → ∃ t, exec c s = .next t ∧
          t.dev.get (F.PCIE_STATUS_CNT_UR p) = (d.get (F.PCIE_STATUS_CNT_UR p) + 1) % 2 ^ (F.PCIE_STATUS_CNT_UR p).bits ∧
          Tab.get (0, []) t.dev.pcie.done p = (1, []) ∧ t.dev.mem = d.mem)))

/-- A burst of a master other than the harts joins the waiting ones unless the master drains or has its full number outstanding;
one that crosses 4 KiB is counted and refused with ERR, and an island held in reset issues none. A port with nothing to grant
grants nothing; the default target answers a granted burst with DECERR and counts it, and a PCIe window sends it out as its
requests. A response or a timeout of a burst that is not there changes nothing; one that is leaves the bursts, its master with its
code and data; a timeout is counted and flagged. RUN starts a HALTED channel and another ignores it; ABORT halts a waiting channel with code
7 and makes an active one ABORTING; a reread is due only in a channel that waits for OWN; configuration of a channel that is
not HALTED is refused, and else taken, a ring at INDEX 0; a descriptor that cannot be read halts the channel with code 8, and one
without OWN waits; one completed moves INDEX on, and the next is read.
(15_welt_dma_and_qos.md R360, 15_welt_dma_and_qos.md R361, 15_welt_dma_and_qos.md R362, 15_welt_dma_and_qos.md R365,
15_welt_dma_and_qos.md R366, 15_welt_dma_and_qos.md R367, 15_welt_dma_and_qos.md R371, 15_welt_dma_and_qos.md R377,
15_welt_dma_and_qos.md R379) -/
def Obligations.WeltAndDmaStep : Prop :=
  ∀ (s : State), up s →
    let d := s.dev
    (∀ m tag write kind addr cells, weltMasterOk m = true → m ≠ 0 →
      let b := burstOf m tag write kind addr cells
      let same := (d.welt.bursts.filter fun x => x.master == m && x.write == write && !x.dead && !x.orphan).length
      let c := Instr.weltRequest m tag write kind addr cells
      let held := decide (8 ≤ m) && d.islHeld (m - 8)
      ((d.draining m = true ∨ weltLimit m ≤ same ∨ held = true) → Acts c s d) ∧
      (d.draining m = false → same < weltLimit m → held = false → 4096 < b.addr % 4096 + b.cells.length → ∃ t, exec c s = .next t ∧
        t.dev.welt.bursts = d.welt.bursts ∧ t.dev.get (F.WELT_CNT_COUNT 3) = (d.get (F.WELT_CNT_COUNT 3) + 1) % 2 ^ 32 ∧
        (Tab.get (0, 0, []) t.dev.welt.last m).2.1 = weltErr) ∧
      (d.draining m = false → same < weltLimit m → held = false → b.addr % 4096 + b.cells.length ≤ 4096 → ∃ t, exec c s = .next t ∧
        t.dev.welt.bursts = d.welt.bursts ++ [b] ∧ t.dev.mem = d.mem)) ∧
    (∀ tag write kind addr cells,
      let b := burstOf 0 tag write kind addr cells
      let c := Instr.weltRequest 0 tag write kind addr cells
      (hartMay kind b.addr b.cells = false → Acts c s (d.hartFault (b.tag % 8) kind (b.addr + b.cells.findIdx Option.isSome))) ∧
      (hartMay kind b.addr b.cells = true → d.inScratch b.addr = false → Acts c s (d.weltIssue b))) ∧
    (∀ k, k < 7 → d.grantable k = [] → Acts (.weltGrant k) s d) ∧
    (∀ r i b rest, sortBy (·.1) (d.grantable 6) = (r, i) :: rest → d.welt.bursts[i]? = some b → b.target = 6 → b.answer = none →
      ∃ t, exec (.weltGrant 6) s = .next t ∧
      t.dev.get (F.WELT_CNT_COUNT 0) = (d.get (F.WELT_CNT_COUNT 0) + 1) % 2 ^ 32 ∧ t.dev.is F.WELT_EVENTS_DECODE = true ∧
      ∃ x, x ∈ t.dev.welt.bursts ∧ x.master = b.master ∧ x.granted = true ∧ x.answer = some (weltDecerr, List.replicate b.cells.length 0)) ∧
    (∀ k, (k = 1 ∨ k = 2) → ∀ r i b rest, sortBy (·.1) (d.grantable k) = (r, i) :: rest → d.welt.bursts[i]? = some b → b.target = k →
      ∃ t, exec (.weltGrant k) s = .next t ∧ t.dev.welt.bursts[i]? = some { b with granted := true, out := d.pcieReqs b } ∧ t.dev.mem = d.mem) ∧
    (∀ m tag, weltMasterOk m = true →
      ((d.welt.bursts.findIdx? fun b => b.master == m && b.tag == tag && b.granted) = none → ∀ ok data, Acts (.weltResponse m tag ok data) s d) ∧
      (∀ i b, (d.welt.bursts.findIdx? fun b => b.master == m && b.tag == tag && b.granted) = some i → d.welt.bursts[i]? = some b →
        (∀ code data' ok data, b.answer = some (code, data') → Acts (.weltResponse m tag ok data) s (d.weltDeliver i b code data')) ∧
        (∀ ok data, b.answer = none → b.target ≠ 0 → Acts (.weltResponse m tag ok data) s
          (d.weltDeliver i b (if ok then weltOkay else weltErr) (padTo b.cells.length 0 data))) ∧
        (∀ ok data, b.answer = none → b.target = 0 → d.memBusy b.addr b.cells.length = true → Acts (.weltResponse m tag ok data) s d) ∧
        (∀ ok data data', b.answer = some (weltOkay, data') → b.dead = false → b.orphan = false → m ≠ 0 → m ≠ 3 → m ≠ 4 →
          ∃ t, exec (.weltResponse m tag ok data) s = .next t ∧ t.dev.welt.bursts = d.welt.bursts.eraseIdx i ∧
            Tab.get (0, 0, []) t.dev.welt.last m = (tag, weltOkay, if b.write then [] else data') ∧ t.dev.mem = d.mem)) ∧
      (d.get F.WELT_TIMEOUT_CYCLES = 0 → Acts (.weltTimeout m tag) s d) ∧
      ((d.welt.bursts.findIdx? fun b => b.master == m && b.tag == tag && b.granted && !b.dead) = none → Acts (.weltTimeout m tag) s d) ∧
      (d.get F.WELT_TIMEOUT_CYCLES ≠ 0 → (∃ b, b ∈ d.welt.bursts ∧ b.master = m ∧ b.tag = tag ∧ b.granted = true ∧ b.dead = false) →
        ∃ t, exec (.weltTimeout m tag) s = .next t ∧ t.dev.is F.WELT_EVENTS_TIMEOUT = true ∧
          t.dev.get (F.WELT_CNT_COUNT 1) = (d.get (F.WELT_CNT_COUNT 1) + 1) % 2 ^ 32)) ∧
    (∀ c, c < 64 →
      let st := d.dmaState c
      let x := d.dmaCh c
      (st = dmaHalted → Acts (.dmaRun c) s ((d.setDma c { DmaCh.init with wait := .desc }).setDmaState c dmaWaiting)) ∧
      (st ≠ dmaHalted → Acts (.dmaRun c) s d) ∧
      ((st = dmaHalted ∨ st = dmaAborting) → Acts (.dmaAbort c) s d) ∧
      (st = dmaWaiting → ∃ t, exec (.dmaAbort c) s = .next t ∧ t.dev.dmaState c = dmaHalted ∧ t.dev.get (F.DMA_CH_STATUS_CODE c) = 7) ∧
      (st = dmaActive → ∃ t, exec (.dmaAbort c) s = .next t ∧ t.dev.dmaState c = dmaAborting ∧ t.dev.mem = d.mem) ∧
      (∀ i, (i = .dmaKick c ∨ i = .dmaDescPoll c) →
        (st = dmaWaiting → x.wait = .none → Acts i s (d.setDma c { x with wait := .desc })) ∧
        ((st ≠ dmaWaiting ∨ x.wait ≠ .none) → Acts i s d)) ∧
      (∀ ring v, st ≠ dmaHalted → Acts (.dmaChConfigWrite c ring v) s { d with answer := (1, 0) }) ∧
      (∀ v, st = dmaHalted → (∃ t, exec (.dmaChConfigWrite c false v) s = .next t ∧ t.dev.answer = (0, 0) ∧
          t.dev.get (F.DMA_CH_CFG_LOG_N c) = v % 32 ∧ t.dev.is (F.DMA_CH_CFG_CLASS c) = bitOf v 30) ∧
        ∃ t, exec (.dmaChConfigWrite c true v) s = .next t ∧ t.dev.answer = (0, 0) ∧
          t.dev.get (F.DMA_CH_RING_BASE c) = v / 32 % 2 ^ 35 ∧ t.dev.dmaIndex c = 0) ∧
      (∀ ok ext, (x.wait = .none ∨ x.wait = .data ∨ x.wait = .status ∨ x.wait = .own) → Acts (.dmaReadDone c ok ext) s d) ∧
      (∀ ok ext, x.wait = .desc → d.engineBusy (d.dmaDesc c) 32 = true → Acts (.dmaReadDone c ok ext) s d) ∧
      (∀ ok ext, x.wait = .desc → d.engineBusy (d.dmaDesc c) 32 = false →
        let r := d.engineRead 1 (d.dmaClass c) (d.dmaDesc c) 32 (ok, ext)
        (r.2.1 = false → ∃ t, exec (.dmaReadDone c ok ext) s = .next t ∧ t.dev.dmaState c = dmaHalted ∧ t.dev.get (F.DMA_CH_STATUS_CODE c) = 8) ∧
        (r.2.1 = true → bitOf (r.2.2.getD 12 0) 0 = false → Acts (.dmaReadDone c ok ext) s (r.1.setDma c DmaCh.init)) ∧
        (r.2.1 = true → bitOf (r.2.2.getD 12 0) 0 = true → ∃ t, exec (.dmaReadDone c ok ext) s = .next t ∧ t.dev.dmaState c = dmaActive)) ∧
      (∀ ok, (x.wait = .none ∨ x.wait = .desc ∨ x.wait = .elem ∨ x.wait = .src) → Acts (.dmaWriteResponse c ok) s d) ∧
      (∀ ok, (x.wait = .status ∨ x.wait = .own) → d.engineBusy (d.dmaDesc c) 32 = true → Acts (.dmaWriteResponse c ok) s d) ∧
      (∀ ok, x.wait = .status → d.engineBusy (d.dmaDesc c) 32 = false →
        let r := d.engineWrite 1 (d.dmaClass c) (d.dmaDesc c + 16) (d.dmaStatus c) ok
        Acts (.dmaWriteResponse c ok) s (if r.2 then r.1.updDma c fun x => { x with wait := .own } else r.1.dmaLost c)) ∧
      (∀ ok, x.wait = .own → d.engineBusy (d.dmaDesc c) 32 = false → weltTarget (d.dmaDesc c) = 0 → x.code = 0 → x.stop = false →
        (d.engineWrite 1 (d.dmaClass c) (d.dmaDesc c + 12) [0, 0, 0, 0] ok).2 = true → ∃ t, exec (.dmaWriteResponse c ok) s = .next t ∧
          t.dev.dmaIndex c = (d.dmaIndex c + 1) % 2 ^ d.get (F.DMA_CH_CFG_LOG_N c) % 2 ^ 16 ∧ t.dev.dmaState c = dmaWaiting ∧
          (t.dev.dmaCh c).wait = .desc ∧ (x.irq = true → bitOf (t.dev.get F.DMA_DONE_DONE) c = true)))

/-- Outside its first stage the boot ROM checks nothing; a slot that passes starts hart 0 at its ENTRY, a second slot that fails
drives BOOT_FAIL. Scratch is left once, and its write-back ends BUSY. A flash command is refused while one runs. MGMT EN
starts or stops the MAC, its rings refuse writes while EN is 1, rings reread only what they wait for and go on waiting for a
descriptor without OWN; frames too short, too long or of a wrong FCS are dropped and counted, a PAUSE stops transmission, a frame
that the filter turns away is counted, and another is written to the descriptor held; a frame held whole is sent when the link is up and no PAUSE holds it; MDIO
runs one frame at a time. A TAP instruction acts unless TRST_N holds the TAP; IDCODE answers 0x1560_409B.
(17_application_cores_boot_management.md R425, 17_application_cores_boot_management.md R426,
17_application_cores_boot_management.md R427, 17_application_cores_boot_management.md R428,
17_application_cores_boot_management.md R430, 17_application_cores_boot_management.md R432, 22_electrical_package.md R524) -/
def Obligations.BootFlashAndManagementAct : Prop :=
  ∀ (s : State), up s →
    let d := s.dev
    let m := d.mgmt
    (d.get F.DEV_BOOT_STAGE ≠ 0 → ∀ img, Acts (.bootSlotCheck img) s d) ∧
    (∀ img, d.get F.DEV_BOOT_STAGE = 0 →
      let slot := if d.get F.DEV_BOOT_RESULT_A = 0 then 0 else 1
      ∃ t, exec (.bootSlotCheck img) s = .next t ∧
        t.dev.get (if slot = 0 then F.DEV_BOOT_RESULT_A else F.DEV_BOOT_RESULT_B) = bootCheck img ∧
        if bootCheck img = 1 then
          t.dev.get F.DEV_BOOT_STAGE = 1 ∧ t.dev.get F.DEV_BOOT_SLOT = slot ∧ (t.dev.hart 0).pc = hdr img 12 4 ∧ t.dev.bootFail = d.bootFail
        else t.dev.get F.DEV_BOOT_STAGE = (if slot = 1 then 2 else 0) ∧ (slot = 1 → t.dev.bootFail = true)) ∧
    (d.is F.DEV_L2_CTRL_SCRATCH = false → Acts .scratchExit s d) ∧
    (d.is F.DEV_L2_CTRL_SCRATCH = true → ∃ t, exec .scratchExit s = .next t ∧ t.dev.is F.DEV_L2_CTRL_SCRATCH = false ∧
      t.dev.is F.DEV_L2_CTRL_BUSY = true ∧ t.dev.l2 = d.l2) ∧
    ((d.is F.DEV_L2_CTRL_BUSY = false ∨ d.memBusy 0 0x200000 = true) → Acts .scratchWritebackDone s d) ∧
    (d.is F.DEV_L2_CTRL_BUSY = true → d.memBusy 0 0x200000 = false → ∃ t, exec .scratchWritebackDone s = .next t ∧ t.dev.is F.DEV_L2_CTRL_BUSY = false ∧ t.dev.l2 = []) ∧
    (∀ v, (d.is F.DEV_QSPI_CTRL_GO = true → Acts (.qspiCommand v) s { d with answer := (1, 0) }) ∧
      (d.is F.DEV_QSPI_CTRL_GO = false → ∃ t, exec (.qspiCommand v) s = .next t ∧ t.dev.answer = (0, 0) ∧
        t.dev.is F.DEV_QSPI_CTRL_GO = bitOf v 63 ∧ t.dev.get F.DEV_QSPI_CTRL_OPCODE = v / 2 ^ 48 % 256 ∧
        t.dev.get F.DEV_QSPI_CTRL_LEN = v / 2 ^ 8 % 16)) ∧
    (∀ data, (d.is F.DEV_QSPI_CTRL_GO = false → Acts (.qspiCommandDone data) s d) ∧
      (d.is F.DEV_QSPI_CTRL_GO = true → ∃ t, exec (.qspiCommandDone data) s = .next t ∧ t.dev.is F.DEV_QSPI_CTRL_GO = false)) ∧
    (∀ on, (d.mgmtOn = on → Acts (.mgmtEnable on) s d) ∧ (d.mgmtOn ≠ on → ∃ t, exec (.mgmtEnable on) s = .next t ∧ t.dev.mgmtOn = on)) ∧
    (∀ r, r < 2 →
      (∀ v, d.mgmtOn = true → Acts (.mgmtRingWrite r v) s { d with answer := (1, 0) }) ∧
      (∀ v, d.mgmtOn = false → d.active = false → ∃ t, exec (.mgmtRingWrite r v) s = .next t ∧ t.dev.answer = (0, 0) ∧
        t.dev.get (F.MGMT_RING_BASE r) = v / 16 % 2 ^ 36 ∧ t.dev.get (F.MGMT_RING_LOG_N r) = v / 2 ^ 40 % 32) ∧
      (∀ c, (c = .mgmtKick r ∨ c = .mgmtDescPoll r) →
        ((d.mgmtOn = false ∨ d.is (F.MGMT_PTR_WAITING r) = false) → Acts c s d) ∧
        (d.mgmtOn = true → d.is (F.MGMT_PTR_WAITING r) = true →
          let x := (d.mgmtRead (d.mgmtDesc r (d.get (F.MGMT_PTR_INDEX r))) 16).2
          let fl := ofBytes ((x.1.drop 8).take 4)
          let room := if r = 0 then m.txBytes + 9014 ≤ 16384 ∧ m.txDescs < d.mgmtRingLen 0 else m.rx = [] ∧ m.held = []
          (∃ t, exec c s = .next t) ∧
          (room → (x.2 = true ∨ bitOf fl 0 = false) → ∃ t, exec c s = .next t ∧ t.dev.is (F.MGMT_PTR_WAITING r) = true ∧ t.dev.mgmt = m) ∧
          (room → r = 1 → x.2 = false → bitOf fl 0 = true → ∃ t, exec c s = .next t ∧ t.dev.is (F.MGMT_PTR_WAITING 1) = false ∧
            t.dev.get (F.MGMT_PTR_INDEX 1) = (d.get (F.MGMT_PTR_INDEX 1) + 1) % d.mgmtRingLen 1 % 2 ^ 16 ∧
            t.dev.mgmt.held = [(d.mgmtDesc 1 (d.get (F.MGMT_PTR_INDEX 1)), ofBytes (x.1.take 5), ofBytes ((x.1.drop 6).take 2))])))) ∧
    (∀ bs : List Nat, ((d.mgmtOn = false ∨ d.is F.MGMT_STATUS_LINK = false) → Acts (.mgmtFrameReceive bs) s d) ∧
      (d.mgmtOn = true → d.is F.MGMT_STATUS_LINK = true → (bs.length < 64 ∨ 9018 < bs.length) → Acts (.mgmtFrameReceive bs) s (d.mgmtDrop 3)) ∧
      (d.mgmtOn = true → d.is F.MGMT_STATUS_LINK = true → 64 ≤ bs.length → bs.length ≤ 9018 → fcs (bs.take (bs.length - 4)) ≠ bs.drop (bs.length - 4) →
        Acts (.mgmtFrameReceive bs) s (d.mgmtDrop 2)) ∧
      (d.mgmtOn = true → d.is F.MGMT_STATUS_LINK = true → 64 ≤ bs.length → bs.length ≤ 9018 → fcs (bs.take (bs.length - 4)) = bs.drop (bs.length - 4) →
        let pause := isPause bs && d.is F.MGMT_CFG_PAUSE_RX
        (pause = true → ∃ t, exec (.mgmtFrameReceive bs) s = .next t ∧ t.dev.mgmt.rx = m.rx ∧
          t.dev.mgmt.pause = d.ticks + pauseTicks (d.get F.MGMT_STATUS_SPEED) (be16 bs 16) ∧
          t.dev.get (F.MGMT_CNT_COUNT 7) = (d.get (F.MGMT_CNT_COUNT 7) + 1) % 2 ^ 32) ∧
        (pause = false → d.mgmtAccepts bs = false → Acts (.mgmtFrameReceive bs) s (d.bump (F.MGMT_CNT_COUNT 5) 1)) ∧
        (∀ a buf len rest, pause = false → d.mgmtAccepts bs = true → m.rx = [] → m.held = (a, buf, len) :: rest → bs.length ≤ len →
          ∃ t, exec (.mgmtFrameReceive bs) s = .next t ∧ t.dev.mgmt.rx = [] ∧ t.dev.is F.MGMT_STATUS_RX_DONE = true ∧
            t.dev.get (F.MGMT_CNT_COUNT 1) = (d.get (F.MGMT_CNT_COUNT 1) + 1) % 2 ^ 32))) ∧
    (∀ link speed half, ∃ t, exec (.mgmtLinkChange link speed half) s = .next t ∧ t.dev.mgmt.phyLink = link ∧
      (m.rgmii = false → t.dev.is F.MGMT_STATUS_LINK = (link && !half) ∧ t.dev.get F.MGMT_STATUS_SPEED = min 2 speed)) ∧
    (m.rx = [] → Acts .mgmtRxNodescTimeout s d) ∧
    (∀ f rest, m.rx = f :: rest → Acts .mgmtRxNodescTimeout s ((d.setMgmt { m with rx := rest }).mgmtDrop 4).mgmtRx) ∧
    (∀ f, m.rx = [f] → m.held ≠ [] → Acts .mgmtRxNodescTimeout s ((d.setMgmt { m with rx := [] }).mgmtDrop 4)) ∧
    (m.ready = [] → Acts .mgmtFrameTransmit s d) ∧
    (∀ f rest, m.ready = f :: rest →
      let paused := d.is F.MGMT_CFG_PAUSE_RX && decide (d.ticks < m.pause)
      ((d.mgmtOn = false ∨ f.bad = false ∧ (paused = true ∨ d.is F.MGMT_STATUS_LINK = false)) → Acts .mgmtFrameTransmit s d) ∧
      (d.mgmtOn = true → (f.bad = true ∨ paused = false ∧ d.is F.MGMT_STATUS_LINK = true) → ∃ t, exec .mgmtFrameTransmit s = .next t ∧
        t.dev.is F.MGMT_STATUS_TX_DONE = true ∧
        (f.bad = false → t.dev.mgmt.sent = let body := f.bytes ++ List.replicate (60 - f.bytes.length) 0; body ++ fcs body))) ∧
    (m.mdio ≠ none → Acts .mdioFrame s d) ∧
    (m.mdio = none → ∃ t, exec .mdioFrame s = .next t ∧ t.dev.is F.MGMT_MDIO_GO = true ∧ t.dev.mgmt.mdio ≠ none) ∧
    (∀ data, (m.mdio = none → Acts (.mdioDone data) s d) ∧
      (∀ w, m.mdio = some w → ∃ t, exec (.mdioDone data) s = .next t ∧ t.dev.is F.MGMT_MDIO_GO = false ∧ t.dev.mgmt.mdio = none ∧
        (2 ≤ w / 2 ^ 28 % 4 → t.dev.get F.MGMT_MDIO_DATA = data % 2 ^ 16))) ∧
    (d.jtag.trst = true → Acts .jtagBypass s d ∧ Acts .jtagIdcode s d ∧ Acts .jtagExtest s d ∧ ∀ v, Acts (.jtagSample v) s d ∧ Acts (.jtagPreload v) s d) ∧
    (d.jtag.trst = false → ∃ t, exec .jtagIdcode s = .next t ∧ t.dev.answer = (0, 0x1560409B) ∧ t.dev.jtag = { d.jtag with ir := .idcode, drive := none }) ∧
    (d.jtag.trst = false → Acts .jtagBypass s { d with jtag := { d.jtag with ir := .bypass, drive := none } } ∧
      Acts .jtagExtest s { d with jtag := { d.jtag with ir := .extest, drive := some d.jtag.boundary } } ∧
      ∀ v, Acts (.jtagSample v) s { d with jtag := { d.jtag with ir := .sample, drive := none, boundary := v % 2 ^ boundaryBits } } ∧
        Acts (.jtagPreload v) s { d with jtag := { d.jtag with ir := .preload, drive := none, boundary := v % 2 ^ boundaryBits } }) ∧
    ∀ low, exec (.tapReset low) s = .next { s with dev := { d with jtag := { TapSt.init with trst := low } } }

/-- Power-on reset makes every register read its reset value and memory its default, counts POWER_CYCLE and queues POWER_ON;
PORST_N falling stops the device. An append that fits the queue is queued with the sequence number, and another is lost and
counted; a record is programmed at the head only when its block is erased, and the erase makes the block read 0xFF; a
software append of a reserved type is refused. FO_REQ starts a switchover in the role that allows it and waits during a gap;
HANDOVERs repeat until values agree; the gap ends with agreed values, or alone after WAIT, and sets SWITCHED; only a
DRAINING chip becomes STANDBY, which it does once no dump is left and its islands have reached F_HO. (20_events_faults_failover.md R473, 20_events_faults_failover.md R476,
20_events_faults_failover.md R477, 20_events_faults_failover.md R479, 20_events_faults_failover.md R482,
20_events_faults_failover.md R489, 20_events_faults_failover.md R490, 20_events_faults_failover.md R491,
20_events_faults_failover.md R492, 22_electrical_package.md R509, 22_electrical_package.md R510) -/
def Obligations.RecorderFailoverAndPowerOnAct : Prop :=
  (∀ (s : State), s.dev.up = true → exec .powerOnReset s = .next s) ∧
  (∀ (s : State), s.dev.up = false → ∃ t, exec .powerOnReset s = .next t ∧ t.dev.up = true ∧ (∀ r : Reg, t.dev.rdReg r = BitVec.ofNat 64 r.reset) ∧
    t.dev.mem = [] ∧ t.dev.evr.powerCycle = s.dev.evr.powerCycle + 1 ∧ t.dev.evr.store = s.dev.evr.store ∧ t.dev.fuses = s.dev.fuses ∧
    t.smu = s.smu ∧ t.dev.evr.queue.map (·.type) = [1]) ∧
  (∀ (s : State) (n : Nat), s.dev.up = false → exec (.porstFall n) s = .next s) ∧
  (∀ (s : State) (n : Nat), s.dev.up = true → ∃ t, exec (.porstFall n) s = .next t ∧ t.dev.up = false ∧ t.dev.bootFail = false ∧
    t.dev.thermTrip = false ∧ t.dev.regs = s.dev.regs ∧ t.smu = s.smu) ∧
  ∀ (s : State), up s →
    let d := s.dev
    let e := d.evr
    (s.smu.appends = [] → e.transit = [] → Acts .evrAppendArrive s d) ∧
    (∀ r rest, s.smu.appends = [] → e.transit = r :: rest →
      let d' := { d with evr := { e with transit := rest } }
      let q : QRec := ⟨r.type, r.source, r.inst, r.body.bytesAt (d.get F.ING_FRAME_HEAD_HEAD), r.full, e.seq, e.hours, e.sec⟩
      Acts .evrAppendArrive s (d'.evrEnqueue r) ∧
      (r.type ≠ 4 → e.lostSince = 0 → roomUsed e.queue + q.room ≤ 12288 → ∃ t, exec .evrAppendArrive s = .next t ∧
        t.dev.evr.queue = e.queue ++ [q] ∧ t.dev.evr.transit = rest ∧ t.dev.is F.EVR_EVENTS_APPENDED = true) ∧
      (r.type ≠ 4 → e.lostSince = 0 → 12288 < roomUsed e.queue + q.room → ∃ t, exec .evrAppendArrive s = .next t ∧
        t.dev.evr.queue = e.queue ∧ t.dev.get F.EVR_LOST_CNT_COUNT = (d.get F.EVR_LOST_CNT_COUNT + 1) % 2 ^ 32 ∧
        t.dev.is F.EVR_EVENTS_LOST = true)) ∧
    (∀ n r rest, s.smu.appends = (n, r) :: rest → exec .evrAppendArrive s =
      .next { s with smu := { s.smu with appends := rest }, dev := (d.evrEnqueue r).irqSettle }) ∧
    ((e.next = none ∨ e.mustEnter = true) → Acts .evrRecordProgrammed s d) ∧
    (∀ q, e.next = some q → e.mustEnter = false → ∃ t, exec .evrRecordProgrammed s = .next t ∧
      ∀ j, j < (e.image q).length → Tab.get 0xFF t.dev.evr.store (e.head + j) = BitVec.ofNat 8 ((e.image q).getD j 0)) ∧
    (e.mustEnter = false → Acts .evrBlockEraseDone s d) ∧
    (e.mustEnter = true → ∃ t, exec .evrBlockEraseDone s = .next t ∧ t.dev.evr.head = nextBlock e.head ∧
      ∀ a, Tab.get 0xFF t.dev.evr.store a = if nextBlock e.head ≤ a ∧ a < nextBlock e.head + 4096 then 0xFF else Tab.get 0xFF e.store a) ∧
    (∀ v, let typ := v / 256 % 256
      ((typ < 0xC0 ∨ typ = 0xFF ∨ (bitOf v 7 = true ∧ v % 128 = 0)) → Acts (.evrSoftwareAppend v) s (d.flag F.EVR_EVENTS_REFUSED)) ∧
      (0xC0 ≤ typ → typ ≠ 0xFF → (bitOf v 7 = false ∨ v % 128 ≠ 0) → Acts (.evrSoftwareAppend v) s
        (d.evrEnqueue ⟨typ, 0xFF, 0, .bytes (d.swBuf.take (8 * (v % 128 + 1) - (if bitOf v 7 then 16 else 8))), bitOf v 7⟩))) ∧
    (∃ t, exec .evrOpTimeSave s = .next t ∧ t.dev.evr.saved = max (e.hours * 3600 + e.sec) (e.saved + 64)) ∧
    (upEgr s →
      let role := d.get F.FO_STATUS_ROLE
      (∀ low, d.fo.gap ≠ none → ∃ t, exec (.foReqChange low) s = .next t ∧ t.dev.is F.FO_STATUS_REQ = low ∧
        t.dev.get F.FO_STATUS_ROLE = role ∧ t.dev.fo = { d.fo with later := true }) ∧
      (d.fo.gap = none → (role = foStandby ∨ role = foDraining) → ∃ t g, exec (.foReqChange true) s = .next t ∧
        t.dev.get F.FO_STATUS_ROLE = foAssuming ∧ t.dev.fo.gap = some g ∧ g.own.1 = d.get F.ING_FRAME_HEAD_HEAD + 2 ∧ g.releasing = false) ∧
      (d.fo.gap = none → (role = foActive ∨ role = foDraining) → ∃ t g, exec (.foReqChange false) s = .next t ∧
        t.dev.get F.FO_STATUS_ROLE = foReleasing ∧ t.dev.fo.gap = some g ∧ g.own.1 = d.get F.ING_FRAME_HEAD_HEAD + 2 ∧ g.releasing = true) ∧
      (d.fo.gap = none → Acts .handoverRepeat s d ∧ Acts .handoverWaitExpire s d ∧ ∀ b, Acts (.handoverGapEnd b) s d) ∧
      (∀ g, d.fo.gap = some g →
        (g.sent = true → g.agreedLeft ≠ none → Acts .handoverRepeat s d) ∧
        (g.sent = true → g.agreedLeft = none → Acts .handoverRepeat s
          ((d.sendHandovers g 1).setGap (some { g with blocks := g.blocks + 16 }))) ∧
        (g.sent = false → ((d.foLanes false).any fun n => (d.lane n).tx.cur.isSome) = false → ∃ t h, exec .handoverRepeat s = .next t ∧
          t.dev.fo.gap = some h ∧ h.sent = true ∧ h.own = g.own) ∧
        ((g.sent = false ∨ g.partner ≠ none) → Acts .handoverWaitExpire s d) ∧
        (g.sent = true → g.partner = none → d.fo.later = false → ∃ t, exec .handoverWaitExpire s = .next t ∧
          t.dev.is F.FO_EVENTS_ALONE = true ∧ t.dev.is F.FO_EVENTS_SWITCHED = true ∧ t.dev.fo.gap = none ∧
          t.dev.get F.FO_STATUS_ROLE = if g.releasing then foDraining else foActive) ∧
        (∀ b, g.agreedLeft = none → Acts (.handoverGapEnd b) s d) ∧
        (∀ b, g.agreedLeft ≠ none → d.fo.later = false → ((d.foLanes true).all fun n => (d.lane n).tx.handover.isEmpty) = true →
          ∃ t, exec (.handoverGapEnd b) s = .next t ∧ t.dev.is F.FO_EVENTS_SWITCHED = true ∧ t.dev.fo.gap = none ∧
            t.dev.get F.FO_STATUS_HO_COUNT = g.values.2.1 % 2 ^ 16 ∧ t.dev.get F.FO_LAST_F_HO = g.values.1 % 2 ^ 48)) ∧
      (role ≠ foDraining → Acts .foReleaseComplete s d) ∧
      (role = foDraining → d.relay = [] → d.egr.numbers = [] → (∀ k, k < 8 → d.get F.FO_LAST_F_HO ≤ d.get (F.ISL_FRAME_NO_FRAME_NO k)) →
        ∃ t, exec .foReleaseComplete s = .next t ∧ t.dev.get F.FO_STATUS_ROLE = foStandby) ∧
      (∃ t, exec .foReleaseComplete s = .next t ∧ (t.dev.get F.FO_STATUS_ROLE = role ∨ role = foDraining ∧ t.dev.get F.FO_STATUS_ROLE = foStandby)))

/-- SEAL blows one fuse and keeps the configuration only when it is not SEALED, CHECK is the hash, firmware runs, the part is a
VX4M and fewer than eight seals stand, and BREAK only when SEALED with the complement; else each is refused. Power-up counts
BOOT, keeps the fuses and, when SEALED, loads the kept configuration or breaks. Firmware starts from a waiting state alone;
its check makes the unit RUN or FW_BAD. A PPS edge and a missing edge make a TIME record while measuring; the oldest POWER records
that wait are made when they are due, and a stream that falls silent closes its open frame; a tap frame that finds the buffer full is
counted and not summed, and one of a stream that is not selected moves at most REF_SC; a word that crosses stands in the mirror and
sets its NOTE; SPI reads give the words of the address space, and SPI writes above the
command register change no configuration of a SEALED unit. (18_sealed_measurement_unit.md R435,
18_sealed_measurement_unit.md R437, 18_sealed_measurement_unit.md R440, 18_sealed_measurement_unit.md R443,
18_sealed_measurement_unit.md R444, 18_sealed_measurement_unit.md R445, 18_sealed_measurement_unit.md R447,
18_sealed_measurement_unit.md R449, 18_sealed_measurement_unit.md R450) -/
def Obligations.SealedUnitActs : Prop :=
  ∀ (s : State),
    let u := s.smu
    let sends (c : Instr) (f : SmuSt → SmuSt) : Prop := exec c s = .next (s.runSmu f)
    (∀ check, sends (.smuSeal check) fun u => u.sealCmd check) ∧ (∀ check, sends (.smuBreak check) fun u => u.breakCmd check) ∧
    (∀ len, sends (.smuFwStart len) fun u => u.fwStart len) ∧ sends .smuFwCheckDone (fun u => u.fwCheckDone) ∧
    (∀ good, sends (.smuPowerOn good) fun u => u.powerOn good) ∧ sends .smuPowerLoss (fun u => u.powerLoss) ∧
    sends .smuPpsEdge (fun u => u.ppsEdge) ∧ sends .smuPpsMissing (fun u => u.ppsMissing) ∧
    sends .smuPowerRecordDue (fun u => u.powerDue) ∧ (∀ k, k < 8192 → sends (.smuFrameCloseTimeout k) fun u => u.closeTimeout k) ∧
    (∀ a n, sends (.smuSpiRead a n) fun u => u.spiRead a n) ∧ (∀ a b, sends (.smuSpiWrite a b) fun u => u.spiWrite a b) ∧
    (∀ check, u.up = true →
      let may := u.seal ≠ 1 ∧ check = u.hashLow ∧ u.state = smuRun ∧ u.sealGen < 8
      let refused (t : State) : Prop := t.smu = { u with out := [], events := u.events ||| 2 ^ evCmdRefused } ∧ t.dev = s.dev
      (may → ∃ t, exec (.smuSeal check) s = .next t ∧
        if Config.vx4m = true then t.smu.sealGen = u.sealGen + 1 ∧ t.smu.broken = u.broken ∧ t.smu.kept = (u.region, u.hash) ∧
          bitOf t.smu.events evSealChange = true ∧ t.dev = s.dev
        else refused t) ∧
      (¬ may → ∃ t, exec (.smuSeal check) s = .next t ∧ refused t) ∧
      (u.seal = 1 → check = 2 ^ 32 - 1 - u.hashLow → ∃ t, exec (.smuBreak check) s = .next t ∧ t.smu.seal = 2 ∧ t.smu.sealGen = u.sealGen) ∧
      ((u.seal ≠ 1 ∨ check ≠ 2 ^ 32 - 1 - u.hashLow) → ∃ t, exec (.smuBreak check) s = .next t ∧
        t.smu = { u with out := [], events := u.events ||| 2 ^ evCmdRefused })) ∧
    (∀ good, u.up = false → ∃ t, exec (.smuPowerOn good) s = .next t ∧ t.smu.up = true ∧ t.smu.boot = (u.boot + 1) % 2 ^ 32 ∧
      t.smu.sealGen = u.sealGen ∧ t.smu.kept = u.kept ∧ t.smu.state = smuWait ∧ t.link = s.link ++ [.refresh t.smu.refSc] ∧
      (u.seal = 1 → good = true → t.smu.region = u.kept.1 ∧ t.smu.broken = u.broken) ∧
      (u.seal = 1 → good = false → t.smu.seal = 2) ∧ (u.seal ≠ 1 → t.smu.broken = u.broken)) ∧
    (∃ t, exec .smuPowerLoss s = .next t ∧ t.smu.up = false ∧ t.smu.sealGen = u.sealGen ∧ t.smu.broken = u.broken ∧ t.smu.kept = u.kept ∧
      t.link = s.link) ∧
    (∀ len, u.up = true →
      let may := (u.state = smuWait ∨ u.state = smuFwBad) ∧ u.fwCheck = none ∧ 1 ≤ len ∧ len ≤ 2048
      (may → ∃ t, exec (.smuFwStart len) s = .next t ∧ t.smu.fwCheck = some len) ∧
      (¬ may → ∃ t, exec (.smuFwStart len) s = .next t ∧ t.smu.fwCheck = u.fwCheck ∧ bitOf t.smu.events evCmdRefused = true)) ∧
    (∀ len, u.up = true → u.fwCheck = some len → ∃ t, exec .smuFwCheckDone s = .next t ∧ t.smu.fwCheck = none ∧
      t.smu.state = if sha256 (u.fwBytes (64 * len)) = smuFwHash then smuRun else smuFwBad) ∧
    (u.fwCheck = none → ∃ t, exec .smuFwCheckDone s = .next t ∧ t.smu = { u with out := [] }) ∧
    (u.up = true → ∃ t, exec .smuPpsEdge s = .next t ∧ t.smu.lastEdge = u.tick ∧ t.smu.missed = false ∧
      (u.measuring = true → t.smu.seq = (u.seq + 1) % 2 ^ 32) ∧ (u.measuring = false → t.smu.seq = u.seq)) ∧
    ((u.measuring = false ∨ u.missed = true) → ∃ t, exec .smuPpsMissing s = .next t ∧ t.smu = { u with out := [] }) ∧
    (u.measuring = true → u.missed = false → ∃ t, exec .smuPpsMissing s = .next t ∧ t.smu.missed = true ∧ t.smu.timeBad = true ∧
      t.smu.seq = (u.seq + 1) % 2 ^ 32) ∧
    ((u.measuring = false ∨ u.waiting = []) → ∃ t, exec .smuPowerRecordDue s = .next t ∧ t.smu = { u with out := [] }) ∧
    (∀ k, k < 8192 → (u.measuring = false ∨ u.region.selected k = false) → ∃ t, exec (.smuFrameCloseTimeout k) s = .next t ∧
      t.smu = { u with out := [] }) ∧
    (∀ w rest, u.measuring = true → u.waiting = w :: rest → ∃ t, exec .smuPowerRecordDue s = .next t ∧ w.1 + w.2.1 ≤ t.smu.made ∧
      t.dev = s.dev) ∧
    (∀ k m f, k < 8192 → u.measuring = true → u.region.selected k = true → u.stream k = { u.stream k with next := some m, sums := [(m, f)] } →
      (∀ i, i < 4 → bitOf (u.region.occ.getD i 0) 63 = false) → (m + 1) % u.region.div ≠ 0 → u.waiting = [] →
      ∃ t, exec (.smuFrameCloseTimeout k) s = .next t ∧ t.smu.stream k = { u.stream k with next := some (m + 1) } ∧ t.smu.seq = u.seq) ∧
    (s.dev.tap = [] → ∀ full, exec (.smuTapFrame full) s = .next s) ∧
    (∀ f rest full, s.dev.tap = f :: rest → ∃ t, exec (.smuTapFrame full) s = .next t ∧ t.dev = { s.dev with tap := rest } ∧
      (u.measuring = false → t.smu = { u with out := [] }) ∧
      (u.measuring = true → full = true → u.region.selected (pf f.hdr 5 0 13) = false → t.smu.streams = u.streams ∧
        bitOf t.smu.events evTapDrop = true) ∧
      (u.measuring = true → full = false → u.region.selected (pf f.hdr 5 0 13) = false → t.smu.streams = u.streams ∧ t.smu.events = u.events ∧
        t.smu.refSc = if f.bad = false ∧ pf f.hdr 5 0 13 = u.region.refStream then max u.refSc ((pf f.hdr 7 0 64 + f.times - 1) % 2 ^ 64)
          else u.refSc)) ∧
    (∀ a n, u.up = true → ∃ t, exec (.smuSpiRead a n) s = .next t ∧ t.smu.sdo.length = n ∧ ∀ i, i < n →
      t.smu.sdo.getD i 0 = (toBytes 4 (u.word ((a + i) % 2 ^ 24 / 4 * 4))).getD ((a + i) % 2 ^ 24 % 4) 0) ∧
    (∀ a b, u.up = true → u.seal = 1 → 0x10 ≤ a → a + b.length ≤ 2 ^ 24 → ∃ t, exec (.smuSpiWrite a b) s = .next t ∧ t.smu.region = u.region ∧ t.smu.hash = u.hash) ∧
    (∀ w, u.up = true → ∃ t, exec (.smuSpiWrite 0x40000 (toBytes 4 w)) s = .next t ∧ t.smu.word 0x40000 = w % 2 ^ 32) ∧
    (s.link = [] → exec .smuMirrorUpdate s = .next s) ∧
    (∀ i rest, s.link = i :: rest → s.dev.up = true → exec .smuMirrorUpdate s =
      .next { s with link := rest, dev := (s.dev.mirrorUpdate u i).irqSettle }) ∧
    ∀ n a v rest, s.link = .words n [(a, v)] :: rest → s.dev.up = true → let old := Tab.get 0 s.dev.mirror a
      ∃ t, exec .smuMirrorUpdate s = .next t ∧ t.link = rest ∧ Tab.get 0 t.dev.mirror a = v ∧
        (smuStoreBase ≤ a → v ≠ old → v ≠ 0 → t.dev.is F.SMU_NOTE_RECORD = true) ∧
        (a = 0 → v / 2 ^ 26 ≠ old / 2 ^ 26 → t.dev.is F.SMU_NOTE_SEAL = true) ∧
        (a = 4 → v &&& old ≠ v → t.dev.is F.SMU_NOTE_ALERT = true)

/-- For every block, every scrambler state and every run of line bits below 40: a receive half whose run and descrambler agree
with the transmitter's run and scrambler collects exactly the header and the scrambled payload, its descrambler gives back
the payload, and run and descrambler agree again afterwards; on a lane that is locked a data block enters the elastic buffer
behind what stands there, once and unchanged. (04_sloldo_framing.md R85, 04_sloldo_framing.md R88, 04_sloldo_framing.md R90,
04_sloldo_framing.md R91, 04_sloldo_framing.md R87) -/
def Obligations.ReceiverRecoversTheBlock : Prop :=
  (∀ (x : LaneTx) (r : LaneRx) (inv ctrl : Bool) (p : Payload), x.runC < 40 → r.runV = x.runV → r.runC = x.runC → r.desc = x.scr →
    r.bits = [] → r.blkBad = false → r.viol = false →
    let y := x.drive inv ctrl p
    let r' := y.line.foldl (fun (r : LaneRx) b => (r.bit true (b ^^ inv)).1) r
    let back := descramble r'.desc (r'.bits.drop 2)
    r'.bits.take 2 = [ctrl, !ctrl] ∧ r'.bits.length = 258 ∧ back = (toBits 256 p.toNat, y.scr) ∧ r'.runV = y.runV ∧ r'.runC = y.runC ∧
      y.runC < 40 ∧ r'.blkBad = false ∧ r'.viol = false ∧ r'.buf = r.buf) ∧
  ∀ (d : Dev) (n : Nat) (x : LaneTx) (inv : Bool) (p : Payload), d.is (F.LANE_STATE_RX_LOCK n) = true →
    let r := (d.lane n).rx
    x.runC < 40 → r.runV = x.runV → r.runC = x.runC → r.desc = x.scr → r.bits = [] → r.blkBad = false → r.viol = false →
    let y := x.drive inv false p
    let e := d.rxBits n inv y.line
    (e.lane n).rx.buf = r.buf ++ [.block false p] ∧ (e.lane n).rx.bits = [] ∧ (e.lane n).rx.desc = y.scr ∧
      (e.lane n).rx.runV = y.runV ∧ (e.lane n).rx.runC = y.runC ∧ e.is (F.LANE_STATE_RX_LOCK n) = true ∧ e.regs = d.regs

/-- Wherever a lane starts training (TRAIN, the hunt time-out and a slow wake as commands, and every other place that starts
it), its transmit taps become those of the preset that LANE.TX_EQ.INIT_PRESET selects: P0 (0, 63, 0), P1 (0, 53, 10), P2 (4,
51, 8), P3 (6, 45, 12), P4 (8, 39, 16), and P0 for the values 5 to 7. (R67) -/
def Obligations.TrainingStartsAtTheSelectedPreset : Prop :=
  let taps (d : Dev) (n : Nat) : Nat × Nat × Nat := (d.get (F.LANE_TX_EQ_PRE n), d.get (F.LANE_TX_EQ_MAIN n), d.get (F.LANE_TX_EQ_POST n))
  let selected (v : Nat) : Nat × Nat × Nat :=
    if v = 1 then (0, 53, 10) else if v = 2 then (4, 51, 8) else if v = 3 then (6, 45, 12) else if v = 4 then (8, 39, 16) else (0, 63, 0)
  (∀ (d : Dev) (n : Nat), taps (d.startTraining n) n = selected (d.get (F.LANE_TX_EQ_INIT_PRESET n))) ∧
  (∀ (s : State) (n : Nat), n < 96 → upIng s → s.dev.laneRole n ≠ roleUnused →
    (s.dev.laneState n = stDisabled ∨ s.dev.laneState n = stDown) → ∃ t, exec (.laneTrain n) s = .next t ∧
      taps t.dev n = selected (s.dev.get (F.LANE_TX_EQ_INIT_PRESET n))) ∧
  (∀ (s : State) (n : Nat), n < 96 → upIng s → s.dev.laneState n = stHunt → ∃ t, exec (.huntTimeout n) s = .next t ∧
    taps t.dev n = selected (s.dev.get (F.LANE_TX_EQ_INIT_PRESET n))) ∧
  ∀ (s : State) (n : Nat), n < 96 → upIng s → s.dev.laneState n = stWake → ∃ t, exec (.wakeLockTimeout n) s = .next t ∧
    taps t.dev n = selected (s.dev.get (F.LANE_TX_EQ_INIT_PRESET n))
end

