-- ==== Sys2Proof/Laws/Tab.lean ====
section
/-! SUPPORT. The laws of sparse tables: reading after a write, and the canonical form that every operation keeps. -/
namespace Sys2Proof.Machine
variable {α : Type}

theorem Tab.get_erase_same (d : α) (t : Tab α) (k : Nat) : Tab.get d (Tab.erase t k) k = d := by
  induction t with
  | nil => rfl
  | cons e t ih =>
    obtain ⟨j, v⟩ := e
    by_cases h : k = j <;> simp [Tab.erase, Tab.get, h, ih]
    subst h; exact ih

theorem Tab.get_erase_other (d : α) (t : Tab α) (k j : Nat) (h : k ≠ j) : Tab.get d (Tab.erase t k) j = Tab.get d t j := by
  induction t with
  | nil => rfl
  | cons e t ih =>
    obtain ⟨i, v⟩ := e
    by_cases h1 : k = i
    · have h2 : j ≠ i := by omega
      simp [Tab.erase, Tab.get, h1, h2, ← ih]
    · by_cases h2 : j = i <;> simp [Tab.erase, Tab.get, h1, h2, ih]

theorem Tab.get_insert_same (d : α) (t : Tab α) (k : Nat) (v : α) :
    Tab.get d (Tab.insert (Tab.erase t k) k v) k = v := by
  induction t with
  | nil => simp [Tab.erase, Tab.insert, Tab.get]
  | cons e t ih =>
    obtain ⟨j, w⟩ := e
    by_cases h1 : k = j
    · simp only [Tab.erase, h1, if_true]; subst h1; exact ih
    · by_cases h2 : k < j <;> simp [Tab.erase, Tab.insert, Tab.get, h1, h2, ih]

theorem Tab.get_insert_other (d : α) (t : Tab α) (k j : Nat) (v : α) (h : k ≠ j) :
    Tab.get d (Tab.insert t k v) j = Tab.get d t j := by
  induction t with
  | nil => have : j ≠ k := fun e => h e.symm; simp [Tab.insert, Tab.get, this]
  | cons e t ih =>
    obtain ⟨i, w⟩ := e
    have hj : j ≠ k := fun e => h e.symm
    by_cases h2 : k < i
    · simp [Tab.insert, Tab.get, h2, hj]
    · by_cases h3 : j = i <;> simp [Tab.insert, Tab.get, h2, h3, ih]

/-- A read of the index written gives the value written. -/
@[simp] theorem Tab.get_set_same [DecidableEq α] (d : α) (t : Tab α) (k : Nat) (v : α) : Tab.get d (Tab.set d t k v) k = v := by
  unfold Tab.set
  split
  · next h => rw [Tab.get_erase_same, h]
  · exact Tab.get_insert_same d t k v

/-- A write leaves every other index alone. -/
theorem Tab.get_set_other [DecidableEq α] (d : α) (t : Tab α) (k j : Nat) (v : α) (h : k ≠ j) :
    Tab.get d (Tab.set d t k v) j = Tab.get d t j := by
  unfold Tab.set
  split
  · exact Tab.get_erase_other d t k j h
  · rw [Tab.get_insert_other d _ k j v h, Tab.get_erase_other d t k j h]

/-- Reading any index after a write. -/
theorem Tab.get_set [DecidableEq α] (d : α) (t : Tab α) (k j : Nat) (v : α) :
    Tab.get d (Tab.set d t k v) j = if k = j then v else Tab.get d t j := by
  by_cases h : k = j
  · subst h; simp
  · simp [h, Tab.get_set_other d t k j v h]

theorem Tab.rising_mono (t : Tab α) (a b : Nat) (h : a ≤ b) (r : Tab.rising b t = true) : Tab.rising a t = true := by
  cases t with
  | nil => rfl
  | cons e t =>
    obtain ⟨j, v⟩ := e
    simp only [Tab.rising, Bool.and_eq_true, decide_eq_true_eq] at *
    exact ⟨by omega, r.2⟩

theorem Tab.rising_erase (t : Tab α) (lo k : Nat) (r : Tab.rising lo t = true) : Tab.rising lo (Tab.erase t k) = true := by
  induction t generalizing lo with
  | nil => rfl
  | cons e t ih =>
    obtain ⟨j, v⟩ := e
    simp only [Tab.rising, Bool.and_eq_true, decide_eq_true_eq] at r
    by_cases h : k = j
    · simp only [Tab.erase, h, if_true]
      rw [← h]
      exact Tab.rising_mono _ _ _ (by omega) (ih (j + 1) r.2)
    · simp only [Tab.erase, h, if_false, Tab.rising, Bool.and_eq_true, decide_eq_true_eq]
      exact ⟨r.1, ih (j + 1) r.2⟩

theorem Tab.erase_all (t : Tab α) (k : Nat) (p : Nat × α → Bool) (h : t.all p = true) : (Tab.erase t k).all p = true := by
  induction t with
  | nil => rfl
  | cons e t ih =>
    obtain ⟨j, v⟩ := e
    simp only [List.all_cons, Bool.and_eq_true] at h
    by_cases hk : k = j <;> simp [Tab.erase, hk, h.1]
    · rw [← hk]; simpa using ih h.2
    · simpa using ih h.2

theorem Tab.mem_erase_ne (t : Tab α) (k : Nat) : (Tab.erase t k).all (fun e => decide (e.1 ≠ k)) = true := by
  induction t with
  | nil => rfl
  | cons e t ih =>
    obtain ⟨j, v⟩ := e
    by_cases h : k = j
    · simp only [Tab.erase, h, if_true]; rw [← h]; exact ih
    · have : j ≠ k := fun e => h e.symm
      simpa [Tab.erase, h, this] using ih

theorem Tab.rising_insert (t : Tab α) (lo k : Nat) (v : α) (hlo : lo ≤ k) (hne : t.all (fun e => decide (e.1 ≠ k)) = true)
    (r : Tab.rising lo t = true) : Tab.rising lo (Tab.insert t k v) = true := by
  induction t generalizing lo with
  | nil => simp [Tab.insert, Tab.rising, hlo]
  | cons e t ih =>
    obtain ⟨j, w⟩ := e
    simp only [List.all_cons, Bool.and_eq_true, decide_eq_true_eq] at hne
    simp only [Tab.rising, Bool.and_eq_true, decide_eq_true_eq] at r
    by_cases h : k < j
    · simp only [Tab.insert, h, if_true, Tab.rising, Bool.and_eq_true, decide_eq_true_eq]
      exact ⟨hlo, by omega, r.2⟩
    · simp only [Tab.insert, h, if_false, Tab.rising, Bool.and_eq_true, decide_eq_true_eq]
      have hj : j ≠ k := hne.1
      exact ⟨r.1, ih (j + 1) (by omega) hne.2 r.2⟩

theorem Tab.insert_all (t : Tab α) (k : Nat) (v : α) (p : Nat × α → Bool) (h : t.all p = true) (hv : p (k, v) = true) :
    (Tab.insert t k v).all p = true := by
  induction t with
  | nil => simp [Tab.insert, hv]
  | cons e t ih =>
    obtain ⟨j, w⟩ := e
    simp only [List.all_cons, Bool.and_eq_true] at h
    by_cases hk : k < j
    · simp only [Tab.insert, hk, if_true, List.all_cons, Bool.and_eq_true]; exact ⟨hv, h.1, h.2⟩
    · simp only [Tab.insert, hk, if_false, List.all_cons, Bool.and_eq_true]; exact ⟨h.1, ih h.2⟩

/-- A write keeps the canonical form. -/
theorem Tab.set_wf [DecidableEq α] (d : α) (t : Tab α) (k : Nat) (v : α) (h : Tab.wf d t = true) : Tab.wf d (Tab.set d t k v) = true := by
  simp only [Tab.wf, Bool.and_eq_true] at *
  unfold Tab.set
  split
  · exact ⟨Tab.rising_erase t 0 k h.1, Tab.erase_all t k _ h.2⟩
  · next hv =>
    exact ⟨Tab.rising_insert _ 0 k v (Nat.zero_le k) (Tab.mem_erase_ne t k) (Tab.rising_erase t 0 k h.1),
      Tab.insert_all _ k v _ (Tab.erase_all t k _ h.2) (by simpa using hv)⟩

/-- A change at one index keeps the canonical form. -/
theorem Tab.upd_wf [DecidableEq α] (d : α) (t : Tab α) (k : Nat) (f : α → α) (h : Tab.wf d t = true) : Tab.wf d (Tab.upd d t k f) = true :=
  Tab.set_wf d t k _ h

theorem Tab.rising_filter (t : Tab α) (lo : Nat) (p : Nat × α → Bool) (r : Tab.rising lo t = true) : Tab.rising lo (t.filter p) = true := by
  induction t generalizing lo with
  | nil => rfl
  | cons e t ih =>
    obtain ⟨j, v⟩ := e
    simp only [Tab.rising, Bool.and_eq_true, decide_eq_true_eq] at r
    simp only [List.filter_cons]
    split
    · simp only [Tab.rising, Bool.and_eq_true, decide_eq_true_eq]; exact ⟨r.1, ih (j + 1) r.2⟩
    · exact Tab.rising_mono _ _ _ (by omega) (ih (j + 1) r.2)

/-- Removing entries keeps the canonical form. -/
theorem Tab.filter_wf [DecidableEq α] (d : α) (t : Tab α) (p : Nat × α → Bool) (h : Tab.wf d t = true) : Tab.wf d (t.filter p) = true := by
  simp only [Tab.wf, Bool.and_eq_true] at *
  refine ⟨Tab.rising_filter t 0 p h.1, ?_⟩
  rw [List.all_eq_true] at *
  intro x hx
  exact h.2 x (List.mem_filter.mp hx).1

end Sys2Proof.Machine
end

