-- ==== Sys2Proof/Laws/State.lean ====
section
/-! SUPPORT. One lemma per field per update of the device and the machine, and the laws of registers and their fields. -/
namespace Sys2Proof.Machine

/-! ### Registers -/

/-- A register reads the value stored in it. -/
@[simp] theorem Dev.rdReg_wrReg_same (d : Dev) (r : Reg) (v : Word) : (d.wrReg r v).rdReg r = v := by
  simp only [Dev.rdReg, Dev.wrReg, Tab.get_set_same, BitVec.xor_assoc, BitVec.xor_self, BitVec.xor_zero]

/-- A register stored leaves every register of another address. -/
theorem Dev.rdReg_wrReg_other (d : Dev) (r q : Reg) (v : Word) (h : r.addr ≠ q.addr) : (d.wrReg r v).rdReg q = d.rdReg q := by
  simp [Dev.rdReg, Dev.wrReg, Tab.get_set_other, h]

/-- A field put leaves every register of another address. -/
theorem Dev.rdReg_put_other (d : Dev) (f : RF) (v : Nat) (q : Reg) (h : f.reg.addr ≠ q.addr) : (d.put f v).rdReg q = d.rdReg q :=
  d.rdReg_wrReg_other _ _ _ h

/-- A field put leaves every field of a register of another address. -/
theorem Dev.get_put_other (d : Dev) (f g : RF) (v : Nat) (h : f.reg.addr ≠ g.reg.addr) : (d.put f v).get g = d.get g := by
  simp [Dev.get, d.rdReg_put_other f v g.reg h]

theorem fieldMask_testBit (hi lo i : Nat) (h : i < 64) : (fieldMask hi lo).getLsbD i = (decide (lo ≤ i) && decide (i < hi + 1)) := by
  simp only [fieldMask, BitVec.getLsbD_ofNat, h, decide_true, Bool.true_and]
  rw [Nat.mul_comm, Nat.testBit_two_pow_mul]
  by_cases h1 : lo ≤ i
  · simp only [ge_iff_le, h1, decide_true, Bool.true_and]
    rw [Nat.testBit_two_pow_sub_one]
    congr 1
    simp only [eq_iff_iff]
    omega
  · simp [h1]

/-- Bit i of a word with a field replaced. -/
theorem insertField_bit (w : Word) (hi lo v i : Nat) (h : i < 64) :
    (insertField w hi lo v).getLsbD i = if lo ≤ i ∧ i ≤ hi then v.testBit (i - lo) else w.getLsbD i := by
  simp only [insertField, BitVec.getLsbD_or, BitVec.getLsbD_and, BitVec.getLsbD_not, h, decide_true, Bool.true_and,
    fieldMask_testBit, BitVec.getLsbD_ofNat]
  rw [Nat.mul_comm, Nat.testBit_two_pow_mul]
  by_cases h1 : lo ≤ i
  · by_cases h2 : i ≤ hi
    · have : i < hi + 1 := by omega
      simp [h1, h2, this]
    · have : ¬ i < hi + 1 := by omega
      simp [h1, h2, this]
  · simp [h1]

theorem bitsOf_testBit (v hi lo i : Nat) : (bitsOf v hi lo).testBit i = (decide (i < hi + 1 - lo) && v.testBit (lo + i)) := by
  simp [bitsOf, Nat.testBit_mod_two_pow, Nat.testBit_shiftRight]

/-- A field inside its register reads the value put in it, modulo its width. -/
theorem Dev.get_put_same (d : Dev) (f : RF) (v : Nat) (h : f.hi < 64) : (d.put f v).get f = v % 2 ^ (f.hi + 1 - f.lo) := by
  simp only [Dev.get, Dev.put, Dev.rdReg_wrReg_same]
  apply Nat.eq_of_testBit_eq
  intro i
  rw [bitsOf_testBit, Nat.testBit_mod_two_pow]
  by_cases hi : i < f.hi + 1 - f.lo
  · have hb : f.lo + i < 64 := by omega
    have e : (insertField (d.rdReg f.reg) f.hi f.lo v).toNat.testBit (f.lo + i) =
        (insertField (d.rdReg f.reg) f.hi f.lo v).getLsbD (f.lo + i) := rfl
    rw [e, insertField_bit _ _ _ _ _ hb]
    have h1 : f.lo ≤ f.lo + i ∧ f.lo + i ≤ f.hi := by omega
    simp [hi, h1]
  · simp [hi]

/-- A field put leaves every other field of its register that it does not overlap. -/
theorem Dev.get_put_apart (d : Dev) (f g : RF) (v : Nat) (e : f.reg = g.reg) (hg : g.hi < 64) (h : f.hi < g.lo ∨ g.hi < f.lo) :
    (d.put f v).get g = d.get g := by
  simp only [Dev.get, Dev.put, ← e, Dev.rdReg_wrReg_same]
  apply Nat.eq_of_testBit_eq
  intro i
  rw [bitsOf_testBit, bitsOf_testBit]
  by_cases hi : i < g.hi + 1 - g.lo
  · have hb : g.lo + i < 64 := by omega
    have e1 : (insertField (d.rdReg f.reg) f.hi f.lo v).toNat.testBit (g.lo + i) =
        (insertField (d.rdReg f.reg) f.hi f.lo v).getLsbD (g.lo + i) := rfl
    rw [e1, insertField_bit _ _ _ _ _ hb]
    have h1 : ¬ (f.lo ≤ g.lo + i ∧ g.lo + i ≤ f.hi) := by omega
    simp [h1]
    rfl
  · simp [hi]

/-! ### Fields: what a register update or the settling of interrupts leaves alone -/

@[simp] theorem Dev.wrReg_mem (d : Dev) (r : Reg) (v : Word) : (d.wrReg r v).mem = d.mem := rfl
@[simp] theorem Dev.wrReg_ueBeats (d : Dev) (r : Reg) (v : Word) : (d.wrReg r v).ueBeats = d.ueBeats := rfl
@[simp] theorem Dev.wrReg_insoleBad (d : Dev) (r : Reg) (v : Word) : (d.wrReg r v).insoleBad = d.insoleBad := rfl
@[simp] theorem Dev.wrReg_chk (d : Dev) (r : Reg) (v : Word) : (d.wrReg r v).chk = d.chk := rfl
@[simp] theorem Dev.wrReg_fuses (d : Dev) (r : Reg) (v : Word) : (d.wrReg r v).fuses = d.fuses := rfl
@[simp] theorem Dev.wrReg_burning (d : Dev) (r : Reg) (v : Word) : (d.wrReg r v).burning = d.burning := rfl
@[simp] theorem Dev.wrReg_sd (d : Dev) (r : Reg) (v : Word) : (d.wrReg r v).sd = d.sd := rfl
@[simp] theorem Dev.wrReg_up (d : Dev) (r : Reg) (v : Word) : (d.wrReg r v).up = d.up := rfl
@[simp] theorem Dev.wrReg_ticks (d : Dev) (r : Reg) (v : Word) : (d.wrReg r v).ticks = d.ticks := rfl
@[simp] theorem Dev.wrReg_free (d : Dev) (r : Reg) (v : Word) : (d.wrReg r v).free = d.free := rfl
@[simp] theorem Dev.wrReg_time (d : Dev) (r : Reg) (v : Word) : (d.wrReg r v).time = d.time := rfl
@[simp] theorem Dev.wrReg_viewIng (d : Dev) (r : Reg) (v : Word) : (d.wrReg r v).viewIng = d.viewIng := rfl
@[simp] theorem Dev.wrReg_viewEgr (d : Dev) (r : Reg) (v : Word) : (d.wrReg r v).viewEgr = d.viewEgr := rfl
@[simp] theorem Dev.wrReg_viewMem (d : Dev) (r : Reg) (v : Word) : (d.wrReg r v).viewMem = d.viewMem := rfl
@[simp] theorem Dev.wrReg_viewSoc (d : Dev) (r : Reg) (v : Word) : (d.wrReg r v).viewSoc = d.viewSoc := rfl
@[simp] theorem Dev.wrReg_lanes (d : Dev) (r : Reg) (v : Word) : (d.wrReg r v).lanes = d.lanes := rfl
@[simp] theorem Dev.wrReg_ing (d : Dev) (r : Reg) (v : Word) : (d.wrReg r v).ing = d.ing := rfl
@[simp] theorem Dev.wrReg_ptp (d : Dev) (r : Reg) (v : Word) : (d.wrReg r v).ptp = d.ptp := rfl
@[simp] theorem Dev.wrReg_tap (d : Dev) (r : Reg) (v : Word) : (d.wrReg r v).tap = d.tap := rfl
@[simp] theorem Dev.wrReg_relay (d : Dev) (r : Reg) (v : Word) : (d.wrReg r v).relay = d.relay := rfl
@[simp] theorem Dev.wrReg_pat (d : Dev) (r : Reg) (v : Word) : (d.wrReg r v).pat = d.pat := rfl
@[simp] theorem Dev.wrReg_isls (d : Dev) (r : Reg) (v : Word) : (d.wrReg r v).isls = d.isls := rfl
@[simp] theorem Dev.wrReg_panels (d : Dev) (r : Reg) (v : Word) : (d.wrReg r v).panels = d.panels := rfl
@[simp] theorem Dev.wrReg_awl (d : Dev) (r : Reg) (v : Word) : (d.wrReg r v).awl = d.awl := rfl
@[simp] theorem Dev.wrReg_posts (d : Dev) (r : Reg) (v : Word) : (d.wrReg r v).posts = d.posts := rfl
@[simp] theorem Dev.wrReg_spill (d : Dev) (r : Reg) (v : Word) : (d.wrReg r v).spill = d.spill := rfl
@[simp] theorem Dev.wrReg_trigs (d : Dev) (r : Reg) (v : Word) : (d.wrReg r v).trigs = d.trigs := rfl
@[simp] theorem Dev.wrReg_cap (d : Dev) (r : Reg) (v : Word) : (d.wrReg r v).cap = d.cap := rfl
@[simp] theorem Dev.wrReg_mon (d : Dev) (r : Reg) (v : Word) : (d.wrReg r v).mon = d.mon := rfl
@[simp] theorem Dev.wrReg_monIn (d : Dev) (r : Reg) (v : Word) : (d.wrReg r v).monIn = d.monIn := rfl
@[simp] theorem Dev.wrReg_hk (d : Dev) (r : Reg) (v : Word) : (d.wrReg r v).hk = d.hk := rfl
@[simp] theorem Dev.wrReg_egr (d : Dev) (r : Reg) (v : Word) : (d.wrReg r v).egr = d.egr := rfl
@[simp] theorem Dev.wrReg_fo (d : Dev) (r : Reg) (v : Word) : (d.wrReg r v).fo = d.fo := rfl
@[simp] theorem Dev.wrReg_evr (d : Dev) (r : Reg) (v : Word) : (d.wrReg r v).evr = d.evr := rfl
@[simp] theorem Dev.wrReg_seenTrig (d : Dev) (r : Reg) (v : Word) : (d.wrReg r v).seenTrig = d.seenTrig := rfl
@[simp] theorem Dev.wrReg_tim (d : Dev) (r : Reg) (v : Word) : (d.wrReg r v).tim = d.tim := rfl
@[simp] theorem Dev.wrReg_intc (d : Dev) (r : Reg) (v : Word) : (d.wrReg r v).intc = d.intc := rfl
@[simp] theorem Dev.wrReg_harts (d : Dev) (r : Reg) (v : Word) : (d.wrReg r v).harts = d.harts := rfl
@[simp] theorem Dev.wrReg_l2 (d : Dev) (r : Reg) (v : Word) : (d.wrReg r v).l2 = d.l2 := rfl
@[simp] theorem Dev.wrReg_mgmt (d : Dev) (r : Reg) (v : Word) : (d.wrReg r v).mgmt = d.mgmt := rfl
@[simp] theorem Dev.wrReg_welt (d : Dev) (r : Reg) (v : Word) : (d.wrReg r v).welt = d.welt := rfl
@[simp] theorem Dev.wrReg_dma (d : Dev) (r : Reg) (v : Word) : (d.wrReg r v).dma = d.dma := rfl
@[simp] theorem Dev.wrReg_pcie (d : Dev) (r : Reg) (v : Word) : (d.wrReg r v).pcie = d.pcie := rfl
@[simp] theorem Dev.wrReg_answer (d : Dev) (r : Reg) (v : Word) : (d.wrReg r v).answer = d.answer := rfl
@[simp] theorem Dev.wrReg_bootFail (d : Dev) (r : Reg) (v : Word) : (d.wrReg r v).bootFail = d.bootFail := rfl
@[simp] theorem Dev.wrReg_thermTrip (d : Dev) (r : Reg) (v : Word) : (d.wrReg r v).thermTrip = d.thermTrip := rfl
@[simp] theorem Dev.wrReg_jtag (d : Dev) (r : Reg) (v : Word) : (d.wrReg r v).jtag = d.jtag := rfl
@[simp] theorem Dev.wrReg_mirror (d : Dev) (r : Reg) (v : Word) : (d.wrReg r v).mirror = d.mirror := rfl

@[simp] theorem Dev.put_mem (d : Dev) (f : RF) (v : Nat) : (d.put f v).mem = d.mem := rfl
@[simp] theorem Dev.put_ueBeats (d : Dev) (f : RF) (v : Nat) : (d.put f v).ueBeats = d.ueBeats := rfl
@[simp] theorem Dev.put_insoleBad (d : Dev) (f : RF) (v : Nat) : (d.put f v).insoleBad = d.insoleBad := rfl
@[simp] theorem Dev.put_chk (d : Dev) (f : RF) (v : Nat) : (d.put f v).chk = d.chk := rfl
@[simp] theorem Dev.put_fuses (d : Dev) (f : RF) (v : Nat) : (d.put f v).fuses = d.fuses := rfl
@[simp] theorem Dev.put_burning (d : Dev) (f : RF) (v : Nat) : (d.put f v).burning = d.burning := rfl
@[simp] theorem Dev.put_sd (d : Dev) (f : RF) (v : Nat) : (d.put f v).sd = d.sd := rfl
@[simp] theorem Dev.put_up (d : Dev) (f : RF) (v : Nat) : (d.put f v).up = d.up := rfl
@[simp] theorem Dev.put_ticks (d : Dev) (f : RF) (v : Nat) : (d.put f v).ticks = d.ticks := rfl
@[simp] theorem Dev.put_free (d : Dev) (f : RF) (v : Nat) : (d.put f v).free = d.free := rfl
@[simp] theorem Dev.put_time (d : Dev) (f : RF) (v : Nat) : (d.put f v).time = d.time := rfl
@[simp] theorem Dev.put_viewIng (d : Dev) (f : RF) (v : Nat) : (d.put f v).viewIng = d.viewIng := rfl
@[simp] theorem Dev.put_viewEgr (d : Dev) (f : RF) (v : Nat) : (d.put f v).viewEgr = d.viewEgr := rfl
@[simp] theorem Dev.put_viewMem (d : Dev) (f : RF) (v : Nat) : (d.put f v).viewMem = d.viewMem := rfl
@[simp] theorem Dev.put_viewSoc (d : Dev) (f : RF) (v : Nat) : (d.put f v).viewSoc = d.viewSoc := rfl
@[simp] theorem Dev.put_lanes (d : Dev) (f : RF) (v : Nat) : (d.put f v).lanes = d.lanes := rfl
@[simp] theorem Dev.put_ing (d : Dev) (f : RF) (v : Nat) : (d.put f v).ing = d.ing := rfl
@[simp] theorem Dev.put_ptp (d : Dev) (f : RF) (v : Nat) : (d.put f v).ptp = d.ptp := rfl
@[simp] theorem Dev.put_tap (d : Dev) (f : RF) (v : Nat) : (d.put f v).tap = d.tap := rfl
@[simp] theorem Dev.put_relay (d : Dev) (f : RF) (v : Nat) : (d.put f v).relay = d.relay := rfl
@[simp] theorem Dev.put_pat (d : Dev) (f : RF) (v : Nat) : (d.put f v).pat = d.pat := rfl
@[simp] theorem Dev.put_isls (d : Dev) (f : RF) (v : Nat) : (d.put f v).isls = d.isls := rfl
@[simp] theorem Dev.put_panels (d : Dev) (f : RF) (v : Nat) : (d.put f v).panels = d.panels := rfl
@[simp] theorem Dev.put_awl (d : Dev) (f : RF) (v : Nat) : (d.put f v).awl = d.awl := rfl
@[simp] theorem Dev.put_posts (d : Dev) (f : RF) (v : Nat) : (d.put f v).posts = d.posts := rfl
@[simp] theorem Dev.put_spill (d : Dev) (f : RF) (v : Nat) : (d.put f v).spill = d.spill := rfl
@[simp] theorem Dev.put_trigs (d : Dev) (f : RF) (v : Nat) : (d.put f v).trigs = d.trigs := rfl
@[simp] theorem Dev.put_cap (d : Dev) (f : RF) (v : Nat) : (d.put f v).cap = d.cap := rfl
@[simp] theorem Dev.put_mon (d : Dev) (f : RF) (v : Nat) : (d.put f v).mon = d.mon := rfl
@[simp] theorem Dev.put_monIn (d : Dev) (f : RF) (v : Nat) : (d.put f v).monIn = d.monIn := rfl
@[simp] theorem Dev.put_hk (d : Dev) (f : RF) (v : Nat) : (d.put f v).hk = d.hk := rfl
@[simp] theorem Dev.put_egr (d : Dev) (f : RF) (v : Nat) : (d.put f v).egr = d.egr := rfl
@[simp] theorem Dev.put_fo (d : Dev) (f : RF) (v : Nat) : (d.put f v).fo = d.fo := rfl
@[simp] theorem Dev.put_evr (d : Dev) (f : RF) (v : Nat) : (d.put f v).evr = d.evr := rfl
@[simp] theorem Dev.put_seenTrig (d : Dev) (f : RF) (v : Nat) : (d.put f v).seenTrig = d.seenTrig := rfl
@[simp] theorem Dev.put_tim (d : Dev) (f : RF) (v : Nat) : (d.put f v).tim = d.tim := rfl
@[simp] theorem Dev.put_intc (d : Dev) (f : RF) (v : Nat) : (d.put f v).intc = d.intc := rfl
@[simp] theorem Dev.put_harts (d : Dev) (f : RF) (v : Nat) : (d.put f v).harts = d.harts := rfl
@[simp] theorem Dev.put_l2 (d : Dev) (f : RF) (v : Nat) : (d.put f v).l2 = d.l2 := rfl
@[simp] theorem Dev.put_mgmt (d : Dev) (f : RF) (v : Nat) : (d.put f v).mgmt = d.mgmt := rfl
@[simp] theorem Dev.put_welt (d : Dev) (f : RF) (v : Nat) : (d.put f v).welt = d.welt := rfl
@[simp] theorem Dev.put_dma (d : Dev) (f : RF) (v : Nat) : (d.put f v).dma = d.dma := rfl
@[simp] theorem Dev.put_pcie (d : Dev) (f : RF) (v : Nat) : (d.put f v).pcie = d.pcie := rfl
@[simp] theorem Dev.put_answer (d : Dev) (f : RF) (v : Nat) : (d.put f v).answer = d.answer := rfl
@[simp] theorem Dev.put_bootFail (d : Dev) (f : RF) (v : Nat) : (d.put f v).bootFail = d.bootFail := rfl
@[simp] theorem Dev.put_thermTrip (d : Dev) (f : RF) (v : Nat) : (d.put f v).thermTrip = d.thermTrip := rfl
@[simp] theorem Dev.put_jtag (d : Dev) (f : RF) (v : Nat) : (d.put f v).jtag = d.jtag := rfl
@[simp] theorem Dev.put_mirror (d : Dev) (f : RF) (v : Nat) : (d.put f v).mirror = d.mirror := rfl

@[simp] theorem Dev.flag_mem (d : Dev) (f : RF) : (d.flag f).mem = d.mem := rfl
@[simp] theorem Dev.flag_ueBeats (d : Dev) (f : RF) : (d.flag f).ueBeats = d.ueBeats := rfl
@[simp] theorem Dev.flag_insoleBad (d : Dev) (f : RF) : (d.flag f).insoleBad = d.insoleBad := rfl
@[simp] theorem Dev.flag_chk (d : Dev) (f : RF) : (d.flag f).chk = d.chk := rfl
@[simp] theorem Dev.flag_fuses (d : Dev) (f : RF) : (d.flag f).fuses = d.fuses := rfl
@[simp] theorem Dev.flag_burning (d : Dev) (f : RF) : (d.flag f).burning = d.burning := rfl
@[simp] theorem Dev.flag_sd (d : Dev) (f : RF) : (d.flag f).sd = d.sd := rfl
@[simp] theorem Dev.flag_up (d : Dev) (f : RF) : (d.flag f).up = d.up := rfl
@[simp] theorem Dev.flag_ticks (d : Dev) (f : RF) : (d.flag f).ticks = d.ticks := rfl
@[simp] theorem Dev.flag_free (d : Dev) (f : RF) : (d.flag f).free = d.free := rfl
@[simp] theorem Dev.flag_time (d : Dev) (f : RF) : (d.flag f).time = d.time := rfl
@[simp] theorem Dev.flag_viewIng (d : Dev) (f : RF) : (d.flag f).viewIng = d.viewIng := rfl
@[simp] theorem Dev.flag_viewEgr (d : Dev) (f : RF) : (d.flag f).viewEgr = d.viewEgr := rfl
@[simp] theorem Dev.flag_viewMem (d : Dev) (f : RF) : (d.flag f).viewMem = d.viewMem := rfl
@[simp] theorem Dev.flag_viewSoc (d : Dev) (f : RF) : (d.flag f).viewSoc = d.viewSoc := rfl
@[simp] theorem Dev.flag_lanes (d : Dev) (f : RF) : (d.flag f).lanes = d.lanes := rfl
@[simp] theorem Dev.flag_ing (d : Dev) (f : RF) : (d.flag f).ing = d.ing := rfl
@[simp] theorem Dev.flag_ptp (d : Dev) (f : RF) : (d.flag f).ptp = d.ptp := rfl
@[simp] theorem Dev.flag_tap (d : Dev) (f : RF) : (d.flag f).tap = d.tap := rfl
@[simp] theorem Dev.flag_relay (d : Dev) (f : RF) : (d.flag f).relay = d.relay := rfl
@[simp] theorem Dev.flag_pat (d : Dev) (f : RF) : (d.flag f).pat = d.pat := rfl
@[simp] theorem Dev.flag_isls (d : Dev) (f : RF) : (d.flag f).isls = d.isls := rfl
@[simp] theorem Dev.flag_panels (d : Dev) (f : RF) : (d.flag f).panels = d.panels := rfl
@[simp] theorem Dev.flag_awl (d : Dev) (f : RF) : (d.flag f).awl = d.awl := rfl
@[simp] theorem Dev.flag_posts (d : Dev) (f : RF) : (d.flag f).posts = d.posts := rfl
@[simp] theorem Dev.flag_spill (d : Dev) (f : RF) : (d.flag f).spill = d.spill := rfl
@[simp] theorem Dev.flag_trigs (d : Dev) (f : RF) : (d.flag f).trigs = d.trigs := rfl
@[simp] theorem Dev.flag_cap (d : Dev) (f : RF) : (d.flag f).cap = d.cap := rfl
@[simp] theorem Dev.flag_mon (d : Dev) (f : RF) : (d.flag f).mon = d.mon := rfl
@[simp] theorem Dev.flag_monIn (d : Dev) (f : RF) : (d.flag f).monIn = d.monIn := rfl
@[simp] theorem Dev.flag_hk (d : Dev) (f : RF) : (d.flag f).hk = d.hk := rfl
@[simp] theorem Dev.flag_egr (d : Dev) (f : RF) : (d.flag f).egr = d.egr := rfl
@[simp] theorem Dev.flag_fo (d : Dev) (f : RF) : (d.flag f).fo = d.fo := rfl
@[simp] theorem Dev.flag_evr (d : Dev) (f : RF) : (d.flag f).evr = d.evr := rfl
@[simp] theorem Dev.flag_seenTrig (d : Dev) (f : RF) : (d.flag f).seenTrig = d.seenTrig := rfl
@[simp] theorem Dev.flag_tim (d : Dev) (f : RF) : (d.flag f).tim = d.tim := rfl
@[simp] theorem Dev.flag_intc (d : Dev) (f : RF) : (d.flag f).intc = d.intc := rfl
@[simp] theorem Dev.flag_harts (d : Dev) (f : RF) : (d.flag f).harts = d.harts := rfl
@[simp] theorem Dev.flag_l2 (d : Dev) (f : RF) : (d.flag f).l2 = d.l2 := rfl
@[simp] theorem Dev.flag_mgmt (d : Dev) (f : RF) : (d.flag f).mgmt = d.mgmt := rfl
@[simp] theorem Dev.flag_welt (d : Dev) (f : RF) : (d.flag f).welt = d.welt := rfl
@[simp] theorem Dev.flag_dma (d : Dev) (f : RF) : (d.flag f).dma = d.dma := rfl
@[simp] theorem Dev.flag_pcie (d : Dev) (f : RF) : (d.flag f).pcie = d.pcie := rfl
@[simp] theorem Dev.flag_answer (d : Dev) (f : RF) : (d.flag f).answer = d.answer := rfl
@[simp] theorem Dev.flag_bootFail (d : Dev) (f : RF) : (d.flag f).bootFail = d.bootFail := rfl
@[simp] theorem Dev.flag_thermTrip (d : Dev) (f : RF) : (d.flag f).thermTrip = d.thermTrip := rfl
@[simp] theorem Dev.flag_jtag (d : Dev) (f : RF) : (d.flag f).jtag = d.jtag := rfl
@[simp] theorem Dev.flag_mirror (d : Dev) (f : RF) : (d.flag f).mirror = d.mirror := rfl

@[simp] theorem Dev.bump_mem (d : Dev) (f : RF) (v : Nat) : (d.bump f v).mem = d.mem := rfl
@[simp] theorem Dev.bump_ueBeats (d : Dev) (f : RF) (v : Nat) : (d.bump f v).ueBeats = d.ueBeats := rfl
@[simp] theorem Dev.bump_insoleBad (d : Dev) (f : RF) (v : Nat) : (d.bump f v).insoleBad = d.insoleBad := rfl
@[simp] theorem Dev.bump_chk (d : Dev) (f : RF) (v : Nat) : (d.bump f v).chk = d.chk := rfl
@[simp] theorem Dev.bump_fuses (d : Dev) (f : RF) (v : Nat) : (d.bump f v).fuses = d.fuses := rfl
@[simp] theorem Dev.bump_burning (d : Dev) (f : RF) (v : Nat) : (d.bump f v).burning = d.burning := rfl
@[simp] theorem Dev.bump_sd (d : Dev) (f : RF) (v : Nat) : (d.bump f v).sd = d.sd := rfl
@[simp] theorem Dev.bump_up (d : Dev) (f : RF) (v : Nat) : (d.bump f v).up = d.up := rfl
@[simp] theorem Dev.bump_ticks (d : Dev) (f : RF) (v : Nat) : (d.bump f v).ticks = d.ticks := rfl
@[simp] theorem Dev.bump_free (d : Dev) (f : RF) (v : Nat) : (d.bump f v).free = d.free := rfl
@[simp] theorem Dev.bump_time (d : Dev) (f : RF) (v : Nat) : (d.bump f v).time = d.time := rfl
@[simp] theorem Dev.bump_viewIng (d : Dev) (f : RF) (v : Nat) : (d.bump f v).viewIng = d.viewIng := rfl
@[simp] theorem Dev.bump_viewEgr (d : Dev) (f : RF) (v : Nat) : (d.bump f v).viewEgr = d.viewEgr := rfl
@[simp] theorem Dev.bump_viewMem (d : Dev) (f : RF) (v : Nat) : (d.bump f v).viewMem = d.viewMem := rfl
@[simp] theorem Dev.bump_viewSoc (d : Dev) (f : RF) (v : Nat) : (d.bump f v).viewSoc = d.viewSoc := rfl
@[simp] theorem Dev.bump_lanes (d : Dev) (f : RF) (v : Nat) : (d.bump f v).lanes = d.lanes := rfl
@[simp] theorem Dev.bump_ing (d : Dev) (f : RF) (v : Nat) : (d.bump f v).ing = d.ing := rfl
@[simp] theorem Dev.bump_ptp (d : Dev) (f : RF) (v : Nat) : (d.bump f v).ptp = d.ptp := rfl
@[simp] theorem Dev.bump_tap (d : Dev) (f : RF) (v : Nat) : (d.bump f v).tap = d.tap := rfl
@[simp] theorem Dev.bump_relay (d : Dev) (f : RF) (v : Nat) : (d.bump f v).relay = d.relay := rfl
@[simp] theorem Dev.bump_pat (d : Dev) (f : RF) (v : Nat) : (d.bump f v).pat = d.pat := rfl
@[simp] theorem Dev.bump_isls (d : Dev) (f : RF) (v : Nat) : (d.bump f v).isls = d.isls := rfl
@[simp] theorem Dev.bump_panels (d : Dev) (f : RF) (v : Nat) : (d.bump f v).panels = d.panels := rfl
@[simp] theorem Dev.bump_awl (d : Dev) (f : RF) (v : Nat) : (d.bump f v).awl = d.awl := rfl
@[simp] theorem Dev.bump_posts (d : Dev) (f : RF) (v : Nat) : (d.bump f v).posts = d.posts := rfl
@[simp] theorem Dev.bump_spill (d : Dev) (f : RF) (v : Nat) : (d.bump f v).spill = d.spill := rfl
@[simp] theorem Dev.bump_trigs (d : Dev) (f : RF) (v : Nat) : (d.bump f v).trigs = d.trigs := rfl
@[simp] theorem Dev.bump_cap (d : Dev) (f : RF) (v : Nat) : (d.bump f v).cap = d.cap := rfl
@[simp] theorem Dev.bump_mon (d : Dev) (f : RF) (v : Nat) : (d.bump f v).mon = d.mon := rfl
@[simp] theorem Dev.bump_monIn (d : Dev) (f : RF) (v : Nat) : (d.bump f v).monIn = d.monIn := rfl
@[simp] theorem Dev.bump_hk (d : Dev) (f : RF) (v : Nat) : (d.bump f v).hk = d.hk := rfl
@[simp] theorem Dev.bump_egr (d : Dev) (f : RF) (v : Nat) : (d.bump f v).egr = d.egr := rfl
@[simp] theorem Dev.bump_fo (d : Dev) (f : RF) (v : Nat) : (d.bump f v).fo = d.fo := rfl
@[simp] theorem Dev.bump_evr (d : Dev) (f : RF) (v : Nat) : (d.bump f v).evr = d.evr := rfl
@[simp] theorem Dev.bump_seenTrig (d : Dev) (f : RF) (v : Nat) : (d.bump f v).seenTrig = d.seenTrig := rfl
@[simp] theorem Dev.bump_tim (d : Dev) (f : RF) (v : Nat) : (d.bump f v).tim = d.tim := rfl
@[simp] theorem Dev.bump_intc (d : Dev) (f : RF) (v : Nat) : (d.bump f v).intc = d.intc := rfl
@[simp] theorem Dev.bump_harts (d : Dev) (f : RF) (v : Nat) : (d.bump f v).harts = d.harts := rfl
@[simp] theorem Dev.bump_l2 (d : Dev) (f : RF) (v : Nat) : (d.bump f v).l2 = d.l2 := rfl
@[simp] theorem Dev.bump_mgmt (d : Dev) (f : RF) (v : Nat) : (d.bump f v).mgmt = d.mgmt := rfl
@[simp] theorem Dev.bump_welt (d : Dev) (f : RF) (v : Nat) : (d.bump f v).welt = d.welt := rfl
@[simp] theorem Dev.bump_dma (d : Dev) (f : RF) (v : Nat) : (d.bump f v).dma = d.dma := rfl
@[simp] theorem Dev.bump_pcie (d : Dev) (f : RF) (v : Nat) : (d.bump f v).pcie = d.pcie := rfl
@[simp] theorem Dev.bump_answer (d : Dev) (f : RF) (v : Nat) : (d.bump f v).answer = d.answer := rfl
@[simp] theorem Dev.bump_bootFail (d : Dev) (f : RF) (v : Nat) : (d.bump f v).bootFail = d.bootFail := rfl
@[simp] theorem Dev.bump_thermTrip (d : Dev) (f : RF) (v : Nat) : (d.bump f v).thermTrip = d.thermTrip := rfl
@[simp] theorem Dev.bump_jtag (d : Dev) (f : RF) (v : Nat) : (d.bump f v).jtag = d.jtag := rfl
@[simp] theorem Dev.bump_mirror (d : Dev) (f : RF) (v : Nat) : (d.bump f v).mirror = d.mirror := rfl

@[simp] theorem Dev.irqSettle_regs (d : Dev) : (d.irqSettle).regs = d.regs := rfl
@[simp] theorem Dev.irqSettle_mem (d : Dev) : (d.irqSettle).mem = d.mem := rfl
@[simp] theorem Dev.irqSettle_ueBeats (d : Dev) : (d.irqSettle).ueBeats = d.ueBeats := rfl
@[simp] theorem Dev.irqSettle_insoleBad (d : Dev) : (d.irqSettle).insoleBad = d.insoleBad := rfl
@[simp] theorem Dev.irqSettle_chk (d : Dev) : (d.irqSettle).chk = d.chk := rfl
@[simp] theorem Dev.irqSettle_fuses (d : Dev) : (d.irqSettle).fuses = d.fuses := rfl
@[simp] theorem Dev.irqSettle_burning (d : Dev) : (d.irqSettle).burning = d.burning := rfl
@[simp] theorem Dev.irqSettle_sd (d : Dev) : (d.irqSettle).sd = d.sd := rfl
@[simp] theorem Dev.irqSettle_up (d : Dev) : (d.irqSettle).up = d.up := rfl
@[simp] theorem Dev.irqSettle_ticks (d : Dev) : (d.irqSettle).ticks = d.ticks := rfl
@[simp] theorem Dev.irqSettle_free (d : Dev) : (d.irqSettle).free = d.free := rfl
@[simp] theorem Dev.irqSettle_time (d : Dev) : (d.irqSettle).time = d.time := rfl
@[simp] theorem Dev.irqSettle_viewIng (d : Dev) : (d.irqSettle).viewIng = d.viewIng := rfl
@[simp] theorem Dev.irqSettle_viewEgr (d : Dev) : (d.irqSettle).viewEgr = d.viewEgr := rfl
@[simp] theorem Dev.irqSettle_viewMem (d : Dev) : (d.irqSettle).viewMem = d.viewMem := rfl
@[simp] theorem Dev.irqSettle_viewSoc (d : Dev) : (d.irqSettle).viewSoc = d.viewSoc := rfl
@[simp] theorem Dev.irqSettle_lanes (d : Dev) : (d.irqSettle).lanes = d.lanes := rfl
@[simp] theorem Dev.irqSettle_ing (d : Dev) : (d.irqSettle).ing = d.ing := rfl
@[simp] theorem Dev.irqSettle_ptp (d : Dev) : (d.irqSettle).ptp = d.ptp := rfl
@[simp] theorem Dev.irqSettle_tap (d : Dev) : (d.irqSettle).tap = d.tap := rfl
@[simp] theorem Dev.irqSettle_relay (d : Dev) : (d.irqSettle).relay = d.relay := rfl
@[simp] theorem Dev.irqSettle_pat (d : Dev) : (d.irqSettle).pat = d.pat := rfl
@[simp] theorem Dev.irqSettle_isls (d : Dev) : (d.irqSettle).isls = d.isls := rfl
@[simp] theorem Dev.irqSettle_panels (d : Dev) : (d.irqSettle).panels = d.panels := rfl
@[simp] theorem Dev.irqSettle_awl (d : Dev) : (d.irqSettle).awl = d.awl := rfl
@[simp] theorem Dev.irqSettle_posts (d : Dev) : (d.irqSettle).posts = d.posts := rfl
@[simp] theorem Dev.irqSettle_spill (d : Dev) : (d.irqSettle).spill = d.spill := rfl
@[simp] theorem Dev.irqSettle_trigs (d : Dev) : (d.irqSettle).trigs = d.trigs := rfl
@[simp] theorem Dev.irqSettle_cap (d : Dev) : (d.irqSettle).cap = d.cap := rfl
@[simp] theorem Dev.irqSettle_mon (d : Dev) : (d.irqSettle).mon = d.mon := rfl
@[simp] theorem Dev.irqSettle_monIn (d : Dev) : (d.irqSettle).monIn = d.monIn := rfl
@[simp] theorem Dev.irqSettle_hk (d : Dev) : (d.irqSettle).hk = d.hk := rfl
@[simp] theorem Dev.irqSettle_egr (d : Dev) : (d.irqSettle).egr = d.egr := rfl
@[simp] theorem Dev.irqSettle_fo (d : Dev) : (d.irqSettle).fo = d.fo := rfl
@[simp] theorem Dev.irqSettle_evr (d : Dev) : (d.irqSettle).evr = d.evr := rfl
@[simp] theorem Dev.irqSettle_seenTrig (d : Dev) : (d.irqSettle).seenTrig = d.seenTrig := rfl
@[simp] theorem Dev.irqSettle_tim (d : Dev) : (d.irqSettle).tim = d.tim := rfl
@[simp] theorem Dev.irqSettle_harts (d : Dev) : (d.irqSettle).harts = d.harts := rfl
@[simp] theorem Dev.irqSettle_l2 (d : Dev) : (d.irqSettle).l2 = d.l2 := rfl
@[simp] theorem Dev.irqSettle_mgmt (d : Dev) : (d.irqSettle).mgmt = d.mgmt := rfl
@[simp] theorem Dev.irqSettle_welt (d : Dev) : (d.irqSettle).welt = d.welt := rfl
@[simp] theorem Dev.irqSettle_dma (d : Dev) : (d.irqSettle).dma = d.dma := rfl
@[simp] theorem Dev.irqSettle_pcie (d : Dev) : (d.irqSettle).pcie = d.pcie := rfl
@[simp] theorem Dev.irqSettle_answer (d : Dev) : (d.irqSettle).answer = d.answer := rfl
@[simp] theorem Dev.irqSettle_bootFail (d : Dev) : (d.irqSettle).bootFail = d.bootFail := rfl
@[simp] theorem Dev.irqSettle_thermTrip (d : Dev) : (d.irqSettle).thermTrip = d.thermTrip := rfl
@[simp] theorem Dev.irqSettle_jtag (d : Dev) : (d.irqSettle).jtag = d.jtag := rfl
@[simp] theorem Dev.irqSettle_mirror (d : Dev) : (d.irqSettle).mirror = d.mirror := rfl

@[simp] theorem Dev.wrByte_regs (d : Dev) (a : Nat) (b : Byte) : (d.wrByte a b).regs = d.regs := rfl
@[simp] theorem Dev.wrByte_ueBeats (d : Dev) (a : Nat) (b : Byte) : (d.wrByte a b).ueBeats = d.ueBeats := rfl
@[simp] theorem Dev.wrByte_insoleBad (d : Dev) (a : Nat) (b : Byte) : (d.wrByte a b).insoleBad = d.insoleBad := rfl
@[simp] theorem Dev.wrByte_chk (d : Dev) (a : Nat) (b : Byte) : (d.wrByte a b).chk = d.chk := rfl
@[simp] theorem Dev.wrByte_fuses (d : Dev) (a : Nat) (b : Byte) : (d.wrByte a b).fuses = d.fuses := rfl
@[simp] theorem Dev.wrByte_burning (d : Dev) (a : Nat) (b : Byte) : (d.wrByte a b).burning = d.burning := rfl
@[simp] theorem Dev.wrByte_sd (d : Dev) (a : Nat) (b : Byte) : (d.wrByte a b).sd = d.sd := rfl
@[simp] theorem Dev.wrByte_up (d : Dev) (a : Nat) (b : Byte) : (d.wrByte a b).up = d.up := rfl
@[simp] theorem Dev.wrByte_ticks (d : Dev) (a : Nat) (b : Byte) : (d.wrByte a b).ticks = d.ticks := rfl
@[simp] theorem Dev.wrByte_free (d : Dev) (a : Nat) (b : Byte) : (d.wrByte a b).free = d.free := rfl
@[simp] theorem Dev.wrByte_time (d : Dev) (a : Nat) (b : Byte) : (d.wrByte a b).time = d.time := rfl
@[simp] theorem Dev.wrByte_viewIng (d : Dev) (a : Nat) (b : Byte) : (d.wrByte a b).viewIng = d.viewIng := rfl
@[simp] theorem Dev.wrByte_viewEgr (d : Dev) (a : Nat) (b : Byte) : (d.wrByte a b).viewEgr = d.viewEgr := rfl
@[simp] theorem Dev.wrByte_viewMem (d : Dev) (a : Nat) (b : Byte) : (d.wrByte a b).viewMem = d.viewMem := rfl
@[simp] theorem Dev.wrByte_viewSoc (d : Dev) (a : Nat) (b : Byte) : (d.wrByte a b).viewSoc = d.viewSoc := rfl
@[simp] theorem Dev.wrByte_lanes (d : Dev) (a : Nat) (b : Byte) : (d.wrByte a b).lanes = d.lanes := rfl
@[simp] theorem Dev.wrByte_ing (d : Dev) (a : Nat) (b : Byte) : (d.wrByte a b).ing = d.ing := rfl
@[simp] theorem Dev.wrByte_ptp (d : Dev) (a : Nat) (b : Byte) : (d.wrByte a b).ptp = d.ptp := rfl
@[simp] theorem Dev.wrByte_tap (d : Dev) (a : Nat) (b : Byte) : (d.wrByte a b).tap = d.tap := rfl
@[simp] theorem Dev.wrByte_relay (d : Dev) (a : Nat) (b : Byte) : (d.wrByte a b).relay = d.relay := rfl
@[simp] theorem Dev.wrByte_pat (d : Dev) (a : Nat) (b : Byte) : (d.wrByte a b).pat = d.pat := rfl
@[simp] theorem Dev.wrByte_isls (d : Dev) (a : Nat) (b : Byte) : (d.wrByte a b).isls = d.isls := rfl
@[simp] theorem Dev.wrByte_panels (d : Dev) (a : Nat) (b : Byte) : (d.wrByte a b).panels = d.panels := rfl
@[simp] theorem Dev.wrByte_awl (d : Dev) (a : Nat) (b : Byte) : (d.wrByte a b).awl = d.awl := rfl
@[simp] theorem Dev.wrByte_posts (d : Dev) (a : Nat) (b : Byte) : (d.wrByte a b).posts = d.posts := rfl
@[simp] theorem Dev.wrByte_spill (d : Dev) (a : Nat) (b : Byte) : (d.wrByte a b).spill = d.spill := rfl
@[simp] theorem Dev.wrByte_trigs (d : Dev) (a : Nat) (b : Byte) : (d.wrByte a b).trigs = d.trigs := rfl
@[simp] theorem Dev.wrByte_cap (d : Dev) (a : Nat) (b : Byte) : (d.wrByte a b).cap = d.cap := rfl
@[simp] theorem Dev.wrByte_mon (d : Dev) (a : Nat) (b : Byte) : (d.wrByte a b).mon = d.mon := rfl
@[simp] theorem Dev.wrByte_monIn (d : Dev) (a : Nat) (b : Byte) : (d.wrByte a b).monIn = d.monIn := rfl
@[simp] theorem Dev.wrByte_hk (d : Dev) (a : Nat) (b : Byte) : (d.wrByte a b).hk = d.hk := rfl
@[simp] theorem Dev.wrByte_egr (d : Dev) (a : Nat) (b : Byte) : (d.wrByte a b).egr = d.egr := rfl
@[simp] theorem Dev.wrByte_fo (d : Dev) (a : Nat) (b : Byte) : (d.wrByte a b).fo = d.fo := rfl
@[simp] theorem Dev.wrByte_evr (d : Dev) (a : Nat) (b : Byte) : (d.wrByte a b).evr = d.evr := rfl
@[simp] theorem Dev.wrByte_seenTrig (d : Dev) (a : Nat) (b : Byte) : (d.wrByte a b).seenTrig = d.seenTrig := rfl
@[simp] theorem Dev.wrByte_tim (d : Dev) (a : Nat) (b : Byte) : (d.wrByte a b).tim = d.tim := rfl
@[simp] theorem Dev.wrByte_intc (d : Dev) (a : Nat) (b : Byte) : (d.wrByte a b).intc = d.intc := rfl
@[simp] theorem Dev.wrByte_harts (d : Dev) (a : Nat) (b : Byte) : (d.wrByte a b).harts = d.harts := rfl
@[simp] theorem Dev.wrByte_l2 (d : Dev) (a : Nat) (b : Byte) : (d.wrByte a b).l2 = d.l2 := rfl
@[simp] theorem Dev.wrByte_mgmt (d : Dev) (a : Nat) (b : Byte) : (d.wrByte a b).mgmt = d.mgmt := rfl
@[simp] theorem Dev.wrByte_welt (d : Dev) (a : Nat) (b : Byte) : (d.wrByte a b).welt = d.welt := rfl
@[simp] theorem Dev.wrByte_dma (d : Dev) (a : Nat) (b : Byte) : (d.wrByte a b).dma = d.dma := rfl
@[simp] theorem Dev.wrByte_pcie (d : Dev) (a : Nat) (b : Byte) : (d.wrByte a b).pcie = d.pcie := rfl
@[simp] theorem Dev.wrByte_answer (d : Dev) (a : Nat) (b : Byte) : (d.wrByte a b).answer = d.answer := rfl
@[simp] theorem Dev.wrByte_bootFail (d : Dev) (a : Nat) (b : Byte) : (d.wrByte a b).bootFail = d.bootFail := rfl
@[simp] theorem Dev.wrByte_thermTrip (d : Dev) (a : Nat) (b : Byte) : (d.wrByte a b).thermTrip = d.thermTrip := rfl
@[simp] theorem Dev.wrByte_jtag (d : Dev) (a : Nat) (b : Byte) : (d.wrByte a b).jtag = d.jtag := rfl
@[simp] theorem Dev.wrByte_mirror (d : Dev) (a : Nat) (b : Byte) : (d.wrByte a b).mirror = d.mirror := rfl

@[simp] theorem Dev.append_regs (d : Dev) (r : Rec) : (d.append r).regs = d.regs := rfl
@[simp] theorem Dev.append_mem (d : Dev) (r : Rec) : (d.append r).mem = d.mem := rfl
@[simp] theorem Dev.append_ueBeats (d : Dev) (r : Rec) : (d.append r).ueBeats = d.ueBeats := rfl
@[simp] theorem Dev.append_insoleBad (d : Dev) (r : Rec) : (d.append r).insoleBad = d.insoleBad := rfl
@[simp] theorem Dev.append_chk (d : Dev) (r : Rec) : (d.append r).chk = d.chk := rfl
@[simp] theorem Dev.append_fuses (d : Dev) (r : Rec) : (d.append r).fuses = d.fuses := rfl
@[simp] theorem Dev.append_burning (d : Dev) (r : Rec) : (d.append r).burning = d.burning := rfl
@[simp] theorem Dev.append_sd (d : Dev) (r : Rec) : (d.append r).sd = d.sd := rfl
@[simp] theorem Dev.append_up (d : Dev) (r : Rec) : (d.append r).up = d.up := rfl
@[simp] theorem Dev.append_ticks (d : Dev) (r : Rec) : (d.append r).ticks = d.ticks := rfl
@[simp] theorem Dev.append_free (d : Dev) (r : Rec) : (d.append r).free = d.free := rfl
@[simp] theorem Dev.append_time (d : Dev) (r : Rec) : (d.append r).time = d.time := rfl
@[simp] theorem Dev.append_viewIng (d : Dev) (r : Rec) : (d.append r).viewIng = d.viewIng := rfl
@[simp] theorem Dev.append_viewEgr (d : Dev) (r : Rec) : (d.append r).viewEgr = d.viewEgr := rfl
@[simp] theorem Dev.append_viewMem (d : Dev) (r : Rec) : (d.append r).viewMem = d.viewMem := rfl
@[simp] theorem Dev.append_viewSoc (d : Dev) (r : Rec) : (d.append r).viewSoc = d.viewSoc := rfl
@[simp] theorem Dev.append_lanes (d : Dev) (r : Rec) : (d.append r).lanes = d.lanes := rfl
@[simp] theorem Dev.append_ing (d : Dev) (r : Rec) : (d.append r).ing = d.ing := rfl
@[simp] theorem Dev.append_ptp (d : Dev) (r : Rec) : (d.append r).ptp = d.ptp := rfl
@[simp] theorem Dev.append_tap (d : Dev) (r : Rec) : (d.append r).tap = d.tap := rfl
@[simp] theorem Dev.append_relay (d : Dev) (r : Rec) : (d.append r).relay = d.relay := rfl
@[simp] theorem Dev.append_pat (d : Dev) (r : Rec) : (d.append r).pat = d.pat := rfl
@[simp] theorem Dev.append_isls (d : Dev) (r : Rec) : (d.append r).isls = d.isls := rfl
@[simp] theorem Dev.append_panels (d : Dev) (r : Rec) : (d.append r).panels = d.panels := rfl
@[simp] theorem Dev.append_awl (d : Dev) (r : Rec) : (d.append r).awl = d.awl := rfl
@[simp] theorem Dev.append_posts (d : Dev) (r : Rec) : (d.append r).posts = d.posts := rfl
@[simp] theorem Dev.append_spill (d : Dev) (r : Rec) : (d.append r).spill = d.spill := rfl
@[simp] theorem Dev.append_trigs (d : Dev) (r : Rec) : (d.append r).trigs = d.trigs := rfl
@[simp] theorem Dev.append_cap (d : Dev) (r : Rec) : (d.append r).cap = d.cap := rfl
@[simp] theorem Dev.append_mon (d : Dev) (r : Rec) : (d.append r).mon = d.mon := rfl
@[simp] theorem Dev.append_monIn (d : Dev) (r : Rec) : (d.append r).monIn = d.monIn := rfl
@[simp] theorem Dev.append_hk (d : Dev) (r : Rec) : (d.append r).hk = d.hk := rfl
@[simp] theorem Dev.append_egr (d : Dev) (r : Rec) : (d.append r).egr = d.egr := rfl
@[simp] theorem Dev.append_fo (d : Dev) (r : Rec) : (d.append r).fo = d.fo := rfl
@[simp] theorem Dev.append_seenTrig (d : Dev) (r : Rec) : (d.append r).seenTrig = d.seenTrig := rfl
@[simp] theorem Dev.append_tim (d : Dev) (r : Rec) : (d.append r).tim = d.tim := rfl
@[simp] theorem Dev.append_intc (d : Dev) (r : Rec) : (d.append r).intc = d.intc := rfl
@[simp] theorem Dev.append_harts (d : Dev) (r : Rec) : (d.append r).harts = d.harts := rfl
@[simp] theorem Dev.append_l2 (d : Dev) (r : Rec) : (d.append r).l2 = d.l2 := rfl
@[simp] theorem Dev.append_mgmt (d : Dev) (r : Rec) : (d.append r).mgmt = d.mgmt := rfl
@[simp] theorem Dev.append_welt (d : Dev) (r : Rec) : (d.append r).welt = d.welt := rfl
@[simp] theorem Dev.append_dma (d : Dev) (r : Rec) : (d.append r).dma = d.dma := rfl
@[simp] theorem Dev.append_pcie (d : Dev) (r : Rec) : (d.append r).pcie = d.pcie := rfl
@[simp] theorem Dev.append_answer (d : Dev) (r : Rec) : (d.append r).answer = d.answer := rfl
@[simp] theorem Dev.append_bootFail (d : Dev) (r : Rec) : (d.append r).bootFail = d.bootFail := rfl
@[simp] theorem Dev.append_thermTrip (d : Dev) (r : Rec) : (d.append r).thermTrip = d.thermTrip := rfl
@[simp] theorem Dev.append_jtag (d : Dev) (r : Rec) : (d.append r).jtag = d.jtag := rfl
@[simp] theorem Dev.append_mirror (d : Dev) (r : Rec) : (d.append r).mirror = d.mirror := rfl

@[simp] theorem Dev.fresh_regs (d : Dev) : (d.fresh).regs = d.regs := rfl
@[simp] theorem Dev.fresh_mem (d : Dev) : (d.fresh).mem = d.mem := rfl
@[simp] theorem Dev.fresh_ueBeats (d : Dev) : (d.fresh).ueBeats = d.ueBeats := rfl
@[simp] theorem Dev.fresh_insoleBad (d : Dev) : (d.fresh).insoleBad = d.insoleBad := rfl
@[simp] theorem Dev.fresh_chk (d : Dev) : (d.fresh).chk = d.chk := rfl
@[simp] theorem Dev.fresh_fuses (d : Dev) : (d.fresh).fuses = d.fuses := rfl
@[simp] theorem Dev.fresh_burning (d : Dev) : (d.fresh).burning = d.burning := rfl
@[simp] theorem Dev.fresh_sd (d : Dev) : (d.fresh).sd = d.sd := rfl
@[simp] theorem Dev.fresh_up (d : Dev) : (d.fresh).up = d.up := rfl
@[simp] theorem Dev.fresh_ticks (d : Dev) : (d.fresh).ticks = d.ticks := rfl
@[simp] theorem Dev.fresh_time (d : Dev) : (d.fresh).time = d.time := rfl
@[simp] theorem Dev.fresh_viewIng (d : Dev) : (d.fresh).viewIng = d.viewIng := rfl
@[simp] theorem Dev.fresh_viewEgr (d : Dev) : (d.fresh).viewEgr = d.viewEgr := rfl
@[simp] theorem Dev.fresh_viewMem (d : Dev) : (d.fresh).viewMem = d.viewMem := rfl
@[simp] theorem Dev.fresh_viewSoc (d : Dev) : (d.fresh).viewSoc = d.viewSoc := rfl
@[simp] theorem Dev.fresh_lanes (d : Dev) : (d.fresh).lanes = d.lanes := rfl
@[simp] theorem Dev.fresh_ing (d : Dev) : (d.fresh).ing = d.ing := rfl
@[simp] theorem Dev.fresh_ptp (d : Dev) : (d.fresh).ptp = d.ptp := rfl
@[simp] theorem Dev.fresh_tap (d : Dev) : (d.fresh).tap = d.tap := rfl
@[simp] theorem Dev.fresh_relay (d : Dev) : (d.fresh).relay = d.relay := rfl
@[simp] theorem Dev.fresh_pat (d : Dev) : (d.fresh).pat = d.pat := rfl
@[simp] theorem Dev.fresh_isls (d : Dev) : (d.fresh).isls = d.isls := rfl
@[simp] theorem Dev.fresh_panels (d : Dev) : (d.fresh).panels = d.panels := rfl
@[simp] theorem Dev.fresh_awl (d : Dev) : (d.fresh).awl = d.awl := rfl
@[simp] theorem Dev.fresh_posts (d : Dev) : (d.fresh).posts = d.posts := rfl
@[simp] theorem Dev.fresh_spill (d : Dev) : (d.fresh).spill = d.spill := rfl
@[simp] theorem Dev.fresh_trigs (d : Dev) : (d.fresh).trigs = d.trigs := rfl
@[simp] theorem Dev.fresh_cap (d : Dev) : (d.fresh).cap = d.cap := rfl
@[simp] theorem Dev.fresh_mon (d : Dev) : (d.fresh).mon = d.mon := rfl
@[simp] theorem Dev.fresh_monIn (d : Dev) : (d.fresh).monIn = d.monIn := rfl
@[simp] theorem Dev.fresh_hk (d : Dev) : (d.fresh).hk = d.hk := rfl
@[simp] theorem Dev.fresh_egr (d : Dev) : (d.fresh).egr = d.egr := rfl
@[simp] theorem Dev.fresh_fo (d : Dev) : (d.fresh).fo = d.fo := rfl
@[simp] theorem Dev.fresh_evr (d : Dev) : (d.fresh).evr = d.evr := rfl
@[simp] theorem Dev.fresh_seenTrig (d : Dev) : (d.fresh).seenTrig = d.seenTrig := rfl
@[simp] theorem Dev.fresh_tim (d : Dev) : (d.fresh).tim = d.tim := rfl
@[simp] theorem Dev.fresh_intc (d : Dev) : (d.fresh).intc = d.intc := rfl
@[simp] theorem Dev.fresh_harts (d : Dev) : (d.fresh).harts = d.harts := rfl
@[simp] theorem Dev.fresh_l2 (d : Dev) : (d.fresh).l2 = d.l2 := rfl
@[simp] theorem Dev.fresh_mgmt (d : Dev) : (d.fresh).mgmt = d.mgmt := rfl
@[simp] theorem Dev.fresh_welt (d : Dev) : (d.fresh).welt = d.welt := rfl
@[simp] theorem Dev.fresh_dma (d : Dev) : (d.fresh).dma = d.dma := rfl
@[simp] theorem Dev.fresh_pcie (d : Dev) : (d.fresh).pcie = d.pcie := rfl
@[simp] theorem Dev.fresh_answer (d : Dev) : (d.fresh).answer = d.answer := rfl
@[simp] theorem Dev.fresh_bootFail (d : Dev) : (d.fresh).bootFail = d.bootFail := rfl
@[simp] theorem Dev.fresh_thermTrip (d : Dev) : (d.fresh).thermTrip = d.thermTrip := rfl
@[simp] theorem Dev.fresh_jtag (d : Dev) : (d.fresh).jtag = d.jtag := rfl
@[simp] theorem Dev.fresh_mirror (d : Dev) : (d.fresh).mirror = d.mirror := rfl

/-- Settling the interrupts leaves every register. -/
@[simp] theorem Dev.irqSettle_rdReg (d : Dev) (r : Reg) : d.irqSettle.rdReg r = d.rdReg r := rfl
@[simp] theorem Dev.irqSettle_get (d : Dev) (f : RF) : d.irqSettle.get f = d.get f := rfl
@[simp] theorem Dev.irqSettle_is (d : Dev) (f : RF) : d.irqSettle.is f = d.is f := rfl

/-! ### The machine -/

@[simp] theorem State.run_pending (s : State) (f : Dev → Dev) : (s.run f).pending = s.pending := rfl
@[simp] theorem State.run_smu (s : State) (f : Dev → Dev) : (s.run f).smu = s.smu := rfl
@[simp] theorem State.run_link (s : State) (f : Dev → Dev) : (s.run f).link = s.link := rfl
@[simp] theorem State.run_dev (s : State) (f : Dev → Dev) : (s.run f).dev = s.dev.run f := rfl
@[simp] theorem State.runSmu_pending (s : State) (f : SmuSt → SmuSt) : (s.runSmu f).pending = s.pending := rfl
@[simp] theorem State.runSmu_dev (s : State) (f : SmuSt → SmuSt) : (s.runSmu f).dev = s.dev := rfl
@[simp] theorem State.tick_pending (s : State) : s.tick.pending = s.pending := rfl
@[simp] theorem State.tick_link (s : State) : s.tick.link = s.link := rfl

/-- A device whose PORST_N is high takes a command. -/
theorem Dev.run_up (d : Dev) (f : Dev → Dev) (h : d.up = true) : d.run f = (f d).irqSettle := by simp [Dev.run, h]
/-- A device whose PORST_N is low takes none. -/
theorem Dev.run_down (d : Dev) (f : Dev → Dev) (h : d.up = false) : d.run f = d := by simp [Dev.run, h]

@[simp] theorem State.runIng_smu (s : State) (f : Dev → Dev) : (s.runIng f).smu = s.smu := by unfold State.runIng; split <;> rfl
@[simp] theorem State.runEgr_smu (s : State) (f : Dev → Dev) : (s.runEgr f).smu = s.smu := by unfold State.runEgr; split <;> rfl
@[simp] theorem State.runIsl_smu (s : State) (k : Nat) (f : Dev → Dev) : (s.runIsl k f).smu = s.smu := by unfold State.runIsl; split <;> rfl
@[simp] theorem State.runIng_pending (s : State) (f : Dev → Dev) : (s.runIng f).pending = s.pending := by unfold State.runIng; split <;> rfl
@[simp] theorem State.runEgr_pending (s : State) (f : Dev → Dev) : (s.runEgr f).pending = s.pending := by unfold State.runEgr; split <;> rfl
@[simp] theorem State.runIsl_pending (s : State) (k : Nat) (f : Dev → Dev) : (s.runIsl k f).pending = s.pending := by unfold State.runIsl; split <;> rfl

/-- A command of a unit that exists answers a next state. -/
@[simp] theorem unitOk_true (s : State) : unitOk true s = .next s := rfl
/-- A command of a unit that does not exist faults. -/
@[simp] theorem unitOk_false (s : State) : unitOk false s = .fault .noSuchUnit := rfl

end Sys2Proof.Machine
end

