-- ==== Sys2Proof/Laws/Commands.lean ====
section
/-! SUPPORT. What the operations that many commands share can do: where a command acts, the issue of a panel's control and array
syllables, of an Awl core's syllables, and the taking of a control block. -/
namespace Sys2Proof.Machine
open Sys2Proof.Safety

/-! ### Where a command acts (R32, R33, R510) -/

theorem State.run_of_up {s : State} (h : up s) (f : Dev → Dev) : s.run f = { s with dev := (f s.dev).irqSettle } := by
  simp only [State.run, Dev.run, show s.dev.up = true from h, if_true]

theorem State.runIng_of_up {s : State} (h : upIng s) (f : Dev → Dev) : s.runIng f = { s with dev := (f s.dev).irqSettle } := by
  rw [State.runIng, h.2]
  exact State.run_of_up h.1 f

theorem State.runEgr_of_up {s : State} (h : upEgr s) (f : Dev → Dev) : s.runEgr f = { s with dev := (f s.dev).irqSettle } := by
  rw [State.runEgr, h.2]
  exact State.run_of_up h.1 f

theorem State.runIsl_of_up {s : State} {k : Nat} (h : upIsl s k) (f : Dev → Dev) :
    s.runIsl k f = { s with dev := (f s.dev).irqSettle } := by
  rw [State.runIsl, h.2]
  exact State.run_of_up h.1 f

theorem State.runIng_held {s : State} (h : s.dev.ingHeld = true) (f : Dev → Dev) : s.runIng f = s := by rw [State.runIng, h]; rfl
theorem State.runEgr_held {s : State} (h : s.dev.egrHeld = true) (f : Dev → Dev) : s.runEgr f = s := by rw [State.runEgr, h]; rfl
theorem State.runIsl_held {s : State} {k : Nat} (h : s.dev.islHeld k = true) (f : Dev → Dev) : s.runIsl k f = s := by
  rw [State.runIsl, h]; rfl

/-! ### A panel's syllables (R154, R155, R158) -/

/-- A control syllable that issues has the effect of its command, and nothing else can happen to it. -/
theorem Dev.control_issue {d : Dev} {p cop : Nat} (h : Issues d p cop) (k : copKnown cop = true) (f : Dev → Ctl) :
    d.control p cop f = match f d with
      | .wait slot => d.wordWait p slot
      | .hold => (d.flag F.MEM_SPILL_STATUS_HOLD).wordWait p false
      | .fault code => (d.tick p).panelFault p code
      | .done d' => d'.wordIssue p
      | .stop d' => d'.tick p := by
  cases hf : f d <;>
  simp only [Dev.control, h.live, h.noService, h.fresh, h.readable, h.isCop, h.placed, h.noWait, k, Bool.not_true, ne_eq, not_true, decide_false,
    Bool.or_self, Bool.false_eq_true, if_false, hf]

/-- A panel that cannot issue, has a service due, or has issued its control syllable takes no control command. -/
theorem Dev.control_idle {d : Dev} {p : Nat} (h : d.canIssue p = false ∨ d.serviceDue p ≠ 0 ∨ (d.panel p).ctrl = true) (cop : Nat)
    (f : Dev → Ctl) : d.control p cop f = d := by
  unfold Dev.control
  rcases h with h | h | h <;> simp [h]

/-- An array syllable other than NOP that issues reaches the close point if due, then faults or takes effect. -/
theorem Dev.array_issue {d : Dev} {p aop : Nat} (h : ArrayIssues d p aop) (h0 : aop ≠ 0) (h6 : aop ≤ 6) (f : Dev → Arr) :
    d.array p aop f = match f ((d.phaseFor p).closePoint p) with
      | .fault code => ((d.phaseFor p).tick p).panelFault p code
      | .done e => arrayDone d e p aop := by
  have h6' : ¬ 6 < aop := by omega
  unfold Dev.array
  rw [h.isAop, h.live, h.ctrl]
  simp only [h6', h0, h.loaded, h.free, Bool.not_true, Bool.or_self, if_false, ne_eq, not_true, Bool.false_eq_true]
  cases f ((d.phaseFor p).closePoint p) <;> rfl

theorem Dev.array_nop {d : Dev} {p : Nat} (h : ArrayIssues d p 0) (f : Dev → Arr) : d.array p 0 f = arrayEnd d d p 0 := by
  simp only [Dev.array, arrayEnd, h.live, h.ctrl, h.isAop, Bool.not_true, Bool.or_self, if_false, ne_eq, not_true, Bool.false_eq_true]
  rfl

/-- A panel whose control syllable has not taken effect takes no array command. -/
theorem Dev.array_idle {d : Dev} {p : Nat} (h : d.canIssue p = false ∨ (d.panel p).ctrl = false) (aop : Nat) (f : Dev → Arr) :
    d.array p aop f = d := by
  unfold Dev.array
  rcases h with h | h <;> simp [h]

/-! ### An Awl core's syllables (R293, R294) -/

/-- A compute syllable that issues has the effect of its operation, and the core goes on. -/
theorem Dev.awlCompute_issue {d e : Dev} {n op : Nat} (h : AwlIssues d n op e) (f : AwlEff) :
    d.awlCompute n op f = (f e n (e.awl1 n).word).1.awlAdvance n (e.awl1 n).br (e.awl1 n).rep (f e n (e.awl1 n).word).2 := by
  simp only [Dev.awlCompute, h.begins, h.isOp, h.slotA, h.slotB, Bool.not_true, ne_eq, not_true, decide_false, Bool.or_self,
    Bool.false_eq_true, if_false]

/-- A core that is not running issues nothing. -/
theorem Dev.awlBegin_idle {d : Dev} {n : Nat} (h : d.awlState n ≠ awlRunning) (irq : Bool) : d.awlBegin n irq = .idle := by
  simp only [Dev.awlBegin, h, ne_eq, not_false_eq_true, if_true]

/-- A move slot that issues has its effect. -/
theorem Dev.awlSlot_issue {d e : Dev} {n k kind : Nat} (h : AwlMoves d n k kind e) :
    d.awlSlot n k kind = e.slotEffect n k (wSlot (e.awl1 n).word k) := by
  have ha : (k = 1 && !slotDone (e.awl1 n) (e.awl1 n).word 0) = false := by
    by_cases hk : k = 1
    · simp [hk, h.slotA hk]
    · simp [hk]
  simp only [Dev.awlSlot, h.begins, h.isKind, h.fresh, ha, ne_eq, not_true, decide_false, Bool.or_self, Bool.false_eq_true, if_false]

/-! ### The blocks that commands take (R65, R106) -/

/-- A control block that is taken stood at the head of the elastic buffer, as such or with its time of arrival, and is gone from it. -/
theorem Dev.takeCtrl_some {d e : Dev} {n typ : Nat} {q : Payload} (h : d.takeCtrl n typ = some (q, e)) :
    (∃ rest, ((d.settleRx n 64).lane n).rx.buf = .block true q :: rest ∨
      ∃ t, ((d.settleRx n 64).lane n).rx.buf = .timed q t :: rest) ∧ pf q 0 0 8 = typ ∧ e = (d.settleRx n 64).popRx n := by
  simp only [Dev.takeCtrl] at h
  split at h <;> (try split at h) <;> simp only [Option.some.injEq, Prod.mk.injEq, reduceCtorEq] at h
  · rename_i p rest hb ht
    obtain ⟨rfl, rfl⟩ := h
    exact ⟨⟨rest, .inl hb⟩, ht, rfl⟩
  · rename_i p t rest hb ht
    obtain ⟨rfl, rfl⟩ := h
    exact ⟨⟨rest, .inr ⟨t, hb⟩⟩, ht, rfl⟩

end Sys2Proof.Machine
end

