-- ==== Sys2Proof/Laws/Memory.lean ====
section
/-! SUPPORT. The laws of memory: its canonical form, and a read after a write. -/
namespace Sys2Proof.Machine

/-- A byte read where it was written. -/
@[simp] theorem Dev.rdByte_wrByte_same (d : Dev) (a : Nat) (b : Byte) : (d.wrByte a b).rdByte a = b := by
  simp [Dev.wrByte, Dev.rdByte]

/-- A byte written leaves every other byte. -/
theorem Dev.rdByte_wrByte_other (d : Dev) (a c : Nat) (b : Byte) (h : a ≠ c) : (d.wrByte a b).rdByte c = d.rdByte c := by
  simp [Dev.wrByte, Dev.rdByte, Tab.get_set_other, h]

/-- Writing a byte keeps memory canonical. -/
theorem Dev.wrByte_wf (d : Dev) (a : Nat) (b : Byte) (h : Memory.wf d.mem = true) : Memory.wf (d.wrByte a b).mem = true :=
  Tab.set_wf 0 d.mem a b h

/-- Writing bytes keeps memory canonical. -/
theorem Dev.wrBytes_wf (d : Dev) (a : Nat) (bs : List Nat) (h : Memory.wf d.mem = true) : Memory.wf (d.wrBytes a bs).mem = true := by
  induction bs generalizing d a with
  | nil => exact h
  | cons b t ih => exact ih _ _ (d.wrByte_wf a _ h)

/-- Writing a number keeps memory canonical. -/
theorem Dev.wrLE_wf (d : Dev) (a n v : Nat) (h : Memory.wf d.mem = true) : Memory.wf (d.wrLE a n v).mem = true :=
  d.wrBytes_wf a _ h

/-- Zeroing a range keeps memory canonical. -/
theorem Dev.zeroRange_wf (d : Dev) (a n : Nat) (h : Memory.wf d.mem = true) : Memory.wf (d.zeroRange a n).mem = true :=
  Tab.filter_wf 0 d.mem _ h

/-- Bytes written leave every byte outside their range. -/
theorem Dev.rdByte_wrBytes_outside (d : Dev) (a : Nat) (bs : List Nat) (c : Nat) (h : c < a ∨ a + bs.length ≤ c) :
    (d.wrBytes a bs).rdByte c = d.rdByte c := by
  induction bs generalizing d a with
  | nil => rfl
  | cons b t ih =>
    simp only [List.length_cons] at h
    show ((d.wrByte a _).wrBytes (a + 1) t).rdByte c = _
    rw [ih _ _ (by omega), Dev.rdByte_wrByte_other _ _ _ _ (by omega)]

/-- The memory of the machine after reset is canonical. -/
theorem State.reset_mem_wf : Memory.wf State.reset.dev.mem = true := by decide

end Sys2Proof.Machine
end

