-- ==== Sys2Proof/Laws/Units.lean ====
section
/-! SUPPORT. For each update of one unit of the device: the unit then holds what was put, every other unit of its kind and every
other part of the device stays, and so do registers, their fields and bytes of memory. -/
namespace Sys2Proof.Machine

/-! ### setLane -/

@[simp] theorem Dev.setLane_regs (d : Dev) (n : Nat) (x : LaneSt) : (d.setLane n x).regs = d.regs := rfl
@[simp] theorem Dev.setLane_mem (d : Dev) (n : Nat) (x : LaneSt) : (d.setLane n x).mem = d.mem := rfl
@[simp] theorem Dev.setLane_up (d : Dev) (n : Nat) (x : LaneSt) : (d.setLane n x).up = d.up := rfl
@[simp] theorem Dev.setLane_ticks (d : Dev) (n : Nat) (x : LaneSt) : (d.setLane n x).ticks = d.ticks := rfl
@[simp] theorem Dev.setLane_time (d : Dev) (n : Nat) (x : LaneSt) : (d.setLane n x).time = d.time := rfl
@[simp] theorem Dev.setLane_ing (d : Dev) (n : Nat) (x : LaneSt) : (d.setLane n x).ing = d.ing := rfl
@[simp] theorem Dev.setLane_panels (d : Dev) (n : Nat) (x : LaneSt) : (d.setLane n x).panels = d.panels := rfl
@[simp] theorem Dev.setLane_isls (d : Dev) (n : Nat) (x : LaneSt) : (d.setLane n x).isls = d.isls := rfl
@[simp] theorem Dev.setLane_egr (d : Dev) (n : Nat) (x : LaneSt) : (d.setLane n x).egr = d.egr := rfl
@[simp] theorem Dev.setLane_evr (d : Dev) (n : Nat) (x : LaneSt) : (d.setLane n x).evr = d.evr := rfl
@[simp] theorem Dev.setLane_pat (d : Dev) (n : Nat) (x : LaneSt) : (d.setLane n x).pat = d.pat := rfl
@[simp] theorem Dev.setLane_spill (d : Dev) (n : Nat) (x : LaneSt) : (d.setLane n x).spill = d.spill := rfl
@[simp] theorem Dev.setLane_rdReg (d : Dev) (n : Nat) (x : LaneSt) (r : Reg) : (d.setLane n x).rdReg r = d.rdReg r := rfl
@[simp] theorem Dev.setLane_get (d : Dev) (n : Nat) (x : LaneSt) (e : RF) : (d.setLane n x).get e = d.get e := rfl
@[simp] theorem Dev.setLane_is (d : Dev) (n : Nat) (x : LaneSt) (e : RF) : (d.setLane n x).is e = d.is e := rfl
@[simp] theorem Dev.setLane_rdByte (d : Dev) (n : Nat) (x : LaneSt) (a : Nat) : (d.setLane n x).rdByte a = d.rdByte a := rfl
@[simp] theorem Dev.setLane_same (d : Dev) (n : Nat) (x : LaneSt) : (d.setLane n x).lane n = x := Tab.get_set_same _ _ _ _
theorem Dev.setLane_other (d : Dev) (n : Nat) (x : LaneSt) (j : Nat) (h : n ≠ j) : (d.setLane n x).lane j = d.lane j := Tab.get_set_other _ _ _ _ _ h

/-! ### updLane -/

@[simp] theorem Dev.updLane_regs (d : Dev) (n : Nat) (f : LaneSt → LaneSt) : (d.updLane n f).regs = d.regs := rfl
@[simp] theorem Dev.updLane_mem (d : Dev) (n : Nat) (f : LaneSt → LaneSt) : (d.updLane n f).mem = d.mem := rfl
@[simp] theorem Dev.updLane_up (d : Dev) (n : Nat) (f : LaneSt → LaneSt) : (d.updLane n f).up = d.up := rfl
@[simp] theorem Dev.updLane_ticks (d : Dev) (n : Nat) (f : LaneSt → LaneSt) : (d.updLane n f).ticks = d.ticks := rfl
@[simp] theorem Dev.updLane_time (d : Dev) (n : Nat) (f : LaneSt → LaneSt) : (d.updLane n f).time = d.time := rfl
@[simp] theorem Dev.updLane_ing (d : Dev) (n : Nat) (f : LaneSt → LaneSt) : (d.updLane n f).ing = d.ing := rfl
@[simp] theorem Dev.updLane_panels (d : Dev) (n : Nat) (f : LaneSt → LaneSt) : (d.updLane n f).panels = d.panels := rfl
@[simp] theorem Dev.updLane_isls (d : Dev) (n : Nat) (f : LaneSt → LaneSt) : (d.updLane n f).isls = d.isls := rfl
@[simp] theorem Dev.updLane_egr (d : Dev) (n : Nat) (f : LaneSt → LaneSt) : (d.updLane n f).egr = d.egr := rfl
@[simp] theorem Dev.updLane_evr (d : Dev) (n : Nat) (f : LaneSt → LaneSt) : (d.updLane n f).evr = d.evr := rfl
@[simp] theorem Dev.updLane_pat (d : Dev) (n : Nat) (f : LaneSt → LaneSt) : (d.updLane n f).pat = d.pat := rfl
@[simp] theorem Dev.updLane_spill (d : Dev) (n : Nat) (f : LaneSt → LaneSt) : (d.updLane n f).spill = d.spill := rfl
@[simp] theorem Dev.updLane_rdReg (d : Dev) (n : Nat) (f : LaneSt → LaneSt) (r : Reg) : (d.updLane n f).rdReg r = d.rdReg r := rfl
@[simp] theorem Dev.updLane_get (d : Dev) (n : Nat) (f : LaneSt → LaneSt) (e : RF) : (d.updLane n f).get e = d.get e := rfl
@[simp] theorem Dev.updLane_is (d : Dev) (n : Nat) (f : LaneSt → LaneSt) (e : RF) : (d.updLane n f).is e = d.is e := rfl
@[simp] theorem Dev.updLane_rdByte (d : Dev) (n : Nat) (f : LaneSt → LaneSt) (a : Nat) : (d.updLane n f).rdByte a = d.rdByte a := rfl
@[simp] theorem Dev.updLane_same (d : Dev) (n : Nat) (f : LaneSt → LaneSt) : (d.updLane n f).lane n = f (d.lane n) := Tab.get_set_same _ _ _ _
theorem Dev.updLane_other (d : Dev) (n : Nat) (f : LaneSt → LaneSt) (j : Nat) (h : n ≠ j) : (d.updLane n f).lane j = d.lane j := Tab.get_set_other _ _ _ _ _ h

/-! ### updRx -/

@[simp] theorem Dev.updRx_regs (d : Dev) (n : Nat) (f : LaneRx → LaneRx) : (d.updRx n f).regs = d.regs := rfl
@[simp] theorem Dev.updRx_mem (d : Dev) (n : Nat) (f : LaneRx → LaneRx) : (d.updRx n f).mem = d.mem := rfl
@[simp] theorem Dev.updRx_up (d : Dev) (n : Nat) (f : LaneRx → LaneRx) : (d.updRx n f).up = d.up := rfl
@[simp] theorem Dev.updRx_ticks (d : Dev) (n : Nat) (f : LaneRx → LaneRx) : (d.updRx n f).ticks = d.ticks := rfl
@[simp] theorem Dev.updRx_time (d : Dev) (n : Nat) (f : LaneRx → LaneRx) : (d.updRx n f).time = d.time := rfl
@[simp] theorem Dev.updRx_ing (d : Dev) (n : Nat) (f : LaneRx → LaneRx) : (d.updRx n f).ing = d.ing := rfl
@[simp] theorem Dev.updRx_panels (d : Dev) (n : Nat) (f : LaneRx → LaneRx) : (d.updRx n f).panels = d.panels := rfl
@[simp] theorem Dev.updRx_isls (d : Dev) (n : Nat) (f : LaneRx → LaneRx) : (d.updRx n f).isls = d.isls := rfl
@[simp] theorem Dev.updRx_egr (d : Dev) (n : Nat) (f : LaneRx → LaneRx) : (d.updRx n f).egr = d.egr := rfl
@[simp] theorem Dev.updRx_evr (d : Dev) (n : Nat) (f : LaneRx → LaneRx) : (d.updRx n f).evr = d.evr := rfl
@[simp] theorem Dev.updRx_pat (d : Dev) (n : Nat) (f : LaneRx → LaneRx) : (d.updRx n f).pat = d.pat := rfl
@[simp] theorem Dev.updRx_spill (d : Dev) (n : Nat) (f : LaneRx → LaneRx) : (d.updRx n f).spill = d.spill := rfl
@[simp] theorem Dev.updRx_rdReg (d : Dev) (n : Nat) (f : LaneRx → LaneRx) (r : Reg) : (d.updRx n f).rdReg r = d.rdReg r := rfl
@[simp] theorem Dev.updRx_get (d : Dev) (n : Nat) (f : LaneRx → LaneRx) (e : RF) : (d.updRx n f).get e = d.get e := rfl
@[simp] theorem Dev.updRx_is (d : Dev) (n : Nat) (f : LaneRx → LaneRx) (e : RF) : (d.updRx n f).is e = d.is e := rfl
@[simp] theorem Dev.updRx_rdByte (d : Dev) (n : Nat) (f : LaneRx → LaneRx) (a : Nat) : (d.updRx n f).rdByte a = d.rdByte a := rfl

/-! ### updTx -/

@[simp] theorem Dev.updTx_regs (d : Dev) (n : Nat) (f : LaneTx → LaneTx) : (d.updTx n f).regs = d.regs := rfl
@[simp] theorem Dev.updTx_mem (d : Dev) (n : Nat) (f : LaneTx → LaneTx) : (d.updTx n f).mem = d.mem := rfl
@[simp] theorem Dev.updTx_up (d : Dev) (n : Nat) (f : LaneTx → LaneTx) : (d.updTx n f).up = d.up := rfl
@[simp] theorem Dev.updTx_ticks (d : Dev) (n : Nat) (f : LaneTx → LaneTx) : (d.updTx n f).ticks = d.ticks := rfl
@[simp] theorem Dev.updTx_time (d : Dev) (n : Nat) (f : LaneTx → LaneTx) : (d.updTx n f).time = d.time := rfl
@[simp] theorem Dev.updTx_ing (d : Dev) (n : Nat) (f : LaneTx → LaneTx) : (d.updTx n f).ing = d.ing := rfl
@[simp] theorem Dev.updTx_panels (d : Dev) (n : Nat) (f : LaneTx → LaneTx) : (d.updTx n f).panels = d.panels := rfl
@[simp] theorem Dev.updTx_isls (d : Dev) (n : Nat) (f : LaneTx → LaneTx) : (d.updTx n f).isls = d.isls := rfl
@[simp] theorem Dev.updTx_egr (d : Dev) (n : Nat) (f : LaneTx → LaneTx) : (d.updTx n f).egr = d.egr := rfl
@[simp] theorem Dev.updTx_evr (d : Dev) (n : Nat) (f : LaneTx → LaneTx) : (d.updTx n f).evr = d.evr := rfl
@[simp] theorem Dev.updTx_pat (d : Dev) (n : Nat) (f : LaneTx → LaneTx) : (d.updTx n f).pat = d.pat := rfl
@[simp] theorem Dev.updTx_spill (d : Dev) (n : Nat) (f : LaneTx → LaneTx) : (d.updTx n f).spill = d.spill := rfl
@[simp] theorem Dev.updTx_rdReg (d : Dev) (n : Nat) (f : LaneTx → LaneTx) (r : Reg) : (d.updTx n f).rdReg r = d.rdReg r := rfl
@[simp] theorem Dev.updTx_get (d : Dev) (n : Nat) (f : LaneTx → LaneTx) (e : RF) : (d.updTx n f).get e = d.get e := rfl
@[simp] theorem Dev.updTx_is (d : Dev) (n : Nat) (f : LaneTx → LaneTx) (e : RF) : (d.updTx n f).is e = d.is e := rfl
@[simp] theorem Dev.updTx_rdByte (d : Dev) (n : Nat) (f : LaneTx → LaneTx) (a : Nat) : (d.updTx n f).rdByte a = d.rdByte a := rfl

/-! ### updTrn -/

@[simp] theorem Dev.updTrn_regs (d : Dev) (n : Nat) (f : LaneTrn → LaneTrn) : (d.updTrn n f).regs = d.regs := rfl
@[simp] theorem Dev.updTrn_mem (d : Dev) (n : Nat) (f : LaneTrn → LaneTrn) : (d.updTrn n f).mem = d.mem := rfl
@[simp] theorem Dev.updTrn_up (d : Dev) (n : Nat) (f : LaneTrn → LaneTrn) : (d.updTrn n f).up = d.up := rfl
@[simp] theorem Dev.updTrn_ticks (d : Dev) (n : Nat) (f : LaneTrn → LaneTrn) : (d.updTrn n f).ticks = d.ticks := rfl
@[simp] theorem Dev.updTrn_time (d : Dev) (n : Nat) (f : LaneTrn → LaneTrn) : (d.updTrn n f).time = d.time := rfl
@[simp] theorem Dev.updTrn_ing (d : Dev) (n : Nat) (f : LaneTrn → LaneTrn) : (d.updTrn n f).ing = d.ing := rfl
@[simp] theorem Dev.updTrn_panels (d : Dev) (n : Nat) (f : LaneTrn → LaneTrn) : (d.updTrn n f).panels = d.panels := rfl
@[simp] theorem Dev.updTrn_isls (d : Dev) (n : Nat) (f : LaneTrn → LaneTrn) : (d.updTrn n f).isls = d.isls := rfl
@[simp] theorem Dev.updTrn_egr (d : Dev) (n : Nat) (f : LaneTrn → LaneTrn) : (d.updTrn n f).egr = d.egr := rfl
@[simp] theorem Dev.updTrn_evr (d : Dev) (n : Nat) (f : LaneTrn → LaneTrn) : (d.updTrn n f).evr = d.evr := rfl
@[simp] theorem Dev.updTrn_pat (d : Dev) (n : Nat) (f : LaneTrn → LaneTrn) : (d.updTrn n f).pat = d.pat := rfl
@[simp] theorem Dev.updTrn_spill (d : Dev) (n : Nat) (f : LaneTrn → LaneTrn) : (d.updTrn n f).spill = d.spill := rfl
@[simp] theorem Dev.updTrn_rdReg (d : Dev) (n : Nat) (f : LaneTrn → LaneTrn) (r : Reg) : (d.updTrn n f).rdReg r = d.rdReg r := rfl
@[simp] theorem Dev.updTrn_get (d : Dev) (n : Nat) (f : LaneTrn → LaneTrn) (e : RF) : (d.updTrn n f).get e = d.get e := rfl
@[simp] theorem Dev.updTrn_is (d : Dev) (n : Nat) (f : LaneTrn → LaneTrn) (e : RF) : (d.updTrn n f).is e = d.is e := rfl
@[simp] theorem Dev.updTrn_rdByte (d : Dev) (n : Nat) (f : LaneTrn → LaneTrn) (a : Nat) : (d.updTrn n f).rdByte a = d.rdByte a := rfl

/-! ### updPrbs -/

@[simp] theorem Dev.updPrbs_regs (d : Dev) (n : Nat) (f : LanePrbs → LanePrbs) : (d.updPrbs n f).regs = d.regs := rfl
@[simp] theorem Dev.updPrbs_mem (d : Dev) (n : Nat) (f : LanePrbs → LanePrbs) : (d.updPrbs n f).mem = d.mem := rfl
@[simp] theorem Dev.updPrbs_up (d : Dev) (n : Nat) (f : LanePrbs → LanePrbs) : (d.updPrbs n f).up = d.up := rfl
@[simp] theorem Dev.updPrbs_ticks (d : Dev) (n : Nat) (f : LanePrbs → LanePrbs) : (d.updPrbs n f).ticks = d.ticks := rfl
@[simp] theorem Dev.updPrbs_time (d : Dev) (n : Nat) (f : LanePrbs → LanePrbs) : (d.updPrbs n f).time = d.time := rfl
@[simp] theorem Dev.updPrbs_ing (d : Dev) (n : Nat) (f : LanePrbs → LanePrbs) : (d.updPrbs n f).ing = d.ing := rfl
@[simp] theorem Dev.updPrbs_panels (d : Dev) (n : Nat) (f : LanePrbs → LanePrbs) : (d.updPrbs n f).panels = d.panels := rfl
@[simp] theorem Dev.updPrbs_isls (d : Dev) (n : Nat) (f : LanePrbs → LanePrbs) : (d.updPrbs n f).isls = d.isls := rfl
@[simp] theorem Dev.updPrbs_egr (d : Dev) (n : Nat) (f : LanePrbs → LanePrbs) : (d.updPrbs n f).egr = d.egr := rfl
@[simp] theorem Dev.updPrbs_evr (d : Dev) (n : Nat) (f : LanePrbs → LanePrbs) : (d.updPrbs n f).evr = d.evr := rfl
@[simp] theorem Dev.updPrbs_pat (d : Dev) (n : Nat) (f : LanePrbs → LanePrbs) : (d.updPrbs n f).pat = d.pat := rfl
@[simp] theorem Dev.updPrbs_spill (d : Dev) (n : Nat) (f : LanePrbs → LanePrbs) : (d.updPrbs n f).spill = d.spill := rfl
@[simp] theorem Dev.updPrbs_rdReg (d : Dev) (n : Nat) (f : LanePrbs → LanePrbs) (r : Reg) : (d.updPrbs n f).rdReg r = d.rdReg r := rfl
@[simp] theorem Dev.updPrbs_get (d : Dev) (n : Nat) (f : LanePrbs → LanePrbs) (e : RF) : (d.updPrbs n f).get e = d.get e := rfl
@[simp] theorem Dev.updPrbs_is (d : Dev) (n : Nat) (f : LanePrbs → LanePrbs) (e : RF) : (d.updPrbs n f).is e = d.is e := rfl
@[simp] theorem Dev.updPrbs_rdByte (d : Dev) (n : Nat) (f : LanePrbs → LanePrbs) (a : Nat) : (d.updPrbs n f).rdByte a = d.rdByte a := rfl

/-! ### setGroup -/

@[simp] theorem Dev.setGroup_regs (d : Dev) (g : Nat) (x : GroupSt) : (d.setGroup g x).regs = d.regs := rfl
@[simp] theorem Dev.setGroup_mem (d : Dev) (g : Nat) (x : GroupSt) : (d.setGroup g x).mem = d.mem := rfl
@[simp] theorem Dev.setGroup_up (d : Dev) (g : Nat) (x : GroupSt) : (d.setGroup g x).up = d.up := rfl
@[simp] theorem Dev.setGroup_ticks (d : Dev) (g : Nat) (x : GroupSt) : (d.setGroup g x).ticks = d.ticks := rfl
@[simp] theorem Dev.setGroup_time (d : Dev) (g : Nat) (x : GroupSt) : (d.setGroup g x).time = d.time := rfl
@[simp] theorem Dev.setGroup_lanes (d : Dev) (g : Nat) (x : GroupSt) : (d.setGroup g x).lanes = d.lanes := rfl
@[simp] theorem Dev.setGroup_panels (d : Dev) (g : Nat) (x : GroupSt) : (d.setGroup g x).panels = d.panels := rfl
@[simp] theorem Dev.setGroup_isls (d : Dev) (g : Nat) (x : GroupSt) : (d.setGroup g x).isls = d.isls := rfl
@[simp] theorem Dev.setGroup_egr (d : Dev) (g : Nat) (x : GroupSt) : (d.setGroup g x).egr = d.egr := rfl
@[simp] theorem Dev.setGroup_evr (d : Dev) (g : Nat) (x : GroupSt) : (d.setGroup g x).evr = d.evr := rfl
@[simp] theorem Dev.setGroup_pat (d : Dev) (g : Nat) (x : GroupSt) : (d.setGroup g x).pat = d.pat := rfl
@[simp] theorem Dev.setGroup_spill (d : Dev) (g : Nat) (x : GroupSt) : (d.setGroup g x).spill = d.spill := rfl
@[simp] theorem Dev.setGroup_rdReg (d : Dev) (g : Nat) (x : GroupSt) (r : Reg) : (d.setGroup g x).rdReg r = d.rdReg r := rfl
@[simp] theorem Dev.setGroup_get (d : Dev) (g : Nat) (x : GroupSt) (e : RF) : (d.setGroup g x).get e = d.get e := rfl
@[simp] theorem Dev.setGroup_is (d : Dev) (g : Nat) (x : GroupSt) (e : RF) : (d.setGroup g x).is e = d.is e := rfl
@[simp] theorem Dev.setGroup_rdByte (d : Dev) (g : Nat) (x : GroupSt) (a : Nat) : (d.setGroup g x).rdByte a = d.rdByte a := rfl
@[simp] theorem Dev.setGroup_same (d : Dev) (g : Nat) (x : GroupSt) : (d.setGroup g x).group g = x := Tab.get_set_same _ _ _ _
theorem Dev.setGroup_other (d : Dev) (g : Nat) (x : GroupSt) (j : Nat) (h : g ≠ j) : (d.setGroup g x).group j = d.group j := Tab.get_set_other _ _ _ _ _ h

/-! ### setStream -/

@[simp] theorem Dev.setStream_regs (d : Dev) (i : Nat) (x : StreamSt) : (d.setStream i x).regs = d.regs := rfl
@[simp] theorem Dev.setStream_mem (d : Dev) (i : Nat) (x : StreamSt) : (d.setStream i x).mem = d.mem := rfl
@[simp] theorem Dev.setStream_up (d : Dev) (i : Nat) (x : StreamSt) : (d.setStream i x).up = d.up := rfl
@[simp] theorem Dev.setStream_ticks (d : Dev) (i : Nat) (x : StreamSt) : (d.setStream i x).ticks = d.ticks := rfl
@[simp] theorem Dev.setStream_time (d : Dev) (i : Nat) (x : StreamSt) : (d.setStream i x).time = d.time := rfl
@[simp] theorem Dev.setStream_lanes (d : Dev) (i : Nat) (x : StreamSt) : (d.setStream i x).lanes = d.lanes := rfl
@[simp] theorem Dev.setStream_panels (d : Dev) (i : Nat) (x : StreamSt) : (d.setStream i x).panels = d.panels := rfl
@[simp] theorem Dev.setStream_isls (d : Dev) (i : Nat) (x : StreamSt) : (d.setStream i x).isls = d.isls := rfl
@[simp] theorem Dev.setStream_egr (d : Dev) (i : Nat) (x : StreamSt) : (d.setStream i x).egr = d.egr := rfl
@[simp] theorem Dev.setStream_evr (d : Dev) (i : Nat) (x : StreamSt) : (d.setStream i x).evr = d.evr := rfl
@[simp] theorem Dev.setStream_pat (d : Dev) (i : Nat) (x : StreamSt) : (d.setStream i x).pat = d.pat := rfl
@[simp] theorem Dev.setStream_spill (d : Dev) (i : Nat) (x : StreamSt) : (d.setStream i x).spill = d.spill := rfl
@[simp] theorem Dev.setStream_rdReg (d : Dev) (i : Nat) (x : StreamSt) (r : Reg) : (d.setStream i x).rdReg r = d.rdReg r := rfl
@[simp] theorem Dev.setStream_get (d : Dev) (i : Nat) (x : StreamSt) (e : RF) : (d.setStream i x).get e = d.get e := rfl
@[simp] theorem Dev.setStream_is (d : Dev) (i : Nat) (x : StreamSt) (e : RF) : (d.setStream i x).is e = d.is e := rfl
@[simp] theorem Dev.setStream_rdByte (d : Dev) (i : Nat) (x : StreamSt) (a : Nat) : (d.setStream i x).rdByte a = d.rdByte a := rfl
@[simp] theorem Dev.setStream_same (d : Dev) (i : Nat) (x : StreamSt) : (d.setStream i x).stream i = x := Tab.get_set_same _ _ _ _
theorem Dev.setStream_other (d : Dev) (i : Nat) (x : StreamSt) (j : Nat) (h : i ≠ j) : (d.setStream i x).stream j = d.stream j := Tab.get_set_other _ _ _ _ _ h

/-! ### setPanel -/

@[simp] theorem Dev.setPanel_regs (d : Dev) (p : Nat) (x : PanelSt) : (d.setPanel p x).regs = d.regs := rfl
@[simp] theorem Dev.setPanel_mem (d : Dev) (p : Nat) (x : PanelSt) : (d.setPanel p x).mem = d.mem := rfl
@[simp] theorem Dev.setPanel_up (d : Dev) (p : Nat) (x : PanelSt) : (d.setPanel p x).up = d.up := rfl
@[simp] theorem Dev.setPanel_ticks (d : Dev) (p : Nat) (x : PanelSt) : (d.setPanel p x).ticks = d.ticks := rfl
@[simp] theorem Dev.setPanel_time (d : Dev) (p : Nat) (x : PanelSt) : (d.setPanel p x).time = d.time := rfl
@[simp] theorem Dev.setPanel_lanes (d : Dev) (p : Nat) (x : PanelSt) : (d.setPanel p x).lanes = d.lanes := rfl
@[simp] theorem Dev.setPanel_ing (d : Dev) (p : Nat) (x : PanelSt) : (d.setPanel p x).ing = d.ing := rfl
@[simp] theorem Dev.setPanel_isls (d : Dev) (p : Nat) (x : PanelSt) : (d.setPanel p x).isls = d.isls := rfl
@[simp] theorem Dev.setPanel_egr (d : Dev) (p : Nat) (x : PanelSt) : (d.setPanel p x).egr = d.egr := rfl
@[simp] theorem Dev.setPanel_evr (d : Dev) (p : Nat) (x : PanelSt) : (d.setPanel p x).evr = d.evr := rfl
@[simp] theorem Dev.setPanel_pat (d : Dev) (p : Nat) (x : PanelSt) : (d.setPanel p x).pat = d.pat := rfl
@[simp] theorem Dev.setPanel_spill (d : Dev) (p : Nat) (x : PanelSt) : (d.setPanel p x).spill = d.spill := rfl
@[simp] theorem Dev.setPanel_rdReg (d : Dev) (p : Nat) (x : PanelSt) (r : Reg) : (d.setPanel p x).rdReg r = d.rdReg r := rfl
@[simp] theorem Dev.setPanel_get (d : Dev) (p : Nat) (x : PanelSt) (e : RF) : (d.setPanel p x).get e = d.get e := rfl
@[simp] theorem Dev.setPanel_is (d : Dev) (p : Nat) (x : PanelSt) (e : RF) : (d.setPanel p x).is e = d.is e := rfl
@[simp] theorem Dev.setPanel_rdByte (d : Dev) (p : Nat) (x : PanelSt) (a : Nat) : (d.setPanel p x).rdByte a = d.rdByte a := rfl
@[simp] theorem Dev.setPanel_same (d : Dev) (p : Nat) (x : PanelSt) : (d.setPanel p x).panel p = x := Tab.get_set_same _ _ _ _
theorem Dev.setPanel_other (d : Dev) (p : Nat) (x : PanelSt) (j : Nat) (h : p ≠ j) : (d.setPanel p x).panel j = d.panel j := Tab.get_set_other _ _ _ _ _ h

/-! ### updPanel -/

@[simp] theorem Dev.updPanel_regs (d : Dev) (p : Nat) (f : PanelSt → PanelSt) : (d.updPanel p f).regs = d.regs := rfl
@[simp] theorem Dev.updPanel_mem (d : Dev) (p : Nat) (f : PanelSt → PanelSt) : (d.updPanel p f).mem = d.mem := rfl
@[simp] theorem Dev.updPanel_up (d : Dev) (p : Nat) (f : PanelSt → PanelSt) : (d.updPanel p f).up = d.up := rfl
@[simp] theorem Dev.updPanel_ticks (d : Dev) (p : Nat) (f : PanelSt → PanelSt) : (d.updPanel p f).ticks = d.ticks := rfl
@[simp] theorem Dev.updPanel_time (d : Dev) (p : Nat) (f : PanelSt → PanelSt) : (d.updPanel p f).time = d.time := rfl
@[simp] theorem Dev.updPanel_lanes (d : Dev) (p : Nat) (f : PanelSt → PanelSt) : (d.updPanel p f).lanes = d.lanes := rfl
@[simp] theorem Dev.updPanel_ing (d : Dev) (p : Nat) (f : PanelSt → PanelSt) : (d.updPanel p f).ing = d.ing := rfl
@[simp] theorem Dev.updPanel_isls (d : Dev) (p : Nat) (f : PanelSt → PanelSt) : (d.updPanel p f).isls = d.isls := rfl
@[simp] theorem Dev.updPanel_egr (d : Dev) (p : Nat) (f : PanelSt → PanelSt) : (d.updPanel p f).egr = d.egr := rfl
@[simp] theorem Dev.updPanel_evr (d : Dev) (p : Nat) (f : PanelSt → PanelSt) : (d.updPanel p f).evr = d.evr := rfl
@[simp] theorem Dev.updPanel_pat (d : Dev) (p : Nat) (f : PanelSt → PanelSt) : (d.updPanel p f).pat = d.pat := rfl
@[simp] theorem Dev.updPanel_spill (d : Dev) (p : Nat) (f : PanelSt → PanelSt) : (d.updPanel p f).spill = d.spill := rfl
@[simp] theorem Dev.updPanel_rdReg (d : Dev) (p : Nat) (f : PanelSt → PanelSt) (r : Reg) : (d.updPanel p f).rdReg r = d.rdReg r := rfl
@[simp] theorem Dev.updPanel_get (d : Dev) (p : Nat) (f : PanelSt → PanelSt) (e : RF) : (d.updPanel p f).get e = d.get e := rfl
@[simp] theorem Dev.updPanel_is (d : Dev) (p : Nat) (f : PanelSt → PanelSt) (e : RF) : (d.updPanel p f).is e = d.is e := rfl
@[simp] theorem Dev.updPanel_rdByte (d : Dev) (p : Nat) (f : PanelSt → PanelSt) (a : Nat) : (d.updPanel p f).rdByte a = d.rdByte a := rfl
@[simp] theorem Dev.updPanel_same (d : Dev) (p : Nat) (f : PanelSt → PanelSt) : (d.updPanel p f).panel p = f (d.panel p) := Tab.get_set_same _ _ _ _
theorem Dev.updPanel_other (d : Dev) (p : Nat) (f : PanelSt → PanelSt) (j : Nat) (h : p ≠ j) : (d.updPanel p f).panel j = d.panel j := Tab.get_set_other _ _ _ _ _ h

/-! ### setIsl -/

@[simp] theorem Dev.setIsl_regs (d : Dev) (k : Nat) (x : IslSt) : (d.setIsl k x).regs = d.regs := rfl
@[simp] theorem Dev.setIsl_mem (d : Dev) (k : Nat) (x : IslSt) : (d.setIsl k x).mem = d.mem := rfl
@[simp] theorem Dev.setIsl_up (d : Dev) (k : Nat) (x : IslSt) : (d.setIsl k x).up = d.up := rfl
@[simp] theorem Dev.setIsl_ticks (d : Dev) (k : Nat) (x : IslSt) : (d.setIsl k x).ticks = d.ticks := rfl
@[simp] theorem Dev.setIsl_time (d : Dev) (k : Nat) (x : IslSt) : (d.setIsl k x).time = d.time := rfl
@[simp] theorem Dev.setIsl_lanes (d : Dev) (k : Nat) (x : IslSt) : (d.setIsl k x).lanes = d.lanes := rfl
@[simp] theorem Dev.setIsl_ing (d : Dev) (k : Nat) (x : IslSt) : (d.setIsl k x).ing = d.ing := rfl
@[simp] theorem Dev.setIsl_panels (d : Dev) (k : Nat) (x : IslSt) : (d.setIsl k x).panels = d.panels := rfl
@[simp] theorem Dev.setIsl_egr (d : Dev) (k : Nat) (x : IslSt) : (d.setIsl k x).egr = d.egr := rfl
@[simp] theorem Dev.setIsl_evr (d : Dev) (k : Nat) (x : IslSt) : (d.setIsl k x).evr = d.evr := rfl
@[simp] theorem Dev.setIsl_pat (d : Dev) (k : Nat) (x : IslSt) : (d.setIsl k x).pat = d.pat := rfl
@[simp] theorem Dev.setIsl_spill (d : Dev) (k : Nat) (x : IslSt) : (d.setIsl k x).spill = d.spill := rfl
@[simp] theorem Dev.setIsl_rdReg (d : Dev) (k : Nat) (x : IslSt) (r : Reg) : (d.setIsl k x).rdReg r = d.rdReg r := rfl
@[simp] theorem Dev.setIsl_get (d : Dev) (k : Nat) (x : IslSt) (e : RF) : (d.setIsl k x).get e = d.get e := rfl
@[simp] theorem Dev.setIsl_is (d : Dev) (k : Nat) (x : IslSt) (e : RF) : (d.setIsl k x).is e = d.is e := rfl
@[simp] theorem Dev.setIsl_rdByte (d : Dev) (k : Nat) (x : IslSt) (a : Nat) : (d.setIsl k x).rdByte a = d.rdByte a := rfl
@[simp] theorem Dev.setIsl_same (d : Dev) (k : Nat) (x : IslSt) : (d.setIsl k x).isl k = x := Tab.get_set_same _ _ _ _
theorem Dev.setIsl_other (d : Dev) (k : Nat) (x : IslSt) (j : Nat) (h : k ≠ j) : (d.setIsl k x).isl j = d.isl j := Tab.get_set_other _ _ _ _ _ h

/-! ### updIsl -/

@[simp] theorem Dev.updIsl_regs (d : Dev) (k : Nat) (f : IslSt → IslSt) : (d.updIsl k f).regs = d.regs := rfl
@[simp] theorem Dev.updIsl_mem (d : Dev) (k : Nat) (f : IslSt → IslSt) : (d.updIsl k f).mem = d.mem := rfl
@[simp] theorem Dev.updIsl_up (d : Dev) (k : Nat) (f : IslSt → IslSt) : (d.updIsl k f).up = d.up := rfl
@[simp] theorem Dev.updIsl_ticks (d : Dev) (k : Nat) (f : IslSt → IslSt) : (d.updIsl k f).ticks = d.ticks := rfl
@[simp] theorem Dev.updIsl_time (d : Dev) (k : Nat) (f : IslSt → IslSt) : (d.updIsl k f).time = d.time := rfl
@[simp] theorem Dev.updIsl_lanes (d : Dev) (k : Nat) (f : IslSt → IslSt) : (d.updIsl k f).lanes = d.lanes := rfl
@[simp] theorem Dev.updIsl_ing (d : Dev) (k : Nat) (f : IslSt → IslSt) : (d.updIsl k f).ing = d.ing := rfl
@[simp] theorem Dev.updIsl_panels (d : Dev) (k : Nat) (f : IslSt → IslSt) : (d.updIsl k f).panels = d.panels := rfl
@[simp] theorem Dev.updIsl_egr (d : Dev) (k : Nat) (f : IslSt → IslSt) : (d.updIsl k f).egr = d.egr := rfl
@[simp] theorem Dev.updIsl_evr (d : Dev) (k : Nat) (f : IslSt → IslSt) : (d.updIsl k f).evr = d.evr := rfl
@[simp] theorem Dev.updIsl_pat (d : Dev) (k : Nat) (f : IslSt → IslSt) : (d.updIsl k f).pat = d.pat := rfl
@[simp] theorem Dev.updIsl_spill (d : Dev) (k : Nat) (f : IslSt → IslSt) : (d.updIsl k f).spill = d.spill := rfl
@[simp] theorem Dev.updIsl_rdReg (d : Dev) (k : Nat) (f : IslSt → IslSt) (r : Reg) : (d.updIsl k f).rdReg r = d.rdReg r := rfl
@[simp] theorem Dev.updIsl_get (d : Dev) (k : Nat) (f : IslSt → IslSt) (e : RF) : (d.updIsl k f).get e = d.get e := rfl
@[simp] theorem Dev.updIsl_is (d : Dev) (k : Nat) (f : IslSt → IslSt) (e : RF) : (d.updIsl k f).is e = d.is e := rfl
@[simp] theorem Dev.updIsl_rdByte (d : Dev) (k : Nat) (f : IslSt → IslSt) (a : Nat) : (d.updIsl k f).rdByte a = d.rdByte a := rfl
@[simp] theorem Dev.updIsl_same (d : Dev) (k : Nat) (f : IslSt → IslSt) : (d.updIsl k f).isl k = f (d.isl k) := Tab.get_set_same _ _ _ _
theorem Dev.updIsl_other (d : Dev) (k : Nat) (f : IslSt → IslSt) (j : Nat) (h : k ≠ j) : (d.updIsl k f).isl j = d.isl j := Tab.get_set_other _ _ _ _ _ h

/-! ### setAwl -/

@[simp] theorem Dev.setAwl_regs (d : Dev) (n : Nat) (x : AwlSt) : (d.setAwl n x).regs = d.regs := rfl
@[simp] theorem Dev.setAwl_mem (d : Dev) (n : Nat) (x : AwlSt) : (d.setAwl n x).mem = d.mem := rfl
@[simp] theorem Dev.setAwl_up (d : Dev) (n : Nat) (x : AwlSt) : (d.setAwl n x).up = d.up := rfl
@[simp] theorem Dev.setAwl_ticks (d : Dev) (n : Nat) (x : AwlSt) : (d.setAwl n x).ticks = d.ticks := rfl
@[simp] theorem Dev.setAwl_time (d : Dev) (n : Nat) (x : AwlSt) : (d.setAwl n x).time = d.time := rfl
@[simp] theorem Dev.setAwl_lanes (d : Dev) (n : Nat) (x : AwlSt) : (d.setAwl n x).lanes = d.lanes := rfl
@[simp] theorem Dev.setAwl_ing (d : Dev) (n : Nat) (x : AwlSt) : (d.setAwl n x).ing = d.ing := rfl
@[simp] theorem Dev.setAwl_panels (d : Dev) (n : Nat) (x : AwlSt) : (d.setAwl n x).panels = d.panels := rfl
@[simp] theorem Dev.setAwl_isls (d : Dev) (n : Nat) (x : AwlSt) : (d.setAwl n x).isls = d.isls := rfl
@[simp] theorem Dev.setAwl_egr (d : Dev) (n : Nat) (x : AwlSt) : (d.setAwl n x).egr = d.egr := rfl
@[simp] theorem Dev.setAwl_evr (d : Dev) (n : Nat) (x : AwlSt) : (d.setAwl n x).evr = d.evr := rfl
@[simp] theorem Dev.setAwl_pat (d : Dev) (n : Nat) (x : AwlSt) : (d.setAwl n x).pat = d.pat := rfl
@[simp] theorem Dev.setAwl_spill (d : Dev) (n : Nat) (x : AwlSt) : (d.setAwl n x).spill = d.spill := rfl
@[simp] theorem Dev.setAwl_rdReg (d : Dev) (n : Nat) (x : AwlSt) (r : Reg) : (d.setAwl n x).rdReg r = d.rdReg r := rfl
@[simp] theorem Dev.setAwl_get (d : Dev) (n : Nat) (x : AwlSt) (e : RF) : (d.setAwl n x).get e = d.get e := rfl
@[simp] theorem Dev.setAwl_is (d : Dev) (n : Nat) (x : AwlSt) (e : RF) : (d.setAwl n x).is e = d.is e := rfl
@[simp] theorem Dev.setAwl_rdByte (d : Dev) (n : Nat) (x : AwlSt) (a : Nat) : (d.setAwl n x).rdByte a = d.rdByte a := rfl
@[simp] theorem Dev.setAwl_same (d : Dev) (n : Nat) (x : AwlSt) : (d.setAwl n x).awl1 n = x := Tab.get_set_same _ _ _ _
theorem Dev.setAwl_other (d : Dev) (n : Nat) (x : AwlSt) (j : Nat) (h : n ≠ j) : (d.setAwl n x).awl1 j = d.awl1 j := Tab.get_set_other _ _ _ _ _ h

/-! ### updAwl -/

@[simp] theorem Dev.updAwl_regs (d : Dev) (n : Nat) (f : AwlSt → AwlSt) : (d.updAwl n f).regs = d.regs := rfl
@[simp] theorem Dev.updAwl_mem (d : Dev) (n : Nat) (f : AwlSt → AwlSt) : (d.updAwl n f).mem = d.mem := rfl
@[simp] theorem Dev.updAwl_up (d : Dev) (n : Nat) (f : AwlSt → AwlSt) : (d.updAwl n f).up = d.up := rfl
@[simp] theorem Dev.updAwl_ticks (d : Dev) (n : Nat) (f : AwlSt → AwlSt) : (d.updAwl n f).ticks = d.ticks := rfl
@[simp] theorem Dev.updAwl_time (d : Dev) (n : Nat) (f : AwlSt → AwlSt) : (d.updAwl n f).time = d.time := rfl
@[simp] theorem Dev.updAwl_lanes (d : Dev) (n : Nat) (f : AwlSt → AwlSt) : (d.updAwl n f).lanes = d.lanes := rfl
@[simp] theorem Dev.updAwl_ing (d : Dev) (n : Nat) (f : AwlSt → AwlSt) : (d.updAwl n f).ing = d.ing := rfl
@[simp] theorem Dev.updAwl_panels (d : Dev) (n : Nat) (f : AwlSt → AwlSt) : (d.updAwl n f).panels = d.panels := rfl
@[simp] theorem Dev.updAwl_isls (d : Dev) (n : Nat) (f : AwlSt → AwlSt) : (d.updAwl n f).isls = d.isls := rfl
@[simp] theorem Dev.updAwl_egr (d : Dev) (n : Nat) (f : AwlSt → AwlSt) : (d.updAwl n f).egr = d.egr := rfl
@[simp] theorem Dev.updAwl_evr (d : Dev) (n : Nat) (f : AwlSt → AwlSt) : (d.updAwl n f).evr = d.evr := rfl
@[simp] theorem Dev.updAwl_pat (d : Dev) (n : Nat) (f : AwlSt → AwlSt) : (d.updAwl n f).pat = d.pat := rfl
@[simp] theorem Dev.updAwl_spill (d : Dev) (n : Nat) (f : AwlSt → AwlSt) : (d.updAwl n f).spill = d.spill := rfl
@[simp] theorem Dev.updAwl_rdReg (d : Dev) (n : Nat) (f : AwlSt → AwlSt) (r : Reg) : (d.updAwl n f).rdReg r = d.rdReg r := rfl
@[simp] theorem Dev.updAwl_get (d : Dev) (n : Nat) (f : AwlSt → AwlSt) (e : RF) : (d.updAwl n f).get e = d.get e := rfl
@[simp] theorem Dev.updAwl_is (d : Dev) (n : Nat) (f : AwlSt → AwlSt) (e : RF) : (d.updAwl n f).is e = d.is e := rfl
@[simp] theorem Dev.updAwl_rdByte (d : Dev) (n : Nat) (f : AwlSt → AwlSt) (a : Nat) : (d.updAwl n f).rdByte a = d.rdByte a := rfl
@[simp] theorem Dev.updAwl_same (d : Dev) (n : Nat) (f : AwlSt → AwlSt) : (d.updAwl n f).awl1 n = f (d.awl1 n) := Tab.get_set_same _ _ _ _
theorem Dev.updAwl_other (d : Dev) (n : Nat) (f : AwlSt → AwlSt) (j : Nat) (h : n ≠ j) : (d.updAwl n f).awl1 j = d.awl1 j := Tab.get_set_other _ _ _ _ _ h

/-! ### updEgr -/

@[simp] theorem Dev.updEgr_regs (d : Dev) (f : EgrSt → EgrSt) : (d.updEgr f).regs = d.regs := rfl
@[simp] theorem Dev.updEgr_mem (d : Dev) (f : EgrSt → EgrSt) : (d.updEgr f).mem = d.mem := rfl
@[simp] theorem Dev.updEgr_up (d : Dev) (f : EgrSt → EgrSt) : (d.updEgr f).up = d.up := rfl
@[simp] theorem Dev.updEgr_ticks (d : Dev) (f : EgrSt → EgrSt) : (d.updEgr f).ticks = d.ticks := rfl
@[simp] theorem Dev.updEgr_time (d : Dev) (f : EgrSt → EgrSt) : (d.updEgr f).time = d.time := rfl
@[simp] theorem Dev.updEgr_lanes (d : Dev) (f : EgrSt → EgrSt) : (d.updEgr f).lanes = d.lanes := rfl
@[simp] theorem Dev.updEgr_ing (d : Dev) (f : EgrSt → EgrSt) : (d.updEgr f).ing = d.ing := rfl
@[simp] theorem Dev.updEgr_panels (d : Dev) (f : EgrSt → EgrSt) : (d.updEgr f).panels = d.panels := rfl
@[simp] theorem Dev.updEgr_isls (d : Dev) (f : EgrSt → EgrSt) : (d.updEgr f).isls = d.isls := rfl
@[simp] theorem Dev.updEgr_evr (d : Dev) (f : EgrSt → EgrSt) : (d.updEgr f).evr = d.evr := rfl
@[simp] theorem Dev.updEgr_pat (d : Dev) (f : EgrSt → EgrSt) : (d.updEgr f).pat = d.pat := rfl
@[simp] theorem Dev.updEgr_spill (d : Dev) (f : EgrSt → EgrSt) : (d.updEgr f).spill = d.spill := rfl
@[simp] theorem Dev.updEgr_rdReg (d : Dev) (f : EgrSt → EgrSt) (r : Reg) : (d.updEgr f).rdReg r = d.rdReg r := rfl
@[simp] theorem Dev.updEgr_get (d : Dev) (f : EgrSt → EgrSt) (e : RF) : (d.updEgr f).get e = d.get e := rfl
@[simp] theorem Dev.updEgr_is (d : Dev) (f : EgrSt → EgrSt) (e : RF) : (d.updEgr f).is e = d.is e := rfl
@[simp] theorem Dev.updEgr_rdByte (d : Dev) (f : EgrSt → EgrSt) (a : Nat) : (d.updEgr f).rdByte a = d.rdByte a := rfl

/-! ### setRing -/

@[simp] theorem Dev.setRing_regs (d : Dev) (q : Nat) (x : RingSt) : (d.setRing q x).regs = d.regs := rfl
@[simp] theorem Dev.setRing_mem (d : Dev) (q : Nat) (x : RingSt) : (d.setRing q x).mem = d.mem := rfl
@[simp] theorem Dev.setRing_up (d : Dev) (q : Nat) (x : RingSt) : (d.setRing q x).up = d.up := rfl
@[simp] theorem Dev.setRing_ticks (d : Dev) (q : Nat) (x : RingSt) : (d.setRing q x).ticks = d.ticks := rfl
@[simp] theorem Dev.setRing_time (d : Dev) (q : Nat) (x : RingSt) : (d.setRing q x).time = d.time := rfl
@[simp] theorem Dev.setRing_lanes (d : Dev) (q : Nat) (x : RingSt) : (d.setRing q x).lanes = d.lanes := rfl
@[simp] theorem Dev.setRing_ing (d : Dev) (q : Nat) (x : RingSt) : (d.setRing q x).ing = d.ing := rfl
@[simp] theorem Dev.setRing_panels (d : Dev) (q : Nat) (x : RingSt) : (d.setRing q x).panels = d.panels := rfl
@[simp] theorem Dev.setRing_isls (d : Dev) (q : Nat) (x : RingSt) : (d.setRing q x).isls = d.isls := rfl
@[simp] theorem Dev.setRing_evr (d : Dev) (q : Nat) (x : RingSt) : (d.setRing q x).evr = d.evr := rfl
@[simp] theorem Dev.setRing_pat (d : Dev) (q : Nat) (x : RingSt) : (d.setRing q x).pat = d.pat := rfl
@[simp] theorem Dev.setRing_spill (d : Dev) (q : Nat) (x : RingSt) : (d.setRing q x).spill = d.spill := rfl
@[simp] theorem Dev.setRing_rdReg (d : Dev) (q : Nat) (x : RingSt) (r : Reg) : (d.setRing q x).rdReg r = d.rdReg r := rfl
@[simp] theorem Dev.setRing_get (d : Dev) (q : Nat) (x : RingSt) (e : RF) : (d.setRing q x).get e = d.get e := rfl
@[simp] theorem Dev.setRing_is (d : Dev) (q : Nat) (x : RingSt) (e : RF) : (d.setRing q x).is e = d.is e := rfl
@[simp] theorem Dev.setRing_rdByte (d : Dev) (q : Nat) (x : RingSt) (a : Nat) : (d.setRing q x).rdByte a = d.rdByte a := rfl
@[simp] theorem Dev.setRing_same (d : Dev) (q : Nat) (x : RingSt) : (d.setRing q x).ring q = x := Tab.get_set_same _ _ _ _
theorem Dev.setRing_other (d : Dev) (q : Nat) (x : RingSt) (j : Nat) (h : q ≠ j) : (d.setRing q x).ring j = d.ring j := Tab.get_set_other _ _ _ _ _ h

/-! ### setQueue -/

@[simp] theorem Dev.setQueue_regs (d : Dev) (q : Nat) (l : List EgrUnit) : (d.setQueue q l).regs = d.regs := rfl
@[simp] theorem Dev.setQueue_mem (d : Dev) (q : Nat) (l : List EgrUnit) : (d.setQueue q l).mem = d.mem := rfl
@[simp] theorem Dev.setQueue_up (d : Dev) (q : Nat) (l : List EgrUnit) : (d.setQueue q l).up = d.up := rfl
@[simp] theorem Dev.setQueue_ticks (d : Dev) (q : Nat) (l : List EgrUnit) : (d.setQueue q l).ticks = d.ticks := rfl
@[simp] theorem Dev.setQueue_time (d : Dev) (q : Nat) (l : List EgrUnit) : (d.setQueue q l).time = d.time := rfl
@[simp] theorem Dev.setQueue_lanes (d : Dev) (q : Nat) (l : List EgrUnit) : (d.setQueue q l).lanes = d.lanes := rfl
@[simp] theorem Dev.setQueue_ing (d : Dev) (q : Nat) (l : List EgrUnit) : (d.setQueue q l).ing = d.ing := rfl
@[simp] theorem Dev.setQueue_panels (d : Dev) (q : Nat) (l : List EgrUnit) : (d.setQueue q l).panels = d.panels := rfl
@[simp] theorem Dev.setQueue_isls (d : Dev) (q : Nat) (l : List EgrUnit) : (d.setQueue q l).isls = d.isls := rfl
@[simp] theorem Dev.setQueue_evr (d : Dev) (q : Nat) (l : List EgrUnit) : (d.setQueue q l).evr = d.evr := rfl
@[simp] theorem Dev.setQueue_pat (d : Dev) (q : Nat) (l : List EgrUnit) : (d.setQueue q l).pat = d.pat := rfl
@[simp] theorem Dev.setQueue_spill (d : Dev) (q : Nat) (l : List EgrUnit) : (d.setQueue q l).spill = d.spill := rfl
@[simp] theorem Dev.setQueue_rdReg (d : Dev) (q : Nat) (l : List EgrUnit) (r : Reg) : (d.setQueue q l).rdReg r = d.rdReg r := rfl
@[simp] theorem Dev.setQueue_get (d : Dev) (q : Nat) (l : List EgrUnit) (e : RF) : (d.setQueue q l).get e = d.get e := rfl
@[simp] theorem Dev.setQueue_is (d : Dev) (q : Nat) (l : List EgrUnit) (e : RF) : (d.setQueue q l).is e = d.is e := rfl
@[simp] theorem Dev.setQueue_rdByte (d : Dev) (q : Nat) (l : List EgrUnit) (a : Nat) : (d.setQueue q l).rdByte a = d.rdByte a := rfl
@[simp] theorem Dev.setQueue_same (d : Dev) (q : Nat) (l : List EgrUnit) : (d.setQueue q l).queue q = l := Tab.get_set_same _ _ _ _
theorem Dev.setQueue_other (d : Dev) (q : Nat) (l : List EgrUnit) (j : Nat) (h : q ≠ j) : (d.setQueue q l).queue j = d.queue j := Tab.get_set_other _ _ _ _ _ h

/-! ### setWin -/

@[simp] theorem Dev.setWin_regs (d : Dev) (w : Nat) (x : WinSt) : (d.setWin w x).regs = d.regs := rfl
@[simp] theorem Dev.setWin_mem (d : Dev) (w : Nat) (x : WinSt) : (d.setWin w x).mem = d.mem := rfl
@[simp] theorem Dev.setWin_up (d : Dev) (w : Nat) (x : WinSt) : (d.setWin w x).up = d.up := rfl
@[simp] theorem Dev.setWin_ticks (d : Dev) (w : Nat) (x : WinSt) : (d.setWin w x).ticks = d.ticks := rfl
@[simp] theorem Dev.setWin_time (d : Dev) (w : Nat) (x : WinSt) : (d.setWin w x).time = d.time := rfl
@[simp] theorem Dev.setWin_lanes (d : Dev) (w : Nat) (x : WinSt) : (d.setWin w x).lanes = d.lanes := rfl
@[simp] theorem Dev.setWin_ing (d : Dev) (w : Nat) (x : WinSt) : (d.setWin w x).ing = d.ing := rfl
@[simp] theorem Dev.setWin_panels (d : Dev) (w : Nat) (x : WinSt) : (d.setWin w x).panels = d.panels := rfl
@[simp] theorem Dev.setWin_isls (d : Dev) (w : Nat) (x : WinSt) : (d.setWin w x).isls = d.isls := rfl
@[simp] theorem Dev.setWin_evr (d : Dev) (w : Nat) (x : WinSt) : (d.setWin w x).evr = d.evr := rfl
@[simp] theorem Dev.setWin_pat (d : Dev) (w : Nat) (x : WinSt) : (d.setWin w x).pat = d.pat := rfl
@[simp] theorem Dev.setWin_spill (d : Dev) (w : Nat) (x : WinSt) : (d.setWin w x).spill = d.spill := rfl
@[simp] theorem Dev.setWin_rdReg (d : Dev) (w : Nat) (x : WinSt) (r : Reg) : (d.setWin w x).rdReg r = d.rdReg r := rfl
@[simp] theorem Dev.setWin_get (d : Dev) (w : Nat) (x : WinSt) (e : RF) : (d.setWin w x).get e = d.get e := rfl
@[simp] theorem Dev.setWin_is (d : Dev) (w : Nat) (x : WinSt) (e : RF) : (d.setWin w x).is e = d.is e := rfl
@[simp] theorem Dev.setWin_rdByte (d : Dev) (w : Nat) (x : WinSt) (a : Nat) : (d.setWin w x).rdByte a = d.rdByte a := rfl
@[simp] theorem Dev.setWin_same (d : Dev) (w : Nat) (x : WinSt) : (d.setWin w x).win w = x := Tab.get_set_same _ _ _ _
theorem Dev.setWin_other (d : Dev) (w : Nat) (x : WinSt) (j : Nat) (h : w ≠ j) : (d.setWin w x).win j = d.win j := Tab.get_set_other _ _ _ _ _ h

/-! ### setIntc -/

@[simp] theorem Dev.setIntc_regs (d : Dev) (x : IntcSt) : (d.setIntc x).regs = d.regs := rfl
@[simp] theorem Dev.setIntc_mem (d : Dev) (x : IntcSt) : (d.setIntc x).mem = d.mem := rfl
@[simp] theorem Dev.setIntc_up (d : Dev) (x : IntcSt) : (d.setIntc x).up = d.up := rfl
@[simp] theorem Dev.setIntc_ticks (d : Dev) (x : IntcSt) : (d.setIntc x).ticks = d.ticks := rfl
@[simp] theorem Dev.setIntc_time (d : Dev) (x : IntcSt) : (d.setIntc x).time = d.time := rfl
@[simp] theorem Dev.setIntc_lanes (d : Dev) (x : IntcSt) : (d.setIntc x).lanes = d.lanes := rfl
@[simp] theorem Dev.setIntc_ing (d : Dev) (x : IntcSt) : (d.setIntc x).ing = d.ing := rfl
@[simp] theorem Dev.setIntc_panels (d : Dev) (x : IntcSt) : (d.setIntc x).panels = d.panels := rfl
@[simp] theorem Dev.setIntc_isls (d : Dev) (x : IntcSt) : (d.setIntc x).isls = d.isls := rfl
@[simp] theorem Dev.setIntc_egr (d : Dev) (x : IntcSt) : (d.setIntc x).egr = d.egr := rfl
@[simp] theorem Dev.setIntc_evr (d : Dev) (x : IntcSt) : (d.setIntc x).evr = d.evr := rfl
@[simp] theorem Dev.setIntc_pat (d : Dev) (x : IntcSt) : (d.setIntc x).pat = d.pat := rfl
@[simp] theorem Dev.setIntc_spill (d : Dev) (x : IntcSt) : (d.setIntc x).spill = d.spill := rfl
@[simp] theorem Dev.setIntc_rdReg (d : Dev) (x : IntcSt) (r : Reg) : (d.setIntc x).rdReg r = d.rdReg r := rfl
@[simp] theorem Dev.setIntc_get (d : Dev) (x : IntcSt) (e : RF) : (d.setIntc x).get e = d.get e := rfl
@[simp] theorem Dev.setIntc_is (d : Dev) (x : IntcSt) (e : RF) : (d.setIntc x).is e = d.is e := rfl
@[simp] theorem Dev.setIntc_rdByte (d : Dev) (x : IntcSt) (a : Nat) : (d.setIntc x).rdByte a = d.rdByte a := rfl

/-! ### setHart -/

@[simp] theorem Dev.setHart_regs (d : Dev) (i : Nat) (x : HartSt) : (d.setHart i x).regs = d.regs := rfl
@[simp] theorem Dev.setHart_mem (d : Dev) (i : Nat) (x : HartSt) : (d.setHart i x).mem = d.mem := rfl
@[simp] theorem Dev.setHart_up (d : Dev) (i : Nat) (x : HartSt) : (d.setHart i x).up = d.up := rfl
@[simp] theorem Dev.setHart_ticks (d : Dev) (i : Nat) (x : HartSt) : (d.setHart i x).ticks = d.ticks := rfl
@[simp] theorem Dev.setHart_time (d : Dev) (i : Nat) (x : HartSt) : (d.setHart i x).time = d.time := rfl
@[simp] theorem Dev.setHart_lanes (d : Dev) (i : Nat) (x : HartSt) : (d.setHart i x).lanes = d.lanes := rfl
@[simp] theorem Dev.setHart_ing (d : Dev) (i : Nat) (x : HartSt) : (d.setHart i x).ing = d.ing := rfl
@[simp] theorem Dev.setHart_panels (d : Dev) (i : Nat) (x : HartSt) : (d.setHart i x).panels = d.panels := rfl
@[simp] theorem Dev.setHart_isls (d : Dev) (i : Nat) (x : HartSt) : (d.setHart i x).isls = d.isls := rfl
@[simp] theorem Dev.setHart_egr (d : Dev) (i : Nat) (x : HartSt) : (d.setHart i x).egr = d.egr := rfl
@[simp] theorem Dev.setHart_evr (d : Dev) (i : Nat) (x : HartSt) : (d.setHart i x).evr = d.evr := rfl
@[simp] theorem Dev.setHart_pat (d : Dev) (i : Nat) (x : HartSt) : (d.setHart i x).pat = d.pat := rfl
@[simp] theorem Dev.setHart_spill (d : Dev) (i : Nat) (x : HartSt) : (d.setHart i x).spill = d.spill := rfl
@[simp] theorem Dev.setHart_rdReg (d : Dev) (i : Nat) (x : HartSt) (r : Reg) : (d.setHart i x).rdReg r = d.rdReg r := rfl
@[simp] theorem Dev.setHart_get (d : Dev) (i : Nat) (x : HartSt) (e : RF) : (d.setHart i x).get e = d.get e := rfl
@[simp] theorem Dev.setHart_is (d : Dev) (i : Nat) (x : HartSt) (e : RF) : (d.setHart i x).is e = d.is e := rfl
@[simp] theorem Dev.setHart_rdByte (d : Dev) (i : Nat) (x : HartSt) (a : Nat) : (d.setHart i x).rdByte a = d.rdByte a := rfl
@[simp] theorem Dev.setHart_same (d : Dev) (i : Nat) (x : HartSt) : (d.setHart i x).hart i = x := Tab.get_set_same _ _ _ _
theorem Dev.setHart_other (d : Dev) (i : Nat) (x : HartSt) (j : Nat) (h : i ≠ j) : (d.setHart i x).hart j = d.hart j := Tab.get_set_other _ _ _ _ _ h

/-! ### setMgmt -/

@[simp] theorem Dev.setMgmt_regs (d : Dev) (x : MgmtSt) : (d.setMgmt x).regs = d.regs := rfl
@[simp] theorem Dev.setMgmt_mem (d : Dev) (x : MgmtSt) : (d.setMgmt x).mem = d.mem := rfl
@[simp] theorem Dev.setMgmt_up (d : Dev) (x : MgmtSt) : (d.setMgmt x).up = d.up := rfl
@[simp] theorem Dev.setMgmt_ticks (d : Dev) (x : MgmtSt) : (d.setMgmt x).ticks = d.ticks := rfl
@[simp] theorem Dev.setMgmt_time (d : Dev) (x : MgmtSt) : (d.setMgmt x).time = d.time := rfl
@[simp] theorem Dev.setMgmt_lanes (d : Dev) (x : MgmtSt) : (d.setMgmt x).lanes = d.lanes := rfl
@[simp] theorem Dev.setMgmt_ing (d : Dev) (x : MgmtSt) : (d.setMgmt x).ing = d.ing := rfl
@[simp] theorem Dev.setMgmt_panels (d : Dev) (x : MgmtSt) : (d.setMgmt x).panels = d.panels := rfl
@[simp] theorem Dev.setMgmt_isls (d : Dev) (x : MgmtSt) : (d.setMgmt x).isls = d.isls := rfl
@[simp] theorem Dev.setMgmt_egr (d : Dev) (x : MgmtSt) : (d.setMgmt x).egr = d.egr := rfl
@[simp] theorem Dev.setMgmt_evr (d : Dev) (x : MgmtSt) : (d.setMgmt x).evr = d.evr := rfl
@[simp] theorem Dev.setMgmt_pat (d : Dev) (x : MgmtSt) : (d.setMgmt x).pat = d.pat := rfl
@[simp] theorem Dev.setMgmt_spill (d : Dev) (x : MgmtSt) : (d.setMgmt x).spill = d.spill := rfl
@[simp] theorem Dev.setMgmt_rdReg (d : Dev) (x : MgmtSt) (r : Reg) : (d.setMgmt x).rdReg r = d.rdReg r := rfl
@[simp] theorem Dev.setMgmt_get (d : Dev) (x : MgmtSt) (e : RF) : (d.setMgmt x).get e = d.get e := rfl
@[simp] theorem Dev.setMgmt_is (d : Dev) (x : MgmtSt) (e : RF) : (d.setMgmt x).is e = d.is e := rfl
@[simp] theorem Dev.setMgmt_rdByte (d : Dev) (x : MgmtSt) (a : Nat) : (d.setMgmt x).rdByte a = d.rdByte a := rfl

/-! ### setMon -/

@[simp] theorem Dev.setMon_regs (d : Dev) (o : Nat) (x : MonSt) : (d.setMon o x).regs = d.regs := rfl
@[simp] theorem Dev.setMon_mem (d : Dev) (o : Nat) (x : MonSt) : (d.setMon o x).mem = d.mem := rfl
@[simp] theorem Dev.setMon_up (d : Dev) (o : Nat) (x : MonSt) : (d.setMon o x).up = d.up := rfl
@[simp] theorem Dev.setMon_ticks (d : Dev) (o : Nat) (x : MonSt) : (d.setMon o x).ticks = d.ticks := rfl
@[simp] theorem Dev.setMon_time (d : Dev) (o : Nat) (x : MonSt) : (d.setMon o x).time = d.time := rfl
@[simp] theorem Dev.setMon_lanes (d : Dev) (o : Nat) (x : MonSt) : (d.setMon o x).lanes = d.lanes := rfl
@[simp] theorem Dev.setMon_ing (d : Dev) (o : Nat) (x : MonSt) : (d.setMon o x).ing = d.ing := rfl
@[simp] theorem Dev.setMon_panels (d : Dev) (o : Nat) (x : MonSt) : (d.setMon o x).panels = d.panels := rfl
@[simp] theorem Dev.setMon_isls (d : Dev) (o : Nat) (x : MonSt) : (d.setMon o x).isls = d.isls := rfl
@[simp] theorem Dev.setMon_egr (d : Dev) (o : Nat) (x : MonSt) : (d.setMon o x).egr = d.egr := rfl
@[simp] theorem Dev.setMon_evr (d : Dev) (o : Nat) (x : MonSt) : (d.setMon o x).evr = d.evr := rfl
@[simp] theorem Dev.setMon_pat (d : Dev) (o : Nat) (x : MonSt) : (d.setMon o x).pat = d.pat := rfl
@[simp] theorem Dev.setMon_spill (d : Dev) (o : Nat) (x : MonSt) : (d.setMon o x).spill = d.spill := rfl
@[simp] theorem Dev.setMon_rdReg (d : Dev) (o : Nat) (x : MonSt) (r : Reg) : (d.setMon o x).rdReg r = d.rdReg r := rfl
@[simp] theorem Dev.setMon_get (d : Dev) (o : Nat) (x : MonSt) (e : RF) : (d.setMon o x).get e = d.get e := rfl
@[simp] theorem Dev.setMon_is (d : Dev) (o : Nat) (x : MonSt) (e : RF) : (d.setMon o x).is e = d.is e := rfl
@[simp] theorem Dev.setMon_rdByte (d : Dev) (o : Nat) (x : MonSt) (a : Nat) : (d.setMon o x).rdByte a = d.rdByte a := rfl
@[simp] theorem Dev.setMon_same (d : Dev) (o : Nat) (x : MonSt) : (d.setMon o x).mon1 o = x := Tab.get_set_same _ _ _ _
theorem Dev.setMon_other (d : Dev) (o : Nat) (x : MonSt) (j : Nat) (h : o ≠ j) : (d.setMon o x).mon1 j = d.mon1 j := Tab.get_set_other _ _ _ _ _ h

/-! ### setWelt -/

@[simp] theorem Dev.setWelt_regs (d : Dev) (x : WeltSt) : (d.setWelt x).regs = d.regs := rfl
@[simp] theorem Dev.setWelt_mem (d : Dev) (x : WeltSt) : (d.setWelt x).mem = d.mem := rfl
@[simp] theorem Dev.setWelt_up (d : Dev) (x : WeltSt) : (d.setWelt x).up = d.up := rfl
@[simp] theorem Dev.setWelt_ticks (d : Dev) (x : WeltSt) : (d.setWelt x).ticks = d.ticks := rfl
@[simp] theorem Dev.setWelt_time (d : Dev) (x : WeltSt) : (d.setWelt x).time = d.time := rfl
@[simp] theorem Dev.setWelt_lanes (d : Dev) (x : WeltSt) : (d.setWelt x).lanes = d.lanes := rfl
@[simp] theorem Dev.setWelt_ing (d : Dev) (x : WeltSt) : (d.setWelt x).ing = d.ing := rfl
@[simp] theorem Dev.setWelt_panels (d : Dev) (x : WeltSt) : (d.setWelt x).panels = d.panels := rfl
@[simp] theorem Dev.setWelt_isls (d : Dev) (x : WeltSt) : (d.setWelt x).isls = d.isls := rfl
@[simp] theorem Dev.setWelt_egr (d : Dev) (x : WeltSt) : (d.setWelt x).egr = d.egr := rfl
@[simp] theorem Dev.setWelt_evr (d : Dev) (x : WeltSt) : (d.setWelt x).evr = d.evr := rfl
@[simp] theorem Dev.setWelt_pat (d : Dev) (x : WeltSt) : (d.setWelt x).pat = d.pat := rfl
@[simp] theorem Dev.setWelt_spill (d : Dev) (x : WeltSt) : (d.setWelt x).spill = d.spill := rfl
@[simp] theorem Dev.setWelt_rdReg (d : Dev) (x : WeltSt) (r : Reg) : (d.setWelt x).rdReg r = d.rdReg r := rfl
@[simp] theorem Dev.setWelt_get (d : Dev) (x : WeltSt) (e : RF) : (d.setWelt x).get e = d.get e := rfl
@[simp] theorem Dev.setWelt_is (d : Dev) (x : WeltSt) (e : RF) : (d.setWelt x).is e = d.is e := rfl
@[simp] theorem Dev.setWelt_rdByte (d : Dev) (x : WeltSt) (a : Nat) : (d.setWelt x).rdByte a = d.rdByte a := rfl

/-! ### setDma -/

@[simp] theorem Dev.setDma_regs (d : Dev) (c : Nat) (x : DmaCh) : (d.setDma c x).regs = d.regs := rfl
@[simp] theorem Dev.setDma_mem (d : Dev) (c : Nat) (x : DmaCh) : (d.setDma c x).mem = d.mem := rfl
@[simp] theorem Dev.setDma_up (d : Dev) (c : Nat) (x : DmaCh) : (d.setDma c x).up = d.up := rfl
@[simp] theorem Dev.setDma_ticks (d : Dev) (c : Nat) (x : DmaCh) : (d.setDma c x).ticks = d.ticks := rfl
@[simp] theorem Dev.setDma_time (d : Dev) (c : Nat) (x : DmaCh) : (d.setDma c x).time = d.time := rfl
@[simp] theorem Dev.setDma_lanes (d : Dev) (c : Nat) (x : DmaCh) : (d.setDma c x).lanes = d.lanes := rfl
@[simp] theorem Dev.setDma_ing (d : Dev) (c : Nat) (x : DmaCh) : (d.setDma c x).ing = d.ing := rfl
@[simp] theorem Dev.setDma_panels (d : Dev) (c : Nat) (x : DmaCh) : (d.setDma c x).panels = d.panels := rfl
@[simp] theorem Dev.setDma_isls (d : Dev) (c : Nat) (x : DmaCh) : (d.setDma c x).isls = d.isls := rfl
@[simp] theorem Dev.setDma_egr (d : Dev) (c : Nat) (x : DmaCh) : (d.setDma c x).egr = d.egr := rfl
@[simp] theorem Dev.setDma_evr (d : Dev) (c : Nat) (x : DmaCh) : (d.setDma c x).evr = d.evr := rfl
@[simp] theorem Dev.setDma_pat (d : Dev) (c : Nat) (x : DmaCh) : (d.setDma c x).pat = d.pat := rfl
@[simp] theorem Dev.setDma_spill (d : Dev) (c : Nat) (x : DmaCh) : (d.setDma c x).spill = d.spill := rfl
@[simp] theorem Dev.setDma_rdReg (d : Dev) (c : Nat) (x : DmaCh) (r : Reg) : (d.setDma c x).rdReg r = d.rdReg r := rfl
@[simp] theorem Dev.setDma_get (d : Dev) (c : Nat) (x : DmaCh) (e : RF) : (d.setDma c x).get e = d.get e := rfl
@[simp] theorem Dev.setDma_is (d : Dev) (c : Nat) (x : DmaCh) (e : RF) : (d.setDma c x).is e = d.is e := rfl
@[simp] theorem Dev.setDma_rdByte (d : Dev) (c : Nat) (x : DmaCh) (a : Nat) : (d.setDma c x).rdByte a = d.rdByte a := rfl
@[simp] theorem Dev.setDma_same (d : Dev) (c : Nat) (x : DmaCh) : (d.setDma c x).dmaCh c = x := Tab.get_set_same _ _ _ _
theorem Dev.setDma_other (d : Dev) (c : Nat) (x : DmaCh) (j : Nat) (h : c ≠ j) : (d.setDma c x).dmaCh j = d.dmaCh j := Tab.get_set_other _ _ _ _ _ h

/-! ### updMemCh -/

@[simp] theorem Dev.updMemCh_regs (d : Dev) (c : Nat) (f : MemCh → MemCh) : (d.updMemCh c f).regs = d.regs := rfl
@[simp] theorem Dev.updMemCh_mem (d : Dev) (c : Nat) (f : MemCh → MemCh) : (d.updMemCh c f).mem = d.mem := rfl
@[simp] theorem Dev.updMemCh_up (d : Dev) (c : Nat) (f : MemCh → MemCh) : (d.updMemCh c f).up = d.up := rfl
@[simp] theorem Dev.updMemCh_ticks (d : Dev) (c : Nat) (f : MemCh → MemCh) : (d.updMemCh c f).ticks = d.ticks := rfl
@[simp] theorem Dev.updMemCh_time (d : Dev) (c : Nat) (f : MemCh → MemCh) : (d.updMemCh c f).time = d.time := rfl
@[simp] theorem Dev.updMemCh_lanes (d : Dev) (c : Nat) (f : MemCh → MemCh) : (d.updMemCh c f).lanes = d.lanes := rfl
@[simp] theorem Dev.updMemCh_ing (d : Dev) (c : Nat) (f : MemCh → MemCh) : (d.updMemCh c f).ing = d.ing := rfl
@[simp] theorem Dev.updMemCh_panels (d : Dev) (c : Nat) (f : MemCh → MemCh) : (d.updMemCh c f).panels = d.panels := rfl
@[simp] theorem Dev.updMemCh_isls (d : Dev) (c : Nat) (f : MemCh → MemCh) : (d.updMemCh c f).isls = d.isls := rfl
@[simp] theorem Dev.updMemCh_egr (d : Dev) (c : Nat) (f : MemCh → MemCh) : (d.updMemCh c f).egr = d.egr := rfl
@[simp] theorem Dev.updMemCh_evr (d : Dev) (c : Nat) (f : MemCh → MemCh) : (d.updMemCh c f).evr = d.evr := rfl
@[simp] theorem Dev.updMemCh_pat (d : Dev) (c : Nat) (f : MemCh → MemCh) : (d.updMemCh c f).pat = d.pat := rfl
@[simp] theorem Dev.updMemCh_spill (d : Dev) (c : Nat) (f : MemCh → MemCh) : (d.updMemCh c f).spill = d.spill := rfl
@[simp] theorem Dev.updMemCh_rdReg (d : Dev) (c : Nat) (f : MemCh → MemCh) (r : Reg) : (d.updMemCh c f).rdReg r = d.rdReg r := rfl
@[simp] theorem Dev.updMemCh_get (d : Dev) (c : Nat) (f : MemCh → MemCh) (e : RF) : (d.updMemCh c f).get e = d.get e := rfl
@[simp] theorem Dev.updMemCh_is (d : Dev) (c : Nat) (f : MemCh → MemCh) (e : RF) : (d.updMemCh c f).is e = d.is e := rfl
@[simp] theorem Dev.updMemCh_rdByte (d : Dev) (c : Nat) (f : MemCh → MemCh) (a : Nat) : (d.updMemCh c f).rdByte a = d.rdByte a := rfl
@[simp] theorem Dev.updMemCh_same (d : Dev) (c : Nat) (f : MemCh → MemCh) : (d.updMemCh c f).memCh c = f (d.memCh c) := Tab.get_set_same _ _ _ _
theorem Dev.updMemCh_other (d : Dev) (c : Nat) (f : MemCh → MemCh) (j : Nat) (h : c ≠ j) : (d.updMemCh c f).memCh j = d.memCh j := Tab.get_set_other _ _ _ _ _ h

end Sys2Proof.Machine
end

