-- ==== Sys2Proof/Tests/Slice0.lean ====
section
/-! SUPPORT. Own tests: ill-formed commands are refused by the well-formedness check, results that the spec states, and for
every obligation with hypotheses a state and operands that meet them (theorems `witness_…`). -/
-- One theorem at a time: side by side they ask for more threads than the memory limit leaves room for.
set_option Elab.async false

namespace Sys2Proof.Tests
open Sys2Proof.Machine Sys2Proof.Safety

/-! ### Small states -/

/-- The device right after reset, and the machine around a device. -/
def d0 : Dev := State.reset.dev
def mk (d : Dev) : State := { State.reset with dev := d }

/-- The device with fields put. -/
def puts (d : Dev) (l : List (RF × Nat)) : Dev := l.foldl (fun d e => d.put e.1 e.2) d

/-- Reset with PORST_N low; reset with every island held; reset with a pattern active. -/
def off : State := mk { d0 with up := false }
def allHeld : State := mk (d0.put F.DEV_ISL_RESET_ISL 0xFF |>.put F.DEV_ISL_RESET_INGEST 1 |>.put F.DEV_ISL_RESET_EGRESS 1)
def act : Dev := d0.put F.PAT_STATUS_ACTIVE 1

/-- Lane 95, in a role and state. -/
def lane95 (role st : Nat) : Dev := puts d0 [(F.LANE_CFG_ROLE 95, role), (F.LANE_STATE_STATE 95, st)]

/-- Panel 63 running, its next word made of these two halves; eight slots, GANG 0. -/
def panel63 (ctl arr : Nat) : Dev :=
  puts d0 [(F.PNL_STATUS_STATE 63, pRun), (F.PNL_CFG_SLOTS 63, 8), (F.PNL_UCODE_CONTROL 63 0, ctl), (F.PNL_UCODE_ARRAY 63 0, arr)]

/-- The control half of a word with this COP and the rest of its 32 bits. -/
def ctl (cop rest : Nat) : Nat := cop * 2 ^ 26 + rest
def arr (aop rest : Nat) : Nat := aop * 2 ^ 28 + rest

/-- Boolean forms of the two issue conditions. -/
def issuesB (d : Dev) (p cop : Nat) : Bool :=
  d.canIssue p && (d.serviceDue p == 0) && !(d.panel p).ctrl && !d.progBad p && (d.cop p == cop) && !d.misplaced p cop && (d.arrayWait p).isNone
def arrayIssuesB (d : Dev) (p aop : Nat) : Bool :=
  d.canIssue p && (d.panel p).ctrl && (d.aop p == aop) && !(d.phaseFor p).arrayLoading p && !(d.phaseFor p).closeHeld p

theorem issues_of {d : Dev} {p cop : Nat} (h : issuesB d p cop = true) : Issues d p cop := by
  simp only [issuesB, Bool.and_eq_true, beq_iff_eq, Bool.not_eq_true', Option.isNone_iff_eq_none] at h
  exact ⟨h.1.1.1.1.1.1, h.1.1.1.1.1.2, h.1.1.1.1.2, h.1.1.1.2, h.1.1.2, h.1.2, h.2⟩

theorem arrayIssues_of {d : Dev} {p aop : Nat} (h : arrayIssuesB d p aop = true) : ArrayIssues d p aop := by
  simp only [arrayIssuesB, Bool.and_eq_true, beq_iff_eq, Bool.not_eq_true'] at h
  exact ⟨h.1.1.1.1, h.1.1.1.2, h.1.1.2, h.1.2, h.2⟩

/-- The device after a command. -/
def out (c : Instr) (s : State) : Dev := match exec c s with | .next t => t.dev | _ => s.dev

/-- Panel 63 with a plane bound to slot 7 under a tag, possibly with a promotion plane or a weight vector on its way. -/
def bind7 (tag : Nat) (partner loading : Option Nat) : Bind := { (d0.newBind 63 tag 0 0 0 loading) with partner := partner, bb := 0 }
def bound7 (d : Dev) (tag : Nat) (partner loading : Option Nat) : Dev :=
  d.setSlot 63 7 { bind := some (bind7 tag partner loading), plane := [] }

/-- Slot 7 and tag 5 as a control syllable names them. -/
def slot7 : Nat := 7 * 2 ^ 21 + 5 * 2 ^ 9

/-- A control block that a command takes, with a condition on it and on the device after it. -/
def takes (d : Dev) (n typ : Nat) (f : Payload → Dev → Bool) : Bool :=
  match d.takeCtrl n typ with | some (q, e) => f q e | none => false

theorem takes_of {d : Dev} {n typ : Nat} {P : Payload → Dev → Prop} [∀ q e, Decidable (P q e)]
    (h : takes d n typ (fun q e => decide (P q e)) = true) : ∃ q e, d.takeCtrl n typ = some (q, e) ∧ P q e := by
  unfold takes at h
  split at h
  · exact ⟨_, _, ‹_›, of_decide_eq_true h⟩
  · cases h

/-! ### Ill-formed commands -/

/-- A unit that does not exist. -/
theorem test_ill_formed_units :
    (Instr.laneTrain 96).wellFormed = false ∧ (Instr.pnlSeta 64).wellFormed = false ∧ (Instr.commitArrive 8).wellFormed = false ∧
      (Instr.awlMac 16).wellFormed = false ∧ (Instr.awlLdw 15 2).wellFormed = false ∧ (Instr.agCommitArm 64).wellFormed = false ∧
      (Instr.ctWriteSend 12).wellFormed = false ∧ (Instr.loadwComplete 63 32).wellFormed = false ∧ (Instr.egressUnitArrive 9).wellFormed = false ∧
      (Instr.queueEntry 4096).wellFormed = false ∧ (Instr.egressFrameDeal 32).wellFormed = false ∧ (Instr.winRelease 16).wellFormed = false ∧
      (Instr.regionRelease 8).wellFormed = false ∧ (Instr.pcieRetrain 4).wellFormed = false ∧ (Instr.channelTrain 12).wellFormed = false ∧
      (Instr.weltTimeout 6 0).wellFormed = false ∧ (Instr.weltTimeout 16 0).wellFormed = false ∧ (Instr.weltGrant 7).wellFormed = false ∧
      (Instr.dmaRun 64).wellFormed = false ∧ (Instr.qlTimeout 4).wellFormed = false ∧ (Instr.ppsEdge 2).wellFormed = false ∧
      (Instr.frameOutArm 4).wellFormed = false ∧ (Instr.intcClaim 16).wellFormed = false ∧ (Instr.mgmtKick 2).wellFormed = false ∧
      (Instr.smuFrameCloseTimeout 8192).wellFormed = false ∧ (Instr.monStart 2).wellFormed = false ∧ (Instr.hkUrgentRequest 32).wellFormed = false ∧
      (Instr.machineTimerInterrupt 8).wellFormed = false ∧ (Instr.onchipScrub 256 0).wellFormed = false := by decide

/-- A value beyond its width, or outside its range. -/
theorem test_ill_formed_values :
    (Instr.registerWrite 0 16 0).wellFormed = false ∧ (Instr.registerWrite 0 32 (2 ^ 32)).wellFormed = false ∧
      (Instr.islResetWrite 1024).wellFormed = false ∧ (Instr.slotCommitPost (2 ^ 64)).wellFormed = false ∧
      (Instr.patternLoadDone true [256]).wellFormed = false ∧ (Instr.xferGo 15 (2 ^ 56)).wellFormed = false ∧
      (Instr.channelTrainingDone 11 0).wellFormed = false ∧ (Instr.channelTrainingDone 11 6).wellFormed = false ∧
      (Instr.scrubRead 11 3).wellFormed = false ∧ (Instr.ilvMaskWrite 4096).wellFormed = false ∧
      (Instr.dmaChConfigWrite 63 false (2 ^ 32)).wellFormed = false ∧ (Instr.dmaChConfigWrite 63 true (2 ^ 32)).wellFormed = true ∧
      (Instr.phaseStep (2 ^ 32)).wellFormed = false ∧ (Instr.coreHoldWrite 256).wellFormed = false ∧ (Instr.mgmtLinkChange true 4 false).wellFormed = false ∧
      (Instr.mdioDone 65536).wellFormed = false ∧ (Instr.smuSpiRead (2 ^ 24) 1).wellFormed = false ∧ (Instr.smuFwStart 4096).wellFormed = false ∧
      (Instr.smuSeal (2 ^ 32)).wellFormed = false ∧ (Instr.monInFrame true (2 ^ 28) 0 true).wellFormed = false ∧
      (Instr.hkConversionDone 65536).wellFormed = false ∧ (Instr.jtagSample (2 ^ 51)).wellFormed = false := by decide

/-- The table gives no row bits, so no word spells a command. -/
theorem test_no_word_spells_a_command : decodeTableWord 32 0 = none := rfl

/-! ### Values that the spec states -/

/-- 00, worked example: LANE_37 at 0xF0_0082_5000, AWL_13 at 0xF0_028D_0000; 21, worked example: PNL_45.INT_START, EGR.RING_CFG of queue 300,
DMA.CH_STATUS of channel 12, INTC.CLAIM of context 3. -/
theorem test_register_addresses :
    (R.LANE_CFG 37).addr = 0xF000825000 ∧ (R.AWL_CTRL 13).addr = 0xF0028D0000 ∧ (R.PNL_INT_START 45).addr = 0xF002560058 ∧
      (R.EGR_RING_CFG 300).addr = 0xF000D212C0 ∧ (R.DMA_CH_STATUS 12).addr = 0xF000E10314 ∧ (R.INTC_CLAIM 3).addr = 0xF004203004 := by decide

/-- 21, worked example: an address above LANE_95 names no register; an index without a block is a decode miss. -/
theorem test_no_register : (regRow 0xF000860000).isNone = true ∧ weltTarget 0xF001700000 = 6 := by decide +kernel

/-- 12, worked example of 00: the data memory of core 13 at 0xE8_00D0_0000. -/
theorem test_awl_window : awlDataAddr 13 0 = 0xE800D00000 := by decide

/-- R95: the CRC of the nine bytes "123456789" is 0xE306_9283. -/
theorem test_crc32c : crc32c [0x31, 0x32, 0x33, 0x34, 0x35, 0x36, 0x37, 0x38, 0x39] = 0xE3069283 := by decide +kernel

/-- R345: the word 0x3 has check byte 0x0C; one flipped bit is corrected, two are not. -/
theorem test_spill_check : spillCheck 3 = 0x0C ∧ spillDecode 1 0x0C = some 3 ∧ spillDecode 0 0x0C = none := by decide +kernel

/-- 14, worked example: the corner-turn address on twelve channels, and without channel 5. -/
theorem test_interleave :
    let d := d0.put F.MEM_ILV_MASK 0xFFF
    let e := d0.put F.MEM_ILV_MASK 0xFDF
    d.chanOf 0x54D2C7D08 = (5, 0x71190A08) ∧ e.chanOf 0x54D2C7D08 = (8, 0x7B612208) := by decide +kernel

/-- 05, worked example: sample t = 1,000 of channel 200 of CT_INDEX 1,234 in frame 1,000,003 stands at 0x05_4D2C_7D08. -/
theorem test_corner_turn_address :
    let d := (List.range 8).foldl (fun d k => puts d [(F.ING_CH_BLOCK_FIRST k, 32 * k), (F.ING_CH_BLOCK_COUNT k, 32)])
      (puts d0 [(F.ING_CT_BASE_BASE, 0x0200000000 / 4096), (F.ING_CT_CFG_STREAMS, 4096), (F.ING_CT_CFG_NUM_CH, 256), (F.ING_CT_CFG_DEPTH, 5)])
    d.ctAddr 1000003 1234 6 1000 200 = 0x054D2C7D08 := by decide +kernel

/-- R88 to R90: the first bits of a block after training starts, all-zero payload: the header, then the scrambler, whose first 39 bits of an all-zero payload are zero (q[39] xor q[58] of ones). -/
theorem test_scrambler_start : ((LaneSt.init.tx.restart.drive false false 0).line.take 8) = [false, true, false, false, false, false, false, false] := by
  decide +kernel

/-- R15: W1C bits written 1 clear; R499: no register but TS_POP and CLAIM changes by a read. -/
theorem test_w1c :
    (out (.registerWrite (R.LANE_EVENTS 95).addr 32 (2 ^ 7)) (mk (d0.put (F.LANE_EVENTS_UP 95) 1))).is (F.LANE_EVENTS_UP 95) = false ∧
      (out (.registerWrite (R.LANE_EVENTS 95).addr 32 0) (mk (d0.put (F.LANE_EVENTS_UP 95) 1))).is (F.LANE_EVENTS_UP 95) = true := by decide +kernel

/-- 12, worked example: with FRAME_NO 1,000,005 the low bits 0x4243 name frame 1,000,003. -/
theorem test_verdict_frame : (d0.put (F.ISL_FRAME_NO_FRAME_NO 3) 1000005).verdictFrame 3 0x4243 = 1000003 := by decide

/-- R524: IDCODE answers 0x1560_409B. -/
theorem test_idcode : (out .jtagIdcode State.reset).answer = (0, 0x1560409B) := by decide

/-- R21, R510: after reset the device is up, no pattern is active, and a step on the empty queue is one cycle. -/
theorem test_reset : State.reset.dev.up = true ∧ State.reset.dev.active = false ∧ State.reset.tick.dev.ticks = 1 := by decide +kernel

/-! ### The machine as a whole -/

theorem witness_IdleStepAdvancesTime : State.reset.pending = [] ∧ off.dev.up = false ∧ off.pending = [] := by decide

theorem witness_WellFormedCommandAnswers : (Instr.pnlSeta 63).wellFormed = true ∧ (Instr.registerWrite 0 64 (2 ^ 64 - 1)).wellFormed = true := by
  decide

theorem witness_MissingUnitStopsTheCommand :
    exec (.laneTrain 96) State.reset = .fault .noSuchUnit ∧ exec (.pnlSeta 64) State.reset = .fault .noSuchUnit ∧
      exec (.commitArrive 8) State.reset = .fault .noSuchUnit ∧ exec (.channelTrain 12) State.reset = .fault .noSuchUnit ∧
      exec (.awlMac 16) State.reset = .fault .noSuchUnit ∧ exec (.queueEntry 4096) State.reset = .fault .noSuchUnit :=
  ⟨rfl, rfl, rfl, rfl, rfl, rfl⟩

theorem witness_SmuUnreachableFromTheDevice :
    home (.laneTrain 95) ≠ .smu ∧ (∀ full, Instr.laneTrain 95 ≠ .smuTapFrame full) ∧ (∃ t, exec (.laneTrain 95) State.reset = .next t) ∧
      home .evrAppendArrive ≠ .smu ∧ ∃ t, exec .evrAppendArrive State.reset = .next t :=
  ⟨by decide, fun _ => nofun, ⟨_, rfl⟩, by decide, _, rfl⟩

theorem witness_SmuChangesNothingOfTheDevice :
    (home .smuPpsEdge = .smu ∧ ∃ t, exec .smuPpsEdge State.reset = .next t) ∧
      ((∃ full, Instr.smuTapFrame true = .smuTapFrame full) ∧ ∃ t, exec (.smuTapFrame true) State.reset = .next t) :=
  ⟨⟨rfl, _, rfl⟩, ⟨_, rfl⟩, _, rfl⟩

theorem witness_SmuSeesOnlyItsTap :
    home .smuPpsEdge = .smu ∧ State.reset ≠ mk act ∧ State.reset.smu = (mk act).smu ∧ State.reset.dev.tap = (mk act).dev.tap ∧
      (∃ t, exec .smuPpsEdge State.reset = .next t) ∧ ∃ t, exec .smuPpsEdge (mk act) = .next t :=
  ⟨rfl, fun h => absurd (congrArg (·.dev.active) h) (by decide), rfl, rfl, ⟨_, rfl⟩, _, rfl⟩

theorem witness_DeviceStopsWhilePorstLow :
    off.dev.up = false ∧ Instr.laneTrain 95 ≠ .powerOnReset ∧ (∀ low, Instr.laneTrain 95 ≠ .tapReset low) ∧
      ∃ t, exec (.laneTrain 95) off = .next t :=
  ⟨rfl, nofun, fun _ => nofun, _, rfl⟩

theorem witness_HeldIslandTakesNoCommand :
    (held allHeld.dev (home (.laneTrain 95)) = true ∧ (Instr.laneTrain 95).wellFormed = true) ∧
      (held allHeld.dev (home (.txWake 95)) = true ∧ (Instr.txWake 95).wellFormed = true) ∧
      (held allHeld.dev (home (.pnlSeta 63)) = true ∧ (Instr.pnlSeta 63).wellFormed = true) := by decide

theorem witness_SealFusesNeverClear : ∃ t, step { State.reset with pending := [.smuSeal 0] } = .next t := ⟨_, rfl⟩

theorem witness_EveryStepKeepsSealFusesPossible :
    sealOk { State.reset.smu with sealGen := 8, broken := 255 } = true ∧
      ∃ t, step { State.reset with smu := { State.reset.smu with sealGen := 8, broken := 255 } } = .next t :=
  ⟨by decide, _, rfl⟩

/-! ### Panels -/

theorem witness_PanelRegisterSyllablesIssue :
    upIsl (mk (panel63 0 0)) 7 ∧ Issues (panel63 (ctl 0x00 0) 0) 63 0x00 ∧ Issues (panel63 (ctl 0x01 0) 0) 63 0x01 ∧
      Issues (panel63 (ctl 0x02 0) 0) 63 0x02 ∧ Issues (panel63 (ctl 0x03 0) 0) 63 0x03 ∧ Issues (panel63 (ctl 0x04 0) 0) 63 0x04 ∧
      Issues (panel63 (ctl 0x05 0) 0) 63 0x05 ∧ Issues (panel63 (ctl 0x10 4095) 0) 63 0x10 ∧
      (Issues (panel63 (ctl 0x11 0) 0) 63 0x11 ∧ ofInt 32 (((panel63 (ctl 0x11 0) 0).pA 63 0 : Int) - 1) ≠ 0) ∧
      (let d := (panel63 (ctl 0x11 0) 0).setA 63 0 1
       Issues d 63 0x11 ∧ ofInt 32 ((d.pA 63 0 : Int) - 1) = 0) :=
  ⟨⟨by decide, by decide⟩, issues_of (by decide), issues_of (by decide), issues_of (by decide), issues_of (by decide),
    issues_of (by decide), issues_of (by decide), issues_of (by decide), ⟨issues_of (by decide), by decide⟩, issues_of (by decide), by decide⟩

/-- A word with REPEAT of one word at PC 4094 and at PC 4095. -/
def repeatAt (pc : Nat) : Dev := puts (panel63 0 0) [(F.PNL_PC_PC 63, pc), (F.PNL_UCODE_CONTROL 63 pc, ctl 0x12 0)]

theorem witness_PanelRegisterSyllablesIssue_repeat :
    (Issues (repeatAt 4094) 63 0x12 ∧ (repeatAt 4094).get (F.PNL_PC_PC 63) + (bitsOf ((repeatAt 4094).ctlWord 63) 47 44 + 1) ≤ 4095) ∧
      Issues (repeatAt 4095) 63 0x12 ∧ 4095 < (repeatAt 4095).get (F.PNL_PC_PC 63) + (bitsOf ((repeatAt 4095).ctlWord 63) 47 44 + 1) :=
  ⟨⟨issues_of (by decide), by decide⟩, issues_of (by decide), by decide⟩

theorem witness_PanelSlotSyllablesTakeEffect :
    let n := ctlSlot ((panel63 (ctl 0x08 slot7) 0).ctlWord 63)
    n = 7 ∧ n < (panel63 (ctl 0x08 slot7) 0).slotLimit 63 ∧
      (Issues (panel63 (ctl 0x08 slot7) 0) 63 0x08 ∧ (((panel63 (ctl 0x08 slot7) 0).panel 63).slot 7).bind = none) ∧
      Issues (panel63 (ctl 0x0D slot7) 0) 63 0x0D ∧
      (let d := bound7 (panel63 (ctl 0x0B slot7) 0) 5 none none
       Issues d 63 0x0B ∧ ((d.panel 63).slot 7).bind = some (bind7 5 none none) ∧ ctlTag (d.ctlWord 63) = 5 ∧ (d.panel 63).slotQueued 7 = false) ∧
      (let d := bound7 (panel63 (ctl 0x0B slot7) 0) 5 (some 11) none
       Issues d 63 0x0B ∧ ((d.panel 63).slot 7).bind = some (bind7 5 (some 11) none)) :=
  ⟨by decide, by decide, ⟨issues_of (by decide), by decide⟩, issues_of (by decide), ⟨issues_of (by decide), by decide, by decide, by decide⟩,
    issues_of (by decide), by decide⟩

theorem witness_PanelSlotSyllablesTakeEffect_port :
    (let d := bound7 (panel63 (ctl 0x09 slot7) 0) 5 none none
     Issues d 63 0x09 ∧ (d.panel 63).queuedOps < 4) ∧
      (let d := bound7 (panel63 (ctl 0x0A slot7) 0) 5 none none
       Issues d 63 0x0A ∧ (d.panel 63).queuedOps < 4) ∧
      (let d := bound7 (panel63 (ctl 0x0C (slot7 + 11 * 2 ^ 5)) 0) 5 none none
       Issues d 63 0x0C ∧ bitsOf (d.ctlWord 63) 40 37 < 12 ∧ (d.panel 63).promo = none ∧ (d.panel 63).partnered 7 11 = false) :=
  ⟨⟨issues_of (by decide), by decide⟩, ⟨issues_of (by decide), by decide⟩, issues_of (by decide), by decide, by decide, by decide⟩

theorem witness_PanelSlotConflictHoldsTheWord :
    (let d := bound7 (panel63 (ctl 0x08 slot7) 0) 4 none none
     ctlSlot (d.ctlWord 63) < d.slotLimit 63 ∧ ((d.panel 63).slot 7).bind = some (bind7 4 none none) ∧ (bind7 4 none none).tag ≠ ctlTag (d.ctlWord 63) ∧
       Issues d 63 0x08 ∧ (d.panel 63).svc = none) ∧
      Issues (bound7 (panel63 (ctl 0x09 slot7) 0) 4 none none) 63 0x09 ∧ Issues (bound7 (panel63 (ctl 0x0A slot7) 0) 4 none none) 63 0x0A ∧
      Issues (bound7 (panel63 (ctl 0x0B slot7) 0) 4 none none) 63 0x0B ∧ Issues (panel63 (ctl 0x09 slot7) 0) 63 0x09 ∧
      (let d := (panel63 (ctl 0x0D slot7) 0).put (F.PNL_CFG_SLOTS 63) 7
       d.slotLimit 63 ≤ ctlSlot (d.ctlWord 63) ∧ Issues d 63 0x0D) :=
  ⟨⟨by decide, by decide, by decide, issues_of (by decide), by decide⟩, issues_of (by decide), issues_of (by decide), issues_of (by decide),
    issues_of (by decide), by decide, issues_of (by decide)⟩

/-- Island 7 with fill unit 32767 of frame 0 in the Insole; panel 63 at the mark of frame 0 with a commit of a kind due there. -/
def fu0 : FillUnit := { c0 := 0, nc := 0, t0 := 0, nt := 0, s0 := 0, ns := 0, dest := 0 }
def withUnit (d : Dev) : Dev := d.updIsl 7 fun x => { x with units := [⟨0, 32767, fu0, false, true, false, []⟩] }
def atMark (d : Dev) (kind : Nat) : Dev :=
  (d.updIsl 7 fun x => { x with commits := [⟨kind, 0, false⟩] }).updPanel 63 fun x => { x with atMark := some 0 }

theorem witness_PanelFlowSyllablesTakeEffect :
    (let d := withUnit (panel63 (ctl 0x13 32767) 0)
     d.unitNamed 63 = (some 0, 32767) ∧ Issues d 63 0x13 ∧ d.unitPresent 7 0 32767 = true) ∧
      (let d := panel63 (ctl 0x13 32767) 0
       d.unitNamed 63 = (some 0, 32767) ∧ Issues d 63 0x13 ∧ d.unitPresent 7 0 32767 = false) ∧
      Issues (panel63 (ctl 0x14 32767) 0) 63 0x14 ∧ Issues (panel63 (ctl 0x17 0) 0) 63 0x17 ∧
      (let d := (panel63 (ctl 0x15 0) 0).updIsl 7 fun x => { x with marked := some 1 }
       Issues d 63 0x15 ∧ (d.panel 63).closing = none ∧ ∃ m, (d.isl 7).marked = some m ∧ d.pFrame 63 + 1 ≤ m) ∧
      (let d := (panel63 (ctl 0x15 0) 0).updIsl 7 fun x => { x with marked := some 0 }
       Issues d 63 0x15 ∧ (d.panel 63).closing = none ∧ ∃ m, (d.isl 7).marked = some m ∧ m < d.pFrame 63 + 1) :=
  ⟨⟨by decide, issues_of (by decide), by decide⟩, ⟨by decide, issues_of (by decide), by decide⟩, issues_of (by decide),
    issues_of (by decide), ⟨issues_of (by decide), by decide, 1, by decide, by decide⟩, issues_of (by decide), by decide, 0, by decide, by decide⟩

/-- A service routine of panel 63. -/
def svc (kind : Nat) : Svc := { kind := kind, at_ := 0, gran := none, parity := false, pc := 0, ti := 0, ts := 0, hold := none }

theorem witness_PanelFlowSyllablesTakeEffect_service :
    (Issues (panel63 (ctl 0x16 0) 0) 63 0x16 ∧ ((panel63 (ctl 0x16 0) 0).panel 63).svc = none) ∧
      (let d := (panel63 (ctl 0x16 0) 0).updPanel 63 fun x => { x with svc := some (svc 3) }
       Issues d 63 0x16 ∧ (d.panel 63).svc = some (svc 3) ∧ d.closeHeld 63 = false) ∧
      (let d := atMark (panel63 0 0) 1
       d.canIssue 63 = true ∧ d.serviceDue 63 = 2 ∧ (d.panel 63).atMark = some 0) ∧
      (let d := atMark (panel63 0 0) 2
       d.canIssue 63 = true ∧ d.serviceDue 63 = 3 ∧ (d.panel 63).atMark = some 0) ∧
      (let d := (panel63 0 0).updPanel 63 fun x => { x with hold := some (255, 256) }
       d.canIssue 63 = true ∧ (d.panel 63).ctrl = false ∧ (d.panel 63).hold = some (255, 256)) ∧
      (let d := (panel63 0 0).updPanel 63 fun x => { x with hold := some (256, 256) }
       d.canIssue 63 = true ∧ (d.panel 63).ctrl = false ∧ (d.panel 63).hold = some (256, 256)) :=
  ⟨⟨issues_of (by decide), by decide⟩, ⟨issues_of (by decide), by decide, by decide⟩, by decide, by decide, by decide, by decide⟩

/-- Panel 63 with its word 0 uncorrectable. -/
def badWord : Dev := let d := panel63 0 0; { d with sd := { d.sd with bad := [(0x40 + 63, 7)] } }

theorem witness_PanelReservedSyllableFaults :
    (badWord.canIssue 63 = true ∧ badWord.serviceDue 63 = 0 ∧ (badWord.panel 63).ctrl = false ∧ badWord.progBad 63 = true) ∧
      (let d := panel63 (ctl 0x18 0) 0
       d.canIssue 63 = true ∧ d.serviceDue 63 = 0 ∧ (d.panel 63).ctrl = false ∧ d.progBad 63 = false ∧ copKnown (d.cop 63) = false) ∧
      (let d := (panel63 (ctl 0x10 0) 0).updPanel 63 fun x => { x with br := some (2, none) }
       d.canIssue 63 = true ∧ d.serviceDue 63 = 0 ∧ (d.panel 63).ctrl = false ∧ d.progBad 63 = false ∧ d.misplaced 63 0x10 = true ∧ d.cop 63 = 0x10) ∧
      (let d := (panel63 (ctl 0x17 0) 0).updPanel 63 fun x => { x with br := some (1, none) }
       d.serviceDue 63 = 0 ∧ d.progBad 63 = false ∧ d.misplaced 63 0x17 = true ∧ d.cop 63 = 0x17) ∧
      (let d := (panel63 0 (arr 7 0)).updPanel 63 fun x => { x with ctrl := true }
       d.canIssue 63 = true ∧ (d.panel 63).ctrl = true ∧ 6 < d.aop 63) := by decide

/-- Panel 63 about to issue an array syllable of slot 7, with the slot bound or free. -/
def array63 (aop : Nat) (bound : Bool) : Dev :=
  let d := (panel63 0 (arr aop (7 * 2 ^ 23))).updPanel 63 fun x => { x with ctrl := true }
  if bound then bound7 d 5 none none else d

/-- A product of samples of two alignment groups crosses; a masked operand does not (R42, R156). -/
theorem test_crossesAt :
    crossesAt 0 1 [some 0, some 1] [] [some 0, some 0] [] 0 = false ∧ crossesAt 0 1 [some 0, some 1] [] [some 0, some 0] [] 33 = true ∧
      crossesAt 0 1 (maskGroups 1 0 [some 0, some 1]) [] [some 0, some 0] [] 33 = false ∧ crossesAt 3 1 [some 0, some 1] [] [some 0, some 1] [] 32 = true ∧
      crossesAt 3 1 [some 0, some 1] [] [some 0, some 1] [] 33 = false := by decide

theorem witness_CorrelationAddsAndRetractionSubtracts :
    (let d := array63 1 true
     upIsl (mk d) 7 ∧ ArrayIssues d 63 1 ∧ (d.panel 63).closing = none ∧ d.get (F.PNL_CFG_PHASE 63) = 0 ∧ d.arrSlot 63 < d.slotLimit 63 ∧
       ((d.panel 63).slot 7).bind = some (bind7 5 none none) ∧ vecLengths 0 0 = some (64, 64) ∧ inInsole 0 0 64 = true) ∧
      (let d := bound7 (array63 1 false) 5 none none |>.setSlot 63 7 { bind := some { bind7 5 none none with rowOff := 2 ^ 26 - 1 }, plane := [] }
       ArrayIssues d 63 1 ∧ inInsole (2 ^ 26 - 1) 0 64 = false) ∧
      (ArrayIssues (array63 2 true) 63 2 ∧ (((array63 2 true).panel 63).slot 7).bind = some (bind7 5 none none) ∧
        inInsole (((array63 2 true).panel 63).prr + 0) 0 64 = true) ∧
      ArrayIssues (array63 1 false) 63 1 ∧ ArrayIssues (array63 2 false) 63 2 ∧ (((array63 1 false).panel 63).slot 7).bind = none :=
  ⟨⟨⟨by decide, by decide⟩, arrayIssues_of (by decide), by decide, by decide, by decide, by decide, by decide, by decide⟩,
    ⟨arrayIssues_of (by decide), by decide⟩, ⟨arrayIssues_of (by decide), by decide, by decide⟩, arrayIssues_of (by decide), arrayIssues_of (by decide),
    by decide⟩

/-- The array syllable with slot 7 bound at a row offset, and slot 0 bound too. -/
def array63at (aop off : Nat) : Dev :=
  ((array63 aop false).setSlot 63 7 { bind := some { bind7 5 none none with rowOff := off }, plane := [] }).setSlot 63 0
    { bind := some (bind7 6 none none), plane := [] }

theorem witness_LagAndBeamSyllablesTakeEffect_bound :
    (∀ aop, aop ∈ [3, 4, 5, 6] → ArrayIssues (array63at aop 0) 63 aop ∧ ((array63at aop 0).panel 63).closing = none ∧
      (array63at aop 0).arrSlot 63 < (array63at aop 0).slotLimit 63 ∧ (((array63at aop 0).panel 63).slot 7).bind = some { bind7 5 none none with rowOff := 0 } ∧
      inInsole 0 0 (planeSide 0) = true ∧ (((array63at aop 0).panel 63).slot (bitsOf ((array63at aop 0).arrWord 63) 21 17)).bind ≠ none) ∧
      (∀ aop, aop ∈ [3, 4] → ArrayIssues (((array63at aop (2 ^ 26 - 1)).updPanel 63 fun x => { x with ti := 1, ts := 1 })) 63 aop ∧
        inInsole (2 ^ 26 - 1 + 1 * 1) 0 1 = false) ∧
      (array63at 3 0).insoleBad = [] ∧ (array63at 6 0).get (F.ISL_RED_CFG_SRC 7) ≠ 2 := by
  simp only [List.mem_cons, List.not_mem_nil, or_false, forall_eq_or_imp, forall_eq]
  exact ⟨⟨⟨arrayIssues_of (by decide), by decide⟩, ⟨arrayIssues_of (by decide), by decide⟩, ⟨arrayIssues_of (by decide), by decide⟩,
    arrayIssues_of (by decide), by decide⟩, ⟨⟨arrayIssues_of (by decide), by decide⟩, arrayIssues_of (by decide), by decide⟩, by decide, by decide⟩

theorem witness_LagAndBeamSyllablesTakeEffect :
    ArrayIssues (array63 0 false) 63 0 ∧ ((array63 3 false).panel 63).closing = none ∧
      (ArrayIssues (array63 3 false) 63 3 ∧ ∃ e, (array63 3 false).lag 63 false false true = .done e) ∧
      (ArrayIssues (array63 4 false) 63 4 ∧ ∃ e, (array63 4 false).lag 63 false true false = .done e) ∧
      (ArrayIssues (array63 5 false) 63 5 ∧ ∃ e, (array63 5 false).beamOp 63 none = .done e) ∧
      (ArrayIssues (array63 6 false) 63 6 ∧ ∃ e, (array63 6 false).beamOp 63 (some 0) = .done e) ∧
      (let d := (array63 3 false).put (F.PNL_CFG_SLOTS 63) 7
       ArrayIssues d 63 3 ∧ d.slotLimit 63 ≤ d.arrSlot 63 ∧ d.lag 63 false false true = .fault 1) :=
  ⟨arrayIssues_of (by decide), by decide, ⟨arrayIssues_of (by decide), _, rfl⟩, ⟨arrayIssues_of (by decide), _, rfl⟩,
    ⟨arrayIssues_of (by decide), _, rfl⟩, ⟨arrayIssues_of (by decide), _, rfl⟩, arrayIssues_of (by decide), by decide, rfl⟩

/-- A captured plane of panel 63. -/
def op63 : PortOp := { dump := false, slot := 7, tag := 5, addr := 0, init := true, start := 0, frame := 0, gang := 0 }

theorem witness_PlanesLeaveThePanelInOrder :
    (let d := (panel63 0 0).updPanel 63 fun x => { x with port := [.plane op63 0 0 [] false none] }
     (d.panel 63).port = .plane op63 0 0 [] false none :: [] ∧ d.crossingFull 63 op63.dump = false) ∧
      (((panel63 0 0).updPanel 63 fun x => { x with promo := some (7, 11, []) }).panel 63).promo = some (7, 11, []) ∧
      (let d := bound7 (puts (panel63 0 0) [(F.MEM_CH_STATUS_STATE 0, chTraining), (F.MEM_ILV_MASK, 1)]) 5 none (some 64)
       ((d.panel 63).slot 7).bind = some (bind7 5 none (some 64)) ∧ (bind7 5 none (some 64)).loading = some 64 ∧
         d.memBusy 64 (64 + 2 * planeWords (d.pGang 63)) = true) ∧
      (let d := bound7 (panel63 0 0) 5 none (some 64)
       ((d.panel 63).slot 7).bind = some (bind7 5 none (some 64)) ∧ d.memBusy 64 (64 + 2 * planeWords (d.pGang 63)) = false) := by decide +kernel

/-- SETAH replaces bits 31 to 22 and keeps the rest; ADDA adds the sign-extended immediate modulo 2^32 (R154). -/
theorem test_setah : (out (.pnlSetah 63) (mk ((panel63 (ctl 0x02 (5 * 2 ^ 22 + 1023)) 0).setA 63 5 7))).pA 63 5 = 1023 * 2 ^ 22 + 7 := by decide
theorem test_adda : (out (.pnlAdda 63) (mk ((panel63 (ctl 0x03 (5 * 2 ^ 22 + (2 ^ 22 - 2))) 0).setA 63 5 1))).pA 63 5 = 2 ^ 32 - 1 := by decide

/-- A control syllable of another command is not issued (R154). -/
theorem test_other_cop : (out (.pnlSeta 63) (mk (panel63 (ctl 0x02 0) 0))).regs = (panel63 (ctl 0x02 0) 0).regs := by decide +kernel

/-- OPEN of a free slot binds it to its tag; OPEN at the slot limit faults with code 1 (R148, R163). -/
theorem test_open : (((out (.pnlOpen 63) (mk (panel63 (ctl 0x08 slot7) 0))).panel 63).slot 7).bind.map (·.tag) = some 5 := by decide
theorem test_open_limit : (out (.pnlOpen 63) (mk ((panel63 (ctl 0x08 slot7) 0).put (F.PNL_CFG_SLOTS 63) 7))).get (F.PNL_STATUS_FAULT_CODE 63) = 1 := by
  decide +kernel

/-- A part outside the limit clamps and is marked (R170, R171). -/
theorem test_clamp : (Cell.add 100 ⟨90, -90, false, false⟩ (20, 5)) = ⟨100, -85, true, false⟩ := by decide

/-! ### Lanes -/

theorem witness_LaneStateChanges :
    upIng (mk (lane95 1 stDown)) ∧ ((lane95 1 stDown).laneRole 95 ≠ roleUnused ∧ (lane95 1 stDown).laneState 95 = stDown) ∧
      ((lane95 0 stDown).laneRole 95 = roleUnused ∧ (lane95 1 stUp).laneState 95 ≠ stDisabled ∧ (lane95 1 stUp).laneState 95 ≠ stDown) ∧
      (let d := (lane95 1 stTraining).updTrn 95 fun t => { t with reqPend := true, unanswered := 2 }
       d.laneState 95 = stTraining ∧ (d.lane 95).trn.reqPend = true ∧ 2 ≤ (d.lane 95).trn.unanswered) ∧
      (let d := (lane95 1 stTraining).updTrn 95 fun t => { t with reqPend := true, unanswered := 1 }
       d.laneState 95 = stTraining ∧ (d.lane 95).trn.reqPend = true ∧ (d.lane 95).trn.unanswered < 2) ∧
      (lane95 1 stHunt).laneState 95 = stHunt ∧
      (let d := (lane95 1 stTraining).put (F.LANE_STATE_PLL_LOCK 95) 1
       d.is (F.LANE_STATE_PLL_LOCK 95) = true ∧ d.laneState 95 = stTraining) :=
  ⟨⟨by decide +kernel, by decide +kernel⟩, by decide +kernel, by decide +kernel, by decide +kernel, by decide +kernel, by decide +kernel, by decide +kernel⟩

theorem witness_LaneIdleAndWake :
    (mk (lane95 1 stElecIdle)).dev.up = true ∧ (lane95 1 stElecIdle).ingHeld = false ∧ (lane95 1 stElecIdle).laneState 95 = stElecIdle ∧
      (lane95 1 stElecIdle).ticks - ((lane95 1 stElecIdle).lane 95).rx.idleAt < tenMs ∧
      (let d := { lane95 1 stElecIdle with ticks := tenMs }
       d.laneState 95 = stElecIdle ∧ tenMs ≤ d.ticks - (d.lane 95).rx.idleAt) ∧
      (lane95 1 stUp).laneState 95 ≠ stElecIdle ∧ (lane95 1 stTest).laneState 95 = stTest ∧
      (((lane95 1 stUp).updRx 95 fun r => { r with idleFlag := true }).lane 95).rx.idleFlag = true ∧
      (((lane95 1 stUp).lane 95).rx.idleFlag = false ∧ (lane95 1 stUp).laneUp 95 = true) ∧ (lane95 1 stWake).laneState 95 = stWake ∧
      (let d := (lane95 3 stUp).put (F.LANE_CTRL_IDLE_REQ 95) 1
       d.is (F.LANE_CTRL_IDLE_REQ 95) = true ∧ (d.lane 95).tx.empty = true ∧ d.laneUp 95 = true ∧ d.is (F.LANE_STATE_TX_IDLE 95) = false) ∧
      (let d := (lane95 3 stUp).put (F.LANE_STATE_TX_IDLE 95) 1
       d.egrHeld = false ∧ d.laneState 95 ≠ stTest ∧ d.is (F.LANE_STATE_TX_IDLE 95) = true ∧ d.is (F.LANE_CTRL_IDLE_REQ 95) = false ∧ d.ticks - (d.lane 95).tx.idleTick < tenMs) ∧
      (let d := { (lane95 3 stUp).put (F.LANE_STATE_TX_IDLE 95) 1 with ticks := tenMs }
       d.is (F.LANE_STATE_TX_IDLE 95) = true ∧ d.is (F.LANE_CTRL_IDLE_REQ 95) = false ∧ tenMs ≤ d.ticks - (d.lane 95).tx.idleTick) := by decide +kernel

theorem witness_PrbsCommandsAct :
    (let d := (lane95 1 stTest).put (F.LANE_PRBS_CTRL_CHK_EN 95) 1 |>.updPrbs 95 fun p => { p with matched := 64 }
     d.laneState 95 = stTest ∧ d.is (F.LANE_PRBS_CTRL_CHK_EN 95) = true ∧ d.is (F.LANE_PRBS_CTRL_CHK_LOCK 95) = false ∧ (d.lane 95).prbs.matched = 64) ∧
      (let d := (lane95 1 stTest).put (F.LANE_PRBS_CTRL_CHK_LOCK 95) 1 |>.updPrbs 95 fun p => { p with window := BitVec.ofNat 1024 (2 ^ 512 - 1) }
       d.is (F.LANE_PRBS_CTRL_CHK_LOCK 95) = true ∧ 512 ≤ popcount 1024 (d.lane 95).prbs.window.toNat) ∧
      2 ^ 48 - 1 ≤ (((lane95 1 stTest).updPrbs 95 fun p => { p with bits := 2 ^ 48 - 1 }).lane 95).prbs.bits ∧
      ((lane95 1 stUp).put F.PAT_STATUS_ACTIVE 1).prbsAllowed 95 = false ∧
      ((lane95 1 stUp).prbsAllowed 95 = true ∧ (lane95 1 stUp).is (F.LANE_PRBS_CTRL_GEN_EN 95) = false ∧
        (lane95 1 stUp).is (F.LANE_PRBS_CTRL_CHK_EN 95) = false ∧ ((lane95 1 stUp).lane 95).rx.buf = [] ∧
        ((lane95 1 stUp).lane 95).rx.frame = none ∧ (lane95 1 stUp).ing.opened = none) ∧
      ((lane95 1 stDown).prbsAllowed 95 = true ∧ (lane95 1 stDown).laneState 95 = stDown) ∧
      (((lane95 1 stTest).put (F.LANE_PRBS_CTRL_CHK_EN 95) 1).is (F.LANE_PRBS_CTRL_CHK_EN 95) = true ∧
        (lane95 1 stTest).is (F.LANE_PRBS_CTRL_GEN_EN 95) = false ∧ (lane95 1 stTest).laneState 95 = stTest) := by decide +kernel

/-- Lane 95 UP in a role, with one block at the head of its elastic buffer. -/
def withBlock (role st : Nat) (p : Payload) : Dev := (lane95 role st).updRx 95 fun r => { r with buf := [.block true p] }

/-- A frame in the replay buffer of lane 95, with sequence number 7; its group replays. -/
def frame7 : TxFrame := { hdr := 0, data := [], unit := 0, seq := 7, sends := 1, first := 0, sent := true }
def replaying (d : Dev) : Dev := (d.put (F.EGR_GROUP_CFG_REPLAY 0) 1).updTx 95 fun t => { t with replay := [frame7], seq := 8 }

/-- Each of the five control blocks that cross to egress stands at the head of the elastic buffer; the crossing is empty, or a
frame stands in it; egress is held. -/
theorem witness_SloldoControlBlocksAct_cross :
    upIng (mk (withBlock 3 stUp (sealBlock [5, 7, 0]))) ∧
      (∀ typ, typ ∈ [5, 6, 7, 8, 9] →
        ∃ q e, (withBlock 3 stUp (sealBlock [typ, 7, 0])).takeCtrl 95 typ = some (q, e) ∧ (e.afterCtrl 95).egrHeld = false ∧ (e.afterCtrl 95).relay = []) ∧
      (∃ q e, { withBlock 3 stUp (sealBlock [5, 7, 0]) with relay := [.frame ⟨94, 0, 0, 0, []⟩] }.takeCtrl 95 5 = some (q, e) ∧
        (e.afterCtrl 95).egrHeld = false ∧ (e.afterCtrl 95).relay = [.frame ⟨94, 0, 0, 0, []⟩]) ∧
      (∃ q e, ((withBlock 3 stUp (sealBlock [5, 7, 0])).put F.DEV_ISL_RESET_EGRESS 1).takeCtrl 95 5 = some (q, e) ∧ (e.afterCtrl 95).egrHeld = true) ∧
      (d0.takeCtrl 95 5).isNone ∧ (d0.takeCtrl 95 6).isNone ∧ (d0.takeCtrl 95 7).isNone ∧ (d0.takeCtrl 95 8).isNone ∧ (d0.takeCtrl 95 9).isNone ∧
      (d0.takeCtrl 95 0x10).isNone ∧ (d0.takeCtrl 95 2).isNone := by
  simp only [List.mem_cons, List.not_mem_nil, or_false, forall_eq_or_imp, forall_eq]
  exact ⟨⟨by decide +kernel, by decide +kernel⟩,
    ⟨takes_of (by decide +kernel), takes_of (by decide +kernel), takes_of (by decide +kernel), takes_of (by decide +kernel), takes_of (by decide +kernel)⟩,
    takes_of (by decide +kernel), takes_of (by decide +kernel), by decide +kernel⟩

/-- The pair's C2C group, with a gap open; its HANDOVER block. -/
def paired : Dev := { puts (lane95 3 stUp) [(F.FO_CFG_C2C, 0), (F.FO_CFG_PAIR_ID, 9)] with
  fo := { gap := some { releasing := true, own := (2, 0, 0), partner := none, agreedLeft := none, blocks := 0, sent := true }, later := false } }

theorem witness_SloldoControlBlocksAct_acts :
    (let f := replaying (lane95 3 stUp)
     (f.lane 95).tx.replay = frame7 :: [] ∧ f.replays 95 = true ∧ seqBehind frame7.seq (pf (sealBlock [5, 7, 0]) 1 0 16) = false ∧
       (f.lane 95).tx.lastReplay = none) ∧
      pf (sealBlock [7, 255, 255]) 1 0 16 = 65535 ∧ pf (sealBlock [7]) 1 0 16 = 0 ∧
      (d0.seenTrig.any fun x => x.1 == 255 && x.2.1 == 0 && decide (d0.viewIng ≤ x.2.2 + secUnit)) = false ∧
      ([(255, 0, 0)].any fun x : Nat × Nat × Nat => x.1 == 255 && x.2.1 == 0 && decide (d0.viewIng ≤ x.2.2 + secUnit)) = true ∧
      d0.fo.gap = none ∧
      (paired.fo.gap.isSome = true ∧ paired.laneGroup 95 = paired.get F.FO_CFG_C2C ∧ pf (sealBlock [9, 1, 9]) 2 0 8 = paired.get F.FO_CFG_PAIR_ID ∧
        pf (sealBlock [9, 1, 9]) 1 0 1 = b2n true) := by decide +kernel

theorem witness_SloldoControlBlocksAct_frame :
    (∃ q e, (withBlock 1 stUp (sealBlock [0x10])).takeCtrl 95 0x10 = some (q, e) ∧ crcOk q = true) ∧
      ∃ q e, ((withBlock 1 stUp (sealBlock [0x11])).updRx 95 fun r => { r with frame := some ⟨0, [], 0, false, true⟩ }).takeCtrl 95 0x11 = some (q, e) ∧
        (e.lane 95).rx.frame = some ⟨0, [], 0, false, true⟩ :=
  ⟨takes_of (by decide +kernel), takes_of (by decide +kernel)⟩

theorem witness_SloldoControlBlocksAct_line :
    (∃ q e, (withBlock 1 stUp (sealBlock [4, 15])).takeCtrl 95 4 = some (q, e) ∧ pf q 1 0 4 = 15) ∧
      (∃ q e, (withBlock 1 stUp (sealBlock [1, 1])).takeCtrl 95 1 = some (q, e) ∧ pf q 1 0 1 = 1 ∧ (e.afterCtrl 95).laneUp 95 = true) ∧
      (∃ q e, (withBlock 1 stUp (sealBlock [1, 0])).takeCtrl 95 1 = some (q, e) ∧ pf q 1 0 1 = 0) ∧
      (∃ q e, ((withBlock 1 stUp (sealBlock [3, 2])).put (F.PTP_PORT_CFG_EN 96) 1).takeCtrl 95 3 = some (q, e) ∧ pf q 1 0 2 ≠ 3 ∧
        (e.afterCtrl 95).is (F.PTP_PORT_CFG_EN (1 + 95)) = true ∧ pf q 1 0 2 ≠ 1) ∧
      (∃ q e, (withBlock 1 stWake (sealBlock [2, 0, 0])).takeCtrl 95 2 = some (q, e) ∧ (e.afterCtrl 95).laneState 95 ≠ stTraining) ∧
      ∃ q e, (withBlock 1 stTraining (sealBlock [2, 1, 0x40])).takeCtrl 95 2 = some (q, e) ∧ (e.afterCtrl 95).laneState 95 = stTraining ∧
        pf q 1 0 2 = 1 ∧ pf q 2 6 1 = 1 ∧ ((e.afterCtrl 95).lane 95).trn.change = none ∧ ((e.afterCtrl 95).lane 95).trn.stat = (0, 0, 0) :=
  ⟨takes_of (by decide +kernel), takes_of (by decide +kernel), takes_of (by decide +kernel), takes_of (by decide +kernel),
    takes_of (by decide +kernel), takes_of (by decide +kernel)⟩

theorem witness_DataBlocksJoinTheOpenFrame :
    (let d := (lane95 1 stUp).updRx 95 fun r => { r with buf := [.block false 1] }
     ((d.settleRx 95 64).lane 95).rx.buf = .block false 1 :: [] ∧ (((d.settleRx 95 64).popRx 95).lane 95).rx.frame = none) ∧
      (let d := (lane95 1 stUp).updRx 95 fun r => { r with buf := [.block false 1], frame := some ⟨0, [], 0, false, true⟩ }
       ((d.settleRx 95 64).lane 95).rx.buf = .block false 1 :: [] ∧ (((d.settleRx 95 64).popRx 95).lane 95).rx.frame = some ⟨0, [], 0, false, true⟩) ∧
      (let d := (lane95 1 stTest).put (F.LANE_PRBS_CTRL_CHK_EN 95) 1
       d.laneState 95 = stTest ∧ d.is (F.LANE_PRBS_CTRL_CHK_EN 95) = true) ∧
      (lane95 1 stHunt).laneState 95 = stHunt ∧ (lane95 1 stElecIdle).laneState 95 = stElecIdle ∧ (R.LANE_CFG 95).addr ≠ (R.LANE_RX_EQ 95).addr ∧
      (((lane95 1 stTraining).updTrn 95 fun t => { t with change := some (1, 0, 4) }).lane 95).trn.change = some (1, 0, 4) := by decide +kernel

theorem witness_TransmitHalfActs :
    (let d := replaying (lane95 3 stUp)
     upEgr (mk d) ∧ d.replays 95 = true ∧ d.laneUp 95 = true ∧ (d.lane 95).tx.replay = frame7 :: [] ∧ frame7.sent = true ∧
       (d.lane 95).tx.pause = none ∧ (d.lane 95).rx.ackDue = false) ∧
      (((replaying (lane95 3 stUp)).updRx 95 fun r => { r with ackDue := true }).lane 95).rx.ackDue = true ∧
      (let f := { frame7 with sent := false }
       (((lane95 3 stUp).updTx 95 fun t => { t with replay := [f] }).lane 95).tx.replay = f :: []) ∧
      (let d := (lane95 3 stUp).updRx 95 fun r => { r with nakWait := true }
       (d.lane 95).rx.nakWait = true ∧ d.laneUp 95 = true) ∧
      (let d := { lane95 3 stUp with ptp := { d0.ptp with owed := [(95, ⟨3, 0, 0, 0⟩)] } }
       (d.ptp.owed.find? fun o => o.1 == 95) = some (95, ⟨3, 0, 0, 0⟩) ∧ d.laneUp 95 = true) ∧
      (d0.lane 95).tx.driving = false ∧ (d0.lane 95).rotDue = none ∧
      (let d := (lane95 3 stUp).updTx 95 fun t => { t with driving := true }
       (d.lane 95).tx.driving = true ∧ d.laneState 95 ≠ stTest ∧ d.laneState 95 ≠ stTraining ∧ (d.lane 95).tx.wake = none) ∧
      (((lane95 3 stUp).updTx 95 fun t => { t with pause := some 0 }).lane 95).tx.pause = some 0 ∧ (d0.lane 95).tx.pause ≠ some 0 :=
  ⟨⟨⟨by decide +kernel, by decide +kernel⟩, by decide +kernel⟩, by decide +kernel⟩

/-- A lane that left its group's rotation due; a frame at its last send. -/
theorem witness_TransmitHalfActs_rotation :
    (let d := (lane95 3 stUp).updLane 95 fun l => { l with rotDue := some 31 }
     (d.lane 95).rotDue = some 31 ∧ d.laneUp 95 = true) ∧
      (let d := (lane95 3 stDown).updLane 95 fun l => { l with rotDue := some 31 }
       (d.lane 95).rotDue = some 31 ∧ d.laneUp 95 = false ∧ d.is (F.EGR_GROUP_CFG_REPLAY 31) = false) ∧
      (let d := (replaying (lane95 3 stUp)).updTx 95 fun t => { t with resend := [{ frame7 with sends := 9 }] }
       (d.lane 95).tx.exhausted = some { frame7 with sends := 9 } ∧ d.replays 95 = true ∧ d.laneUp 95 = true ∧ (d.lane 95).tx.pause = none ∧
         (d.lane 95).rx.buf = [] ∧ (d.lane 95).rx.frame = none ∧ d.ing.opened = none) := by decide +kernel

theorem witness_ReceiverRecoversTheBlock :
    (let x := { LaneSt.init.tx with scr := BitVec.allOnes 58, runC := 39, runV := true }
     let r := { LaneSt.init.rx with desc := BitVec.allOnes 58, runC := 39, runV := true }
     x.runC < 40 ∧ r.runV = x.runV ∧ r.runC = x.runC ∧ r.desc = x.scr ∧ r.bits = [] ∧ r.blkBad = false ∧ r.viol = false) ∧
      ((lane95 1 stUp).put (F.LANE_STATE_RX_LOCK 95) 1).is (F.LANE_STATE_RX_LOCK 95) = true := by decide +kernel

theorem witness_TrainingStartsAtTheSelectedPreset :
    upIng (mk (lane95 1 stDisabled)) ∧ (lane95 1 stDisabled).laneRole 95 ≠ roleUnused ∧ (lane95 1 stDisabled).laneState 95 = stDisabled ∧
      (lane95 1 stHunt).laneState 95 = stHunt ∧ (lane95 1 stWake).laneState 95 = stWake :=
  ⟨⟨by decide +kernel, by decide +kernel⟩, by decide +kernel, by decide +kernel, by decide +kernel, by decide +kernel⟩

/-! ### Registers and commits -/

theorem witness_RegisterFieldsFollowTheirAccessType :
    [FieldDef.mk 3 0 .rw, FieldDef.mk 63 4 .w1c].Pairwise (fun a b => a.hi < b.lo ∨ b.hi < a.lo) ∧
      (∀ e ∈ regBlocks, ∀ row ∈ e.2, row.fields.Pairwise fun a b => a.hi < b.lo ∨ b.hi < a.lo) := by decide +kernel

theorem witness_RefusedWritesChangeNothing :
    allHeld.dev.up = true ∧ allHeld.dev.blockHeld (R.LANE_CFG 95).addr = true ∧ d0.blockHeld (R.LANE_CFG 95).addr = false ∧
      (regRow 0xF000860000).isNone = true ∧
      (match regRow R.PAT_ACTIVATE_AT.addr with | some (row, _, _) => row.whole && row.width == 64 | none => false) = true ∧
      (match regRow R.DEV_ISL_RESET.addr with
        | some (row, ix, off) => act.writeRefused row.id (ix.getD 0 0) (0x200 * 2 ^ (8 * off)) ((2 ^ 32 - 1) * 2 ^ (8 * off)) | none => false) = true ∧
      act.active = true ∧ bitsOf 0x200 9 8 ≠ 0 ∧ d0.active = false ∧ bitsOf 0xFF 9 8 = 0 ∧
      (weltTarget 0xF001700000 ≠ 5 ∧ weltTarget (R.LANE_CFG 95).addr = 5 ∧ weltTarget 0xF000860000 = 5) ∧
      (bitOf 0x80 7 = true ∧ d0.islHeld 7 = false ∧ d0.pat.next = [] ∧ bitOf 0x80 (0 / 8) = d0.islHeld (0 / 8)) := by decide +kernel

theorem witness_RegisterWriteStoresThenActs :
    (match regRow (R.LANE_CFG 95).addr with
      | some (row, ix, off) => weltTarget (R.LANE_CFG 95).addr == 5 && !d0.blockHeld (R.LANE_CFG 95).addr && (R.LANE_CFG 95).addr % 4 == 0 && (!row.whole || row.width ≤ 32) &&
          row.id != .INTC_PRIO && !d0.writeRefused row.id (ix.getD 0 0) 0 ((2 ^ 32 - 1) * 2 ^ (8 * off))
      | none => false) = true := by decide +kernel

theorem witness_WholeWidthRegistersAreExactlyR500 : ∃ e ∈ regBlocks, ∃ row ∈ e.2, row.whole = true := by decide +kernel

theorem witness_OnlyPopRegistersReadWithAnEffect :
    (∃ e ∈ regBlocks, ∃ row ∈ e.2, ∃ f ∈ row.fields, f.acc = .pop) ∧
      (¬ ((R.INTC_CLAIM 15).addr = R.PTP_TS_POP.addr ∧ 64 = 64) ∧ ∀ c, c < 16 → ¬ ((R.INTC_CLAIM 15).addr = (R.INTC_CLAIM c).addr ∧ 64 = 32)) := by
  decide +kernel

/-- ING.FRAME_HEAD at 7, with a pattern active. -/
def head7 : Dev := act.put F.ING_FRAME_HEAD_HEAD 7

theorem witness_LateCommitsAreRefused :
    (head7.up = true ∧ head7.ingHeld = false ∧ 7 % 2 ^ 48 ≤ head7.get F.ING_FRAME_HEAD_HEAD) ∧ head7.get F.ING_FRAME_HEAD_HEAD < 8 % 2 ^ 48 ∧
      { d0.ing with slotAt := some 9 }.slotAt.isSome = true ∧ head7.active = true := by decide

/-- Group 63 with a map of one device-time unit a sample, at a device time. -/
def timed63 (now : Nat) : Dev :=
  { d0.setGroup 63 { GroupSt.init with maps := [(0, { sc := 0, ref := 0, period := 1 })] } with viewIng := now }

/-- A pattern active in which stream 8191 is the one member of group 63, in a frame that ingest has opened. -/
def member63 (now : Nat) : Dev :=
  let d := puts (timed63 now) [(F.PAT_STATUS_ACTIVE, 1), (F.ING_CT_CFG_NUM_CH, 16), (F.ING_SIG_ENTRY_MAPPED 8191, 1), (F.ING_SIG_ENTRY_AG 8191, 63)]
  { d with ing := { d.ing with opened := some 0 } }

theorem witness_IngestCommandsAct_groups :
    (let d := timed63 1000000
     let x := d.group 63
     let n := (firstFrameAfter ((x.maps.head?.map (·.2)).getD TimeMap.reset) (d.epoch 63) d.viewIng).getD x.top
     x.top ≤ n ∧ x.fold < n ∧ d.deadline 63 x.fold ≤ d.viewIng ∧ (timed63 0).viewIng < (timed63 0).deadline 63 ((timed63 0).group 63).fold) ∧
      (let d := d0.setGroup 63 { GroupSt.init with fold := 1000 }
       let m := (((d.group 63).maps.head?.map (·.2)).getD TimeMap.reset)
       (firstFrameAfter m (d.epoch 63) d.viewIng).getD (d.group 63).top < (d.group 63).top) ∧
      (let d := member63 1000000
       d.deadline 63 0 ≤ d.viewIng ∧ d.active = true ∧ d.ing.first ≤ 0 ∧ d.stoppedFor 0 = false ∧ d.members 0 63 = [8191] ∧
         d.maskedFor 0 8191 = false ∧ d.streamFull 63 0 8191 = false) ∧
      (d0.pat.armed = none ∧ d0.generated ((d0.group 63).tail 64 (max (d0.group 63).fold d0.ing.first)) = false) ∧
      (let d := puts (member63 0) [(F.DEV_MODE_MODE, 6), (F.DEV_TEST_CFG_GEN, 1)]
       let q := (d.group 63).tail 64 (max (d.group 63).fold d.ing.first)
       d.pat.armed = none ∧ d.ing.opened = some 0 ∧ q ≤ 0 ∧ d.generated q = true ∧ d.stoppedFor q = false ∧ d.frameOpen 63 q = true ∧
         d.members q 63 = [8191] ∧ d.is (F.ING_STREAM_ST_OUT 8191) = false ∧ (d.stream 8191).inFrom ≤ q) := by decide +kernel

/-- An item at the head of the crossing to island 7, where panel 63 runs. -/
def toIsl7 (i : IslItem) : Dev := let d := panel63 0 0; { d with ing := { d.ing with toIsl := Tab.set [] d.ing.toIsl 7 [i] } }

theorem witness_IngestCommandsAct_crossings :
    (toIsl7 (.marker 5)).islHeld 7 = false ∧ (Tab.get [] (toIsl7 (.marker 5)).ing.toIsl 7 = .marker 5 :: [] ∧ (toIsl7 (.marker 5)).islLive 7 = true) ∧
      Tab.get [] (toIsl7 (.drain 5)).ing.toIsl 7 = .drain 5 :: [] ∧ Tab.get [] (toIsl7 (.swap 5 true)).ing.toIsl 7 = .swap 5 true :: [] ∧
      Tab.get [] (toIsl7 (.mask 5 true)).ing.toIsl 7 = .mask 5 true :: [] ∧ Tab.get [] (toIsl7 (.stat 5 [])).ing.toIsl 7 = .stat 5 [] :: [] ∧
      (let r : StatRec := { n := 4096, masked := false, out := false, bad := false, s1 := 0, s2 := 0, stream := 8191, ct := 0, chan := 16, frame := 5 }
       let d := (toIsl7 (.stat 5 [r])).put (F.ISL_STAT_RING_LEN 7 1) 1
       Tab.get [] d.ing.toIsl 7 = .stat 5 [r] :: [] ∧ r.chan / 16 % 2 = 1 ∧ d.occOpen 7 5 = true ∧ d.statUsed 7 1 + 1 ≤ d.icfg 7 5 (F.ISL_STAT_RING_LEN 7 1) ∧
         (d.put (F.ISL_STAT_WR_COUNT 7 1) 1).icfg 7 5 (F.ISL_STAT_RING_LEN 7 1) < (d.put (F.ISL_STAT_WR_COUNT 7 1) 1).statUsed 7 1 + 1) := by
  decide +kernel

/-- One channel of SDRAM ONLINE, all of it written. -/
def oneChan : Dev :=
  let d := puts d0 [(F.MEM_CH_STATUS_STATE 0, chOnline), (F.MEM_ILV_MASK, 1)]
  { d with sd := { d.sd with written := [(0, 2 ^ 44)] } }

/-- Island 7 with panel 63 running, a plan of one unit of one sample, and frame 0 complete and marked. -/
def filler7 : Dev :=
  (puts (panel63 0 0) [(F.PAT_STATUS_ACTIVE, 1), (F.ING_FRAME_TAIL_TAIL, 1)]).updIsl 7 fun x =>
    { x with plan := [{ fu0 with nc := 1, nt := 1, ns := 1 }], marked := some 0 }

/-- Island 7 with a unit of one sample in flight. -/
def flying (d : Dev) (zero drop : Bool) : Dev := d.updIsl 7 fun x =>
  { x with units := [{ frame := 0, num := 0, fu := { fu0 with nc := 1, nt := 1, ns := 1 }, zero := zero, full := false, drop := drop, relu := [] }] }

theorem witness_IngestCommandsAct_filler :
    (let d := filler7
     (d.isl 7).nextFill = (0, 0) ∧ (d.planFor 7 0)[0]? = some { fu0 with nc := 1, nt := 1, ns := 1 } ∧ d.islLive 7 = true ∧ d.active = true ∧
       d.lostFrame 7 0 = none ∧ (d.isl 7).units = [] ∧ 0 ≤ d.islFrame 7 + d.icfg 7 0 (F.ISL_FILL_CFG_RUN_AHEAD 7) ∧ 0 < d.get F.ING_FRAME_TAIL_TAIL ∧
       (d.isl 7).marked = some 0 ∧ (d.put F.ING_FRAME_TAIL_TAIL 0).get F.ING_FRAME_TAIL_TAIL ≤ 0) ∧
      (((flying d0 false true).isl 7).units.find? fun e => !e.full).any (·.drop) = true ∧
      (((flying d0 true false).isl 7).units.find? fun e => !e.full).any (fun e => !e.drop && e.zero) = true ∧
      (∀ v, v ∈ ({ fu0 with nc := 1, nt := 1, ns := 1 } : FillUnit).samples 1 →
        (let d := (flying oneChan false false).put (F.MEM_CH_STATUS_STATE 0) chTraining
         d.memBusy (d.ctAddr 0 v.2.2.2 7 v.2.2.1 v.2.1) 1 = true) ∧
          (let d := flying oneChan false false
           let a := d.ctAddr 0 v.2.2.2 7 v.2.2.1 v.2.1
           d.memBusy a 1 = false ∧ (d.memRead a 1).err = false ∧ (d.memRead a 1).ue = [])) ∧
      ((d0.isl 7).units.find? fun e => !e.full) = none := by decide +kernel

/-- A corner-turn write of two bytes at address 0. -/
def write0 : CtWrite := { id := 0, frame := 0, group := 0, stream := 0, addr := 0, cells := [(0, 1), (1, 2)], pos := [] }
def sent0 (st : Nat) : Dev := let d := oneChan.put (F.MEM_CH_STATUS_STATE 0) st; { d with ing := { d.ing with sent := [write0] } }

theorem witness_IngestCommandsAct_writes :
    (let d := { oneChan with ing := { d0.ing with staging := [write0] } }
     (d.ing.staging.find? fun w => (d.chanOf w.addr).1 == 0) = some write0 ∧ d.indigoUsed 0 + write0.cells.length ≤ 16384) ∧
      (d0.ing.sent.find? fun w => (d0.chanOf w.addr).1 == 11) = none ∧
      (∀ st, st ∈ [chOnline, chTraining, chOffline] → ((sent0 st).ing.sent.find? fun w => ((sent0 st).chanOf w.addr).1 == 0) = some write0) ∧
      (∃ x, x ∈ write0.cells ∧ (sent0 chTraining).memBusy x.1 1 = true) ∧
      (∀ x, x ∈ write0.cells → (sent0 chOnline).memBusy x.1 1 = false ∧ (sent0 chOnline).beatLost x.1 = false ∧ (sent0 chOnline).sdramInUse x.1 1 = true) ∧
      write0.cells.Pairwise (fun a b => a.1 ≠ b.1) ∧
      ((∀ x, x ∈ write0.cells → (sent0 chOffline).memBusy x.1 1 = false) ∧ ∃ x, x ∈ write0.cells ∧ (sent0 chOffline).beatLost x.1 = true) := by
  decide +kernel

/-! ### Time, interrupts, monitor and housekeeping -/

theorem witness_TimeRegistersAct :
    (0x7FFFFFFFFFFFFFFF < 2 ^ 64 ∧ (d0.put F.TIM_STATUS_HW_OWNS 1).is F.TIM_STATUS_HW_OWNS = true ∧ d0.is F.TIM_STATUS_HW_OWNS = false) ∧
      (incMin ≤ incMax ∧ incMin - 1 < incMin ∧ incMax < incMax + 1) ∧
      (d0.get F.TIM_CTRL_LOAD_AT ≠ 1 ∧ d0.get F.TIM_CTRL_LOAD_AT ≠ 2 ∧ d0.active = false) ∧ act.active = true ∧
      (d0.put F.TIM_CTRL_LOAD_AT 2).get F.TIM_CTRL_LOAD_AT = 2 ∧ (incMin ≤ incMin ∧ incMin ≤ incMax ∧ incMax < 2 ^ 64) := by decide +kernel

theorem witness_ReferencesAndOutputsAct :
    (bitsOf 0x00A5 15 12 ≠ 15 - bitsOf 0x00A5 11 8) ∧
      (bitsOf 0xF0A5 7 0 = 0xA5 ∧ bitsOf 0xF0A5 15 12 = 15 - bitsOf 0xF0A5 11 8 ∧
        (let d := { d0 with tim := { d0.tim with lines := Tab.set (15, 15) d0.tim.lines 3 (15, 0) } }
         (Tab.get (15, 15) d.tim.lines 3).2 = bitsOf 0xF0A5 11 8)) ∧
      (d0.put F.TIM_PTP_REF_WDOG 0).get F.TIM_PTP_REF_WDOG = 0 ∧ (d0.put F.TIM_PTP_REF_WDOG 1).get F.TIM_PTP_REF_WDOG ≠ 0 ∧
      d0.timState ≠ timSwitching ∧
      (let d := puts d0 [(F.TIM_STATUS_STATE, timSwitching), (F.TIM_STATUS_TARGET, 10)]
       d.timState = timSwitching ∧ d.refTarget ≠ 8 ∧ d.refTarget ≠ 9 ∧
         d.time < d.tim.swAt + max 1 (d.get F.TIM_SEL_CFG_BO) * secUnit ∧
         (let e := { d with time := max 1 (d.get F.TIM_SEL_CFG_BO) * secUnit }
          e.timState = timSwitching ∧ e.refTarget ≠ 8 ∧ e.refTarget ≠ 9 ∧ e.tim.swAt + max 1 (e.get F.TIM_SEL_CFG_BO) * secUnit ≤ e.time)) ∧
      timeSec d0.time = d0.tim.epoch ∧ timeSec { d0 with time := secUnit }.time ≠ d0.tim.epoch ∧
      (∀ x, x ∈ [d0, d0.put (F.TIM_FO_OFFSET_NS 3) 1] →
        (x.time < x.frameOutRise 3 0 0 ↔ x.get (F.TIM_FO_OFFSET_NS 3) = 1)) ∧
      (d0.put F.TIM_PPS_OUT_PPS_EN 1).is F.TIM_PPS_OUT_PPS_EN = true ∧ (d0.tim.trains.find? fun e => e.1 == 3) = none ∧
      ({ d0.tim with trains := [(3, 0, 0)] }.trains.find? fun e => e.1 == 3) = some (3, 0, 0) ∧
      (let d := puts d0 [(F.TIM_STATUS_STATE, timSwitching), (F.TIM_STATUS_TARGET, 9), (F.TIM_CTRL_REVERTIVE, 0)]
       let e := { d with time := max 1 (d.get F.TIM_SEL_CFG_BO) * secUnit }
       e.timState = timSwitching ∧ e.builtOut = true ∧ e.is F.TIM_CTRL_REVERTIVE = false ∧ e.is F.TIM_CTRL_FORCE_EN = false) ∧
      (∀ act, act ∈ [0, 2 ^ 11 - 1] → d0.refFails 10 act 0 ≠ 0) ∧ d0.tim.load = none ∧
      { d0.tim with load := some (2, 0, 0) }.load = some (1 + 1, 0, 0) := by decide +kernel

/-- R405: with PPS_OUT's width at 2 µs, the output that rose at time 0 is high just before 2 µs and low from there. -/
theorem test_pps_out_width :
    let d := puts d0 [(F.TIM_PPS_OUT_PPS_EN, 1), (F.TIM_PPS_OUT_WIDTH, 2)]
    let d := { d with tim := { d.tim with ppsRise := some 0 } }
    { d with time := 2000 * nsUnit - 1 }.ppsOut = true ∧ { d with time := 2000 * nsUnit }.ppsOut = false := by decide +kernel

/-- R465: a block's first frame begins with preamble Z, has 64 time slots of two half cells, and each half's parity is even. -/
theorem test_aes_line :
    let x : AesOut := { on := true, a := -1, b := 5, invalid := false, place := 0, cs := true }
    x.line.length = 128 ∧ x.line.take 8 = [true, true, true, false, true, false, false, false] ∧
      ((x.slots false).filter id).length % 2 = 0 ∧ ((x.slots true).filter id).length % 2 = 0 := by decide +kernel

/-- R469: the 50 Hz notch has decimation 100,000, so under sinc4 a conversion lasts 400,000 cycles. -/
theorem test_hk_settle : (puts d0 [(F.HK_CFG_NOTCH, 1), (F.HK_CFG_ORDER, 1)]).hkSettle = 400000 := by decide +kernel

/-- A stamp at the head of the FIFO. -/
def stamp1 : PtpStamp := { tx := true, port := 96, type := 8, domain := 0, seqId := 65535, time := 0, carried := 0 }

theorem witness_TimeStampsLeaveInOrder :
    d0.ptp.fifo = [] ∧ { d0.ptp with fifo := [stamp1] }.fifo = stamp1 :: [] ∧ (bitsOf 95 9 8 < 2 ∧ bitsOf 95 6 0 < 96 ∧ (lane95 1 stUp).laneUp 95 = true) ∧
      96 ≤ bitsOf 96 6 0 ∧ 2 ≤ bitsOf 0x200 9 8 := by decide

/-- Source 383 pending and enabled for context 15 at priority 7. -/
def source383 : Dev :=
  (puts d0 [(F.INTC_ENABLE_EN 15 11, 2 ^ 31), (F.INTC_PRIO_PRIO 383, 7)]).setIntc { d0.intc with pend := 2 ^ 383 }

theorem witness_InterruptsClaimAndComplete :
    d0.bestSource (d0.qualifying 15) = 0 ∧ source383.bestSource (source383.qualifying 15) = 383 ∧ 383 ∈ source383.qualifying 15 ∧
      Tab.get 0 d0.intc.claimed 383 ≠ 15 + 1 ∧
      (let d := source383.setIntc { source383.intc with claimed := [(383, 16)] }
       Tab.get 0 d.intc.claimed 383 = 15 + 1 ∧ d.intEnabled 15 383 = true) ∧
      coreHoldAllowed 0xFF = false ∧ coreHoldAllowed 0xFE = true ∧ source383.bestSource (source383.qualifying 15) ≠ 0 ∧
      (bitOf 0x7F 7 = false ∧ d0.hartHeld 7 = true ∧ coreHoldAllowed 0x7F = coreHoldAllowed 0x7F) ∧ (bitOf 0xFE 0 = false ∧ d0.hartHeld 0 = false) := by
  decide +kernel

theorem witness_MonitorRefusesAsR463States :
    (d0.put (F.MON_STATUS_STATE 1) monRun).monState 1 ≠ monIdle ∧ upEgr State.reset ∧
      (d0.put (F.MON_RATIO_INC 1) (2 ^ 29 - 1)).get (F.MON_RATIO_INC 1) < 2 ^ 29 ∧
      2 ^ 33 ≤ (d0.put (F.MON_RATIO_INC 1) (2 ^ 33)).get (F.MON_RATIO_INC 1) ∧ 12 < (d0.put (F.MON_CFG_STAGES 1) 13).get (F.MON_CFG_STAGES 1) :=
  ⟨by decide, ⟨by decide, by decide⟩, by decide, by decide, by decide⟩

theorem witness_MonitorOutputsStartRunAndStop :
    (let d := d0.put (F.MON_RATIO_INC 1) (2 ^ 29)
     2 ^ 29 ≤ d.get (F.MON_RATIO_INC 1) ∧ d.get (F.MON_RATIO_INC 1) < 2 ^ 33 ∧ d.get (F.MON_CFG_STAGES 1) ≤ 12 ∧ d.monState 1 = monIdle) ∧
      (d0.setMonState 1 monRun).monState 1 = monRun ∧ (d0.setMonState 1 monRun).monState 1 ≠ monIdle ∧
      (d0.setMonState 1 monFadeIn).monState 1 = monFadeIn ∧ (d0.setMonState 1 monWaitZc).monState 1 = monWaitZc ∧ (d0.mon1 1).src = [] ∧
      (let m : MonSrc := { cnt := 5, left := 1, codes := [], at_ := 0 }
       let d := (d0.setMonState 1 monFilling).setMon 1 { d0.mon1 1 with src := [m], next := none }
       (d.mon1 1).src = m :: [] ∧ d.monState 1 ≠ monIdle ∧ (d.mon1 1).next.getD m.cnt = m.cnt ∧ (d.mon1 1).buf.length < 16384) ∧
      d0.monState 1 = monIdle ∧ (d0.setMonState 1 monFilling).monState 1 = monFilling ∧
      (d0.monIn.buf.length < 16 ∧ d0.monIn.block = [] ∧ isPaPb d0.monIn.prev 0 = false ∧ isPaPb 0 0 = false ∧ d0.monIn.csMute = false ∧
        d0.monIn.quiet < 8191) := by decide

theorem witness_HousekeepingConverts :
    (let d := { d0 with hk := { scan := some 23, urgent := none, held := none } }
     d.hk.urgent = none ∧ d.hk.scan = some 23) ∧
      { d0.hk with urgent := some 23 }.urgent = some 23 ∧ ({ d0.hk with scan := none }.urgent = none ∧ { d0.hk with scan := none }.scan = none) ∧
      (let h := { d0.hk with urgent := some 23 }
       h.urgent.isSome = true ∧ h.held = none) ∧
      (let h := { d0.hk with urgent := some 23, held := some 0 }
       h.urgent.isSome = true ∧ h.held.isSome = true) := by decide

/-! ### Patterns and memory -/

/-- The pattern port in a state. -/
def port (st : Nat) : Dev := d0.put F.PAT_STATUS_STATE st
/-- An image that holds nothing. -/
def image0 : PatBank :=
  { id := 1, mode := 0, chip := 0, gen := 0, re := 0, im := 0, dram := 0, clkN := [], words := [], ucode := [], fills := [], broken := [] }

/-- The port in a state, with these changes of pattern to come. -/
def coming (cold : Bool) (l : List (Nat × Option PatBank)) : Dev := { d0 with pat := { d0.pat with cold := cold, next := l } }

theorem witness_PatternPortMovesBetweenItsStates :
    (port patSwapping).patState = patSwapping ∧ (port patLoaded).patState = patLoaded ∧ (port patArmed).patState = patArmed ∧ (port patArmed).ingHeld = false ∧
      ((port patError).patState ≠ patLoading ∧ (port patError).patState ≠ patArmed ∧ (port patError).patState ≠ patSwapping ∧
        (port patError).patState ≠ patLoaded) ∧
      (d0.ingHeld = false ∧ d0.is F.ECC_DIAG_CTRL_EN = false) ∧
      (let d := (port patLoaded).put F.ING_FRAME_HEAD_HEAD 7
       d.patState = patLoaded ∧ 7 % 2 ^ 48 ≤ d.get F.ING_FRAME_HEAD_HEAD ∧ d.get F.ING_FRAME_HEAD_HEAD < 8 % 2 ^ 48) ∧
      (head7.active = true ∧ head7.stopping = false ∧ head7.pat.next = [] ∧ head7.ingHeld = false) ∧ d0.active = false ∧ d0.pat.cold = false ∧
      ((coming true [(8, some image0)]).pat.cold = true ∧ (coming true [(8, some image0)]).pat.next = (8, some image0) :: []) := by decide

/-- A load in progress of an image at address 0: nothing to read there, or a header of zeros. -/
def loading (base : Dev) : Dev := { base.put F.PAT_STATUS_STATE patLoading with pat := { d0.pat with load := (0, 128) } }

theorem witness_PatternPortMovesBetweenItsStates_load :
    (let d := loading (oneChan.put F.MEM_ILV_MASK 0)
     d.patState = patLoading ∧ d.engineBusy 0 128 = false ∧ (d.engineRead 2 3 0 64 (true, [])).2.1 = false) ∧
      (let d := loading oneChan
       let h := d.engineRead 2 3 0 64 (true, [])
       d.patState = patLoading ∧ d.engineBusy 0 128 = false ∧ h.2.1 = true ∧ lengthOk (le h.2.2 8 4) 128 = false) ∧
      (loading (oneChan.put (F.MEM_CH_STATUS_STATE 0) chTraining)).engineBusy 0 128 = true := by decide +kernel

theorem witness_PatternPortMovesBetweenItsStates_swap :
    (let d := (List.range 8).foldl (fun (d : Dev) k => d.updIsl k fun x => { x with held := true }) (coming false [(8, some image0)])
     d.pat.cold = false ∧ d.pat.next = (8, some image0) :: [] ∧ d.swapSettled 8 = true) ∧
      (let d := (List.range 8).foldl (fun (d : Dev) k => d.updIsl k fun x => { x with held := true }) (coming false [(8, none)])
       d.pat.next = (8, none) :: [] ∧ d.swapSettled 8 = true ∧ ((List.range 8).all fun k => (d.isl k).tabs.isEmpty) = true) := by decide +kernel

/-- Channel 11 in a state. -/
def chan (st : Nat) : Dev := d0.put (F.MEM_CH_STATUS_STATE 11) st
def req0 : MemReq := { port := 0, cls := 0, write := false, addr := 0, len := 64, urg := 0 }

theorem witness_MemoryChannelsTrainAndFail :
    ((chan chUntrained |>.put F.PAT_STATUS_ACTIVE 1).active = true ∧ (chan chUntrained |>.put F.PAT_STATUS_ACTIVE 1).chanState 11 ≠ chOnline) ∧
      ((chan chAbsent).active = false ∧ (chan chAbsent).chanState 11 = chAbsent) ∧
      ((chan chOffline).active = false ∧ (chan chOffline).chanState 11 ≠ chAbsent ∧ (chan chOffline).chanState 11 ≠ chTraining) ∧
      (chan chTraining).chanState 11 = chTraining ∧ (chan chOnline).chanState 11 = chOnline ∧ (chan chOffline).chanState 11 ≠ chOnline ∧
      (let d := (chan chOnline).updMemCh 11 fun q => { q with queue := [req0] }
       d.chanState 11 = chOnline ∧ d.get (F.MEM_CH_STATUS_OWED 11) = 0 ∧ d.pickReq (d.memCh 11) = some req0) ∧
      (d0.memCh 11).busy = [] ∧ ((d0.updMemCh 11 fun q => { q with busy := [req0] }).memCh 11).busy = req0 :: [] ∧
      ((chan chOnline).memCh 11).queue = [] ∧ (chan chOnline).get (F.MEM_CH_STATUS_OWED 11) = 0 := by decide

theorem witness_ScrubbingInterleaveAndRepair :
    (d0.put F.MEM_SCRUB_EN 0).is F.MEM_SCRUB_EN = false ∧
      ((chan chOnline |>.put F.MEM_SCRUB_EN 1).is F.MEM_SCRUB_EN = true ∧ (chan chOnline |>.put F.MEM_SCRUB_EN 1).chanState 11 = chOnline) ∧
      (d0.sd.back.find? fun a => (d0.chanOf a).1 == 11) = none ∧
      (let d := { oneChan with sd := { oneChan.sd with back := [0] } }
       (d.sd.back.find? fun a => (d.chanOf a).1 == 0) = some 0) ∧
      (scrubWords 0x80 = 0 ∧ scrubWords 0x7F ≠ 0 ∧ (d0.put F.ECC_ONCHIP_SCRUB_EN 1).is F.ECC_ONCHIP_SCRUB_EN = true) ∧
      (∃ c, c < 12 ∧ bitOf 0x800 c = true ∧ d0.chanState c ≠ chOnline) ∧
      ((chan chOnline).active = false ∧ ∀ c, c < 12 → bitOf 0x800 c = true → (chan chOnline).chanState c = chOnline) ∧
      (bitOf 1 0 = true ∧ act.active = true) ∧
      (d0.active = false ∧ d0.is F.FUSE_REPAIR_STATUS_BUSY = false ∧ repairUsed (Tab.get 0 d0.fuses 63) = false ∧ bitsOf (63 * 2 ^ 32 + 1) 37 32 = 63) ∧
      d0.burning = none ∧ { d0 with burning := some (63, 16) }.burning = some (63, 16) := by decide +kernel

/-! ### Spill, verdicts, beams and egress -/

/-- One channel ONLINE as the interleave set; SPILL region of 64 KiB pages 0 to 16; an item at the head of island 7's crossing. -/
def spillDev : Dev := puts oneChan [(F.MEM_SPILL_BASE_BASE, 0), (F.MEM_SPILL_LIMIT_LIMIT, 16)]
def toMem7 (i : MemItem) : Dev := spillDev.updIsl 7 fun x => { x with toMem := [i] }
def planeItem (a : Nat) (init : Bool) : MemItem := .plane 63 4095 a 0 init [] 0 0
def training (d : Dev) : Dev := d.put (F.MEM_CH_STATUS_STATE 0) chTraining

theorem witness_SpillAdderTakesPlanesClosesAndDrains_planes :
    (d0.isl 7).toMem = [] ∧ ((toMem7 (planeItem 512 true)).isl 7).toMem = planeItem 512 true :: [] ∧
      ((toMem7 (planeItem 512 true)).recordFits 0 512 0 = true ∧ (toMem7 (planeItem 512 true)).recordBusy 0 512 0 = false ∧
        (training (toMem7 (planeItem 512 true))).recordFits 0 512 0 = true ∧ (training (toMem7 (planeItem 512 true))).recordBusy 0 512 0 = true) ∧
      (toMem7 (planeItem 513 false)).recordFits 0 513 0 = false ∧
      (let d := toMem7 (.mark 63 1 0 0)
       (d.isl 7).toMem = .mark 63 1 0 0 :: [] ∧ (d.spill.writes.any fun w => w.1 == 63) = false ∧ d.dumpBusy 63 = false ∧
         d.cfg 0 (F.MEM_SPILL_LIST_COUNT 63) = 0) ∧
      ((toMem7 (.mark 63 1 0 0)).put (F.MEM_SPILL_LIST_COUNT 63) 1).cfg 0 (F.MEM_SPILL_LIST_COUNT 63) ≠ 0 ∧
      ((toMem7 (.mark 63 1 0 0)).put F.MEM_DUMP_BUSY_BUSY (2 ^ 63)).dumpBusy 63 = true := by decide +kernel

/-- Panel 63's spill list of one entry at 0x20000, its parity-0 record at 512 and its parity-1 record at 0x1000 (R185). -/
def listed7 : Dev :=
  (puts (toMem7 (planeItem 512 true)) [(F.MEM_SPILL_LIST_BASE 63, 0x2000), (F.MEM_SPILL_LIST_COUNT 63, 1)]).wrBytes 0x20000 (toBytes 4 8 ++ toBytes 4 64)

/-- A plane is well placed on the record of its integration's parity only, with CLOSE_TAKE 0 (R185, R202). -/
theorem witness_SpillAdderTakesPlanesClosesAndDrains_placed :
    listed7.recordPlaced 63 0 512 = true ∧ listed7.recordPlaced 63 0 0x1000 = false ∧ listed7.recordPlaced 63 0 513 = false ∧
      (listed7.put (F.PNL_INT_START_PARITY 63) 1).recordPlaced 63 0 0x1000 = true ∧
      (listed7.put (F.PNL_RETR_CFG_CLOSE_TAKE 63) 1).recordPlaced 63 0 512 = false ∧
      listed7.recordFits 0 512 0 = true ∧ listed7.recordBusy 0 512 0 = false ∧ (listed7.isl 7).toMem = planeItem 512 true :: [] := by decide +kernel

/-- X panels of one island with other run lengths have different run grids (R210). -/
theorem test_gridsDiffer :
    (puts d0 [(F.PNL_CFG_MODE 56, 1), (F.PNL_CFG_MODE 63, 1), (F.PNL_INT_CFG_RUNS 63, 3)]).gridsDiffer 7 = true ∧
      (puts d0 [(F.PNL_CFG_MODE 56, 1), (F.PNL_CFG_MODE 63, 2), (F.PNL_INT_CFG_RUNS 63, 3)]).gridsDiffer 7 = false := by decide +kernel

/-- Regions clash within a pattern, and with other regions of the outgoing one (R134, R284). -/
theorem test_clashes :
    clashes [] [(0, 0, 4096), (1, 4095, 8192)] = [(4095, 4096)] ∧ clashes [(0, 0, 4096)] [(0, 0, 4096)] = [] ∧
      clashes [(0, 0, 4096)] [(0, 64, 8192)] = [(64, 4096)] := by decide

/-- The first record of a dump read of panel 63, in front of a list of one entry. -/
def dump63 : DumpRead := { panel := 63, parity := 0, f := 1, start := 0, entry := 0 }
def dumping (d : Dev) : Dev := { d with spill := { d.spill with dumps := [dump63] } }

theorem witness_SpillAdderTakesPlanesClosesAndDrains_dumps :
    (d0.spill.writes.find? fun w => w.1 == 63) = none ∧ ({ d0.spill with writes := [(63, 0)] }.writes.find? fun w => w.1 == 63) = some (63, 0) ∧
      (d0.spill.dumps.find? fun x => x.panel == 63) = none ∧
      (let d := dumping listed7
       (d.spill.dumps.find? fun x => x.panel == 63) = some dump63 ∧ d.memCrossingFull 63 = false ∧ 0 < d.cfg 0 (F.MEM_SPILL_LIST_COUNT 63) ∧
         d.memBusy (d.cfg 0 (F.MEM_SPILL_LIST_BASE 63) * 16) 16 = false ∧ d.egrHeld = false ∧
         d.listEntry dump63 = some (512, 0, 0) ∧ d.recordBusy 0 512 0 = false) ∧
      (dumping spillDev).cfg 0 (F.MEM_SPILL_LIST_COUNT 63) ≤ dump63.entry ∧
      (let d := training (dumping listed7)
       d.memBusy (d.cfg 0 (F.MEM_SPILL_LIST_BASE 63) * 16) 16 = true) ∧
      (let d := dumping (puts spillDev [(F.MEM_ILV_MASK, 0), (F.MEM_SPILL_LIST_COUNT 63, 1)])
       d.memCrossingFull 63 = false ∧ 0 < d.cfg 0 (F.MEM_SPILL_LIST_COUNT 63) ∧ d.memBusy (d.cfg 0 (F.MEM_SPILL_LIST_BASE 63) * 16) 16 = false ∧
         d.listEntry dump63 = none) ∧
      (let d := { spillDev with spill := { spillDev.spill with toEgr := [.plane ⟨63, 0, 0, [], 0, some 1⟩] } }
       d.memCrossingFull 63 = true) := by decide +kernel

theorem witness_SpillAdderTakesPlanesClosesAndDrains_drains :
    (d0.ingHeld = false ∧ d0.active = false) ∧ (head7.ingHeld = false ∧ head7.active = true ∧ 7 % 2 ^ 48 ≤ head7.get F.ING_FRAME_HEAD_HEAD) ∧
      (d0.is F.DEV_DRAIN_STATUS_LATE = false ∧ head7.get F.ING_FRAME_HEAD_HEAD < 8 % 2 ^ 48 ∧ 4 ≤ ([(9, 1), (10, 1), (11, 1), (12, 1)].filter fun x : Nat × Nat => x.1 ≠ 8).length) ∧
      ([(8, 1), (9, 1), (10, 1), (11, 1)].filter fun x : Nat × Nat => x.1 ≠ 8).length < 4 ∧ d0.spill.drains = [] ∧
      (let d := (panel63 0 0).put (F.PNL_INT_START_START 63) 4
       let d := { d with spill := { d.spill with drains := [(5, 0x80)] } }
       d.spill.drains = (5, 0x80) :: [] ∧ ((maskPanels 0x80).all fun p => d.drainPassed p 5) = false ∧
         ((maskPanels 0x80).all fun p => d.drainPassed p 4) = true) := by decide +kernel

/-- Island 7 owns channels 0 to 15 of one stream, with frame counter 40,000 and HORIZON 0. -/
def verdict7 : Dev :=
  puts d0 [(F.ING_CT_CFG_STREAMS, 1), (F.ING_CH_BLOCK_FIRST 7, 0), (F.ING_CH_BLOCK_COUNT 7, 16), (F.ISL_FRAME_NO_FRAME_NO 7, 40000),
    (F.ISL_VERDICT_CFG_HORIZON 7, 0)]

/-- The conditions of the four outcomes on verdict word v at island 7. -/
def isRejected (d : Dev) (v : Nat) : Prop :=
  let nn := (d.verdictFrame 7 (bitsOf v 15 0)).toNat
  ¬ (bitsOf v 44 32 < d.cfg nn F.ING_CT_CFG_STREAMS ∧ d.chFirst nn 7 / 16 ≤ bitsOf v 23 16 ∧ 16 * bitsOf v 23 16 < d.chFirst nn 7 + d.chCount nn 7)
def isStale (d : Dev) (v : Nat) : Prop :=
  let n := d.verdictFrame 7 (bitsOf v 15 0)
  n < 0 ∨ n.toNat + d.icfg 7 n.toNat (F.ISL_VERDICT_CFG_HORIZON 7) < d.islFrame 7 ∨ (d.isl 7).sealedFrame n.toNat = true

theorem witness_VerdictsAreCheckedAndHandled :
    isRejected verdict7 (2 ^ 32 + 40000) ∧ isRejected verdict7 (2 ^ 16 + 40000) ∧ (¬ isRejected verdict7 39999 ∧ isStale verdict7 39999) ∧
      (¬ isRejected verdict7 40000 ∧ ¬ isStale verdict7 40000 ∧ verdict7.verdictsQueued 7 < 256) ∧
      (let d := verdict7.updIsl 7 fun x => { x with occ := [.granule ⟨40000, 0, 0⟩ [] []] }
       ((d.isl 7).occ.any fun i => match i with | .granule g' _ _ => g' == ⟨40000, 0, 0⟩ | _ => false) = true) ∧
      (verdict7.isl 7).verdicts = [] ∧ Tab.get [] verdict7.posts 7 = [] ∧
      Tab.get [] ({ verdict7 with posts := [(7, [(15, 2 ^ 32 + 40000)])] } : Dev).posts 7 = (15, 2 ^ 32 + 40000) :: [] := by
  simp only [isRejected, isStale]
  decide +kernel

theorem witness_VerdictsAreCheckedAndHandled_full :
    (verdict7.updIsl 7 fun x => { x with verdicts := (List.range 256).map fun n => ⟨n, 0, 0⟩ }).verdictsQueued 7 = 256 ∧
      ((verdict7.updIsl 7 fun x => { x with verdicts := [⟨40000, 0, 0⟩] }).isl 7).verdicts = ⟨40000, 0, 0⟩ :: [] := by decide +kernel

/-- A table unit of queue 4095 that came from island 7; a queue of DEST 1 or 2, group 31, under POLICY. -/
def unit0 : EgrUnit :=
  { kind := 5, src := 7, queue := 4095, entry := 0, fmt := 0, panel := 0, start := 0, cfg := 0, f := none, room := 1024,
    parts := [⟨0, [], [1]⟩], win := none, drop := false, txn := 0 }
def egress (dest policy kib : Nat) (waits queued : List EgrUnit) : Dev :=
  let d := puts d0 [(F.EGR_QUEUE_DEST 4095, dest), (F.EGR_QUEUE_POLICY 4095, policy), (F.EGR_QUEUE_BUF_KIB 4095, kib), (F.EGR_QUEUE_GROUP 4095, 31)]
  let d := d.updEgr fun e => { e with wait := waits }
  d.setQueue 4095 queued

def emission0 : Emission := { bb := 31, fb := 0, ch := 0, t := 31, bad := false, grp := [], sums := [] }
def emits (d : Dev) : Dev := d.updIsl 7 fun x => { x with emissions := [emission0] }

theorem witness_BeamVectorsAndWeightCommits :
    upIsl State.reset 7 ∧ (d0.isl 7).emissions = [] ∧ ((emits d0).isl 7).emissions = emission0 :: [] ∧
      (emits d0).icfg 7 0 (F.ISL_BEAM_TAB_PARTS_M1 7 31) + 1 = 1 ∧
      (let d := (emits d0).put (F.ISL_BEAM_TAB_PARTS_M1 7 31) 2
       d.icfg 7 0 (F.ISL_BEAM_TAB_PARTS_M1 7 31) + 1 ≠ 1 ∧ Tab.get none (d.isl 7).staging (32 * (31 % 32) + 31) = none ∧
         emission0.sameKey emission0 = true ∧ (d.icfg 7 0 (F.ISL_BEAM_TAB_PARTS_M1 7 31) + 1 ≤ 2 + 1 ∧ 1 + 1 < d.icfg 7 0 (F.ISL_BEAM_TAB_PARTS_M1 7 31) + 1)) ∧
      (emits d0).lostFrame 7 0 = none ∧
      (let d := ((emits d0).put (F.ISL_BEAM_TAB_PARTS_M1 7 31) 2).updIsl 7 fun x =>
        { x with staging := [(32 * (31 % 32) + 31, some ⟨{ emission0 with fb := 1 }, 2⟩)] }
       d.icfg 7 0 (F.ISL_BEAM_TAB_PARTS_M1 7 31) + 1 ≠ 1 ∧
         Tab.get none (d.isl 7).staging (32 * (31 % 32) + 31) = some ⟨{ emission0 with fb := 1 }, 2⟩ ∧
         ({ emission0 with fb := 1 } : Emission).sameKey emission0 = false) ∧
      (let d := d0.put (F.ISL_MARK_HEAD_FRAME 7) 7
       d.get (F.ISL_MARK_HEAD_FRAME 7) < 8 % 2 ^ 48 ∧ 7 % 2 ^ 48 ≤ d.get (F.ISL_MARK_HEAD_FRAME 7)) ∧
      (d0.isl 7).toEgr = [] ∧
      (let d := d0.updIsl 7 fun x => { x with toEgr := [.beam 7 0 0 0 0 false []] }
       (d.isl 7).toEgr = .beam 7 0 0 0 0 false [] :: [] ∧ d.egrBlocked 7 = false) ∧
      ((egress 1 0 0 [unit0] []).updIsl 7 fun x => { x with toEgr := [.beam 7 0 0 0 0 false []] }).egrBlocked 7 = true :=
  ⟨⟨by decide, by decide⟩, by decide +kernel⟩

theorem witness_EgressRoutesQueuesAndDeals_arrivals :
    ({ d0 with relay := [.dump 9] } : Dev).relay = .dump 9 :: [] ∧ d0.relay = [] ∧ d0.egrItems 8 = [] ∧
      (let d := { d0 with spill := { d0.spill with toEgr := [.plane ⟨63, 32767, 0, [], 0, some 1⟩] } }
       d.egrItems 8 = .plane ⟨63, 32767, 0, [], 0, some 1⟩ :: [] ∧ d.egrBlocked 8 = false ∧ d.cfg 0 (F.PRT_ENTRY_EN (32767 % 32768)) = 0 ∧
         d.onchipBad 3 (8 * (32767 % 32768)) 8 = false) ∧
      (egress 1 0 0 [unit0] []).egrBlocked 7 = true ∧
      (let d := oneChan.updIsl 7 fun x => { x with toEgr := [.table 7 1 0 0 1024] }
       d.egrItems 7 = .table 7 1 0 0 1024 :: [] ∧ d.egrBlocked 7 = false ∧ d.memBusy 0 1024 = false ∧
         (training d).egrItems 7 = .table 7 1 0 0 1024 :: [] ∧ (training d).memBusy 0 1024 = true) ∧
      (let d := d0.updIsl 7 fun x => { x with toEgr := [.notice 63 1 false] }
       d.egrItems 7 = .notice 63 1 false :: [] ∧ d.egrBlocked 7 = false) := by decide +kernel

theorem witness_EgressRoutesQueuesAndDeals_queues :
    (d0.egr.wait.find? fun u => u.queue == 4095 && d0.unitReady u && d0.unitDue u) = none ∧
      (let d := egress 1 0 1 [unit0] []
       (d.egr.wait.find? fun u => u.queue == 4095 && d.unitReady u && d.unitDue u) = some unit0 ∧ d.suppressed unit0 = false ∧
         d.qcfg unit0 (F.EGR_QUEUE_DEST 4095) = 1 ∧ d.unitFits unit0 = true ∧ d.queue 4095 = []) ∧
      (let d := puts (egress 1 0 1 [{ unit0 with kind := 3 }] []) [(F.FO_CFG_EN, 1), (F.FO_CFG_GROUPS, 2 ^ 31)]
       d.suppressed { unit0 with kind := 3 } = true) ∧
      ((egress 3 0 1 [unit0] []).qcfg unit0 (F.EGR_QUEUE_DEST 4095) ≠ 1 ∧ (egress 3 0 1 [unit0] []).qcfg unit0 (F.EGR_QUEUE_DEST 4095) ≠ 2) ∧
      ((egress 2 1 0 [unit0] []).unitFits unit0 = false ∧ unit0.kind ≠ 4 ∧ (egress 2 1 0 [unit0] []).qcfg unit0 (F.EGR_QUEUE_POLICY 4095) = 1) ∧
      ((egress 2 0 0 [unit0] []).unitFits unit0 = false ∧ (egress 2 0 0 [unit0] []).qcfg unit0 (F.EGR_QUEUE_POLICY 4095) = 0) := by decide +kernel

/-- Lane 95 an UP egress lane of group 31. -/
def lane31 (d : Dev) : Dev := puts d [(F.LANE_CFG_ROLE 95, roleEgress), (F.LANE_STATE_STATE 95, stUp), (F.LANE_CFG_GROUP 95, 31)]

theorem witness_EgressRoutesQueuesAndDeals_deals :
    d0.turnOf 31 = none ∧
      (let d := egress 1 0 1 [] [unit0]
       d.turnOf 31 = some (4095, 1) ∧ d.storeBad 4 = false ∧ d.groupLanes 31 (32 * (1 + 2)) = []) ∧
      (let d := lane31 (egress 1 0 1 [] [unit0])
       d.turnOf 31 = some (4095, 1) ∧ nextAfter 0 (d.groupLanes 31 (32 * (1 + 2))) = some 95) ∧
      (∀ d ∈ [egress 1 0 1 [] [unit0]], (d.ringUnit 4095).txn ≠ 0 ∨ d.storeBad 4 = false) := by decide +kernel

/-- A frame relayed on lane 95, of group 31; DEST, buffer size and REPLAY of its queue and group. -/
def relay95 : RelayFrame := { lane := 95, stamp := 0, cfg := 0, hdr := 0, data := [0] }
def relayed (dest kib rxEn replay : Nat) : Dev :=
  { puts (lane31 (egress dest 0 kib [] [])) [(F.EGR_GROUP_CFG_RX_QUEUE 31, 4095), (F.EGR_GROUP_CFG_RX_EN 31, rxEn), (F.EGR_GROUP_CFG_REPLAY 31, replay)] with
    relay := [.frame relay95] }

theorem witness_EgressRoutesQueuesAndDeals_relay :
    (relayed 1 1 0 0).relay = .frame relay95 :: [] ∧ (relayed 1 1 0 0).cfg 0 (F.LANE_CFG_GROUP 95) = 31 ∧
      (relayed 1 1 0 0).cfg 0 (F.EGR_GROUP_CFG_RX_EN 31) ≠ 1 ∧ (relayed 1 1 1 0).cfg 0 (F.EGR_GROUP_CFG_RX_EN 31) = 1 ∧
      (let u := (relayed 1 1 1 0).relayUnit 4095 relay95
       (relayed 1 1 1 0).qcfg u (F.EGR_QUEUE_DEST 4095) = 1 ∧ (relayed 1 1 1 0).unitFits u = true ∧
         (relayed 1 0 1 1).unitFits u = false ∧ (relayed 1 0 1 1).replays 95 = true ∧ (relayed 1 0 1 0).unitFits u = false ∧
         (relayed 1 0 1 0).replays 95 = false ∧ (relayed 3 0 1 0).qcfg u (F.EGR_QUEUE_DEST 4095) ≠ 1 ∧
         (relayed 3 0 1 0).qcfg u (F.EGR_QUEUE_DEST 4095) ≠ 2) := by decide +kernel

/-- The writer of ring 4095 in a phase, with a unit in its queue and its descriptor, of this OWN, at address 0 of SDRAM. -/
def ring4095 (base : Dev) (ph : Nat) (bad : Bool) (own : Nat) : Dev :=
  let d := (base.put (F.EGR_QUEUE_DEST 4095) 2).setQueue 4095 [unit0]
  ({ d with mem := if own = 0 then [] else [(12, 1)] }).setRing 4095 { RingSt.init with phase := ph, bad := bad, len := 1 }

/-- SDRAM in which no address exists. -/
def noSdram : Dev := oneChan.put F.MEM_ILV_MASK 0

theorem witness_RingsAndWindowsStep :
    (∀ ph, ph ∈ [0, 1, 5] →
      ((ring4095 oneChan ph false 1).ring 4095).phase = ph ∧ (ring4095 oneChan ph false 1).ringBusy 4095 = false ∧
        (ring4095 oneChan ph false 1).queue 4095 = unit0 :: [] ∧ (ring4095 oneChan ph false 1).qcfg unit0 (F.EGR_QUEUE_DEST 4095) = 2 ∧
        (ring4095 oneChan ph false 1).storeBad 4 = false ∧ (ring4095 oneChan ph false 1).descAddr 4095 = 0 ∧
        ((ring4095 oneChan ph false 1).memRead 0 16).err = false ∧ ((ring4095 oneChan ph false 1).memRead 0 16).ue = [] ∧
        bitOf (((ring4095 oneChan ph false 1).memRead 0 16).bytes.getD 12 0) 0 = true ∧
        bitOf (((ring4095 oneChan ph false 0).memRead 0 16).bytes.getD 12 0) 0 = false ∧ ((ring4095 noSdram ph false 0).memRead 0 16).err = true ∧
        (ring4095 noSdram ph false 0).ringBusy 4095 = false ∧ (training (ring4095 oneChan ph false 0)).ringBusy 4095 = true) ∧
      (d0.queue 4095 = [] ∧ (d0.ring 4095).phase = 0 ∧ (((ring4095 d0 5 false 0).setQueue 4095 []).ring 4095).phase = 5 ∧
        ((ring4095 d0 5 false 0).setQueue 4095 []).queue 4095 = []) ∧
      (∀ ph, ph ∈ [2, 3, 4] → ((ring4095 oneChan ph true 0).ring 4095).phase = ph ∧ (ring4095 oneChan ph true 0).ringBusy 4095 = false ∧
        ((ring4095 oneChan ph true 0).ring 4095).bad = true) ∧
      (let d := ring4095 oneChan 4 false 0
       (d.ring 4095).phase = 4 ∧ (d.ring 4095).bad = false ∧ (d.queue 4095).tail = [] ∧ ((d.ringUnit 4095).advance (d.ring 4095).len).parts = []) := by
  decide +kernel

theorem witness_RingsAndWindowsStep_windows :
    (d0.win 15).on = false ∧ ((⟨[], true, none, []⟩ : WinSt).on = true ∧ ∀ f q, (⟨[], true, none, []⟩ : WinSt).fill ≠ some (f, q, true)) ∧
      ((⟨[], true, some (1, 0, true), []⟩ : WinSt).on = true ∧ (⟨[], true, some (1, 0, true), []⟩ : WinSt).fill = some (1, 0, true)) :=
  ⟨by decide +kernel, ⟨rfl, fun _ _ => nofun⟩, rfl, rfl⟩

/-! ### Awl cores -/

/-- Core 15 in RUN, with a word at PC 0 and registers put. -/
def core15 (w : Nat) (l : List (RF × Nat)) : Dev :=
  (puts d0 ((F.AWL_STATUS_STATE 15, awlRunning) :: l)).wrLE (awlInstrAddr 15 0) 8 w

/-- A word of OP op with F1, F2, F3 and the bits below them. -/
def word (op f1 f2 f3 rest : Nat) : Nat := ((((op * 32 + f1) * 32 + f2) * 32 + f3) * 2 ^ 43) + rest

def awlB (d : Dev) (n : Nat) (f : Dev → Bool) : Bool := match d.awlBegin n true with | .ready e => f e | _ => false

theorem awlIssues_of {d : Dev} {n op : Nat} {P : Dev → Prop} [∀ e, Decidable (P e)]
    (h : awlB d n (fun e => wOp (e.awl1 n).word == op && slotDone (e.awl1 n) (e.awl1 n).word 0 && slotDone (e.awl1 n) (e.awl1 n).word 1 &&
      decide (P e)) = true) : ∃ e, AwlIssues d n op e ∧ P e := by
  unfold awlB at h
  split at h
  · simp only [Bool.and_eq_true, beq_iff_eq, decide_eq_true_eq] at h
    exact ⟨_, ⟨‹_›, h.1.1.1, h.1.1.2, h.1.2⟩, h.2⟩
  · cases h

theorem awlMoves_of {d : Dev} {n k kind : Nat}
    (h : awlB d n (fun e => sKind (wSlot (e.awl1 n).word k) == kind && !bitOf (e.awl1 n).slots k &&
      (k != 1 || slotDone (e.awl1 n) (e.awl1 n).word 0)) = true) : ∃ e, AwlMoves d n k kind e := by
  unfold awlB at h
  split at h
  · simp only [Bool.and_eq_true, Bool.or_eq_true, beq_iff_eq, bne_iff_ne, Bool.not_eq_true'] at h
    refine ⟨_, ⟨‹_›, h.1.1, h.1.2, fun hk => ?_⟩⟩
    rcases h.2 with h' | h'
    · exact absurd hk h'
    · exact h'
  · cases h

/-- Every compute operation but TRAP issues as the first word of core 15; LOOP and LOOPR with a target behind them. -/
def opsB : Bool :=
  ((List.range 14) ++ ((List.range 15).map (16 + ·)) ++ ((List.range 19).map (32 + ·))).all fun op =>
    op == 0x31 || awlB (core15 (word op 0 16 0 0) []) 15 fun e => wOp (e.awl1 15).word == op && slotDone (e.awl1 15) (e.awl1 15).word 0 &&
      slotDone (e.awl1 15) (e.awl1 15).word 1 && (e.awl1 15).br.isNone && (e.awl1 15).rep.isNone

theorem witness_AwlComputeSyllablesTakeEffect_rows : upIsl (mk (core15 0 [])) (awlIsl 15) ∧ awlIsl 15 = 7 ∧ opsB = true :=
  ⟨⟨by decide, by decide⟩, rfl, by decide +kernel⟩

theorem witness_AwlComputeSyllablesTakeEffect :
    (∃ e, AwlIssues (core15 (word 0x20 0 31 31 (7 * 2 ^ 40)) []) 15 0x20 e ∧ (e.awl1 15).br = none ∧ (e.awl1 15).rep = none ∧
        wTarget (e.awl1 15).word = 8191) ∧
      (∃ e, AwlIssues (core15 0 []) 15 0x00 e ∧ (e.awl1 15).br = none ∧ (e.awl1 15).rep = none ∧ e.loopLevels 15 = 0) ∧
      (∃ e, AwlIssues (core15 (word 0x30 0 0 0 0) []) 15 0x30 e ∧ (e.awl1 15).br = none ∧ (e.awl1 15).rep = none ∧ (e.awl1 15).halt = false) ∧
      (∃ e, AwlIssues (core15 (word 0x21 1 0 0 0) []) 15 0x21 e ∧ e.xOld 15 (wF1 (e.awl1 15).word) = 0) ∧
      (∃ e, AwlIssues (core15 (word 0x23 1 0 0 0) [(F.AWL_XREG_VALUE 15 1, 2 ^ 23)]) 15 0x23 e ∧ bitOf (e.xOld 15 (wF1 (e.awl1 15).word)) 23 = true) ∧
      (d0.awlState 15 ≠ awlRunning) ∧
      (let d := core15 (word 0x31 0 31 31 (7 * 2 ^ 40)) []
       d.awlState 15 = awlRunning ∧ (d.awl1 15).point = true ∧ (d.awl1 15).fault = none ∧ d.awlIrqDue 15 = false ∧ d.handler 15 = false) :=
  ⟨awlIssues_of (by decide +kernel), awlIssues_of (by decide +kernel), awlIssues_of (by decide +kernel), awlIssues_of (by decide +kernel),
    awlIssues_of (by decide +kernel), by decide, by decide⟩

theorem witness_AwlComputeSyllablesTakeEffect_trap :
    let d := core15 (word 0x31 0 31 31 (7 * 2 ^ 40)) []
    (d.onchipRead 63 (awlInstrAddr 15 0) (awlInstrAddr 15 (8 * d.awlPc 15)) 8).2.2 = false ∧
      (d.onchipRead 63 (awlInstrAddr 15 0) (awlInstrAddr 15 (8 * d.awlPc 15)) 8).1 = d ∧
      (let r := (d.onchipRead 63 (awlInstrAddr 15 0) (awlInstrAddr 15 (8 * d.awlPc 15)) 8).2.1
       wOp (ofBytes r) = 0x31 ∧ d.awlIllegal 15 (ofBytes r) = false ∧ d.awlMisplaced 15 (ofBytes r) = false ∧
         d.slotAccess 15 (wSlot (ofBytes r) 0) = false ∧ d.slotAccess 15 (wSlot (ofBytes r) 1) = false) :=
  ⟨by decide +kernel, rfl, by decide +kernel⟩

/-- A word of MOVTS, IOW or IOWA that names a special or local I/O register. -/
def movtsWord (i : Nat) : Nat := 0x1E * 2 ^ 58 + i * 2 ^ 47
def ioWord (op i : Nat) : Nat := op * 2 ^ 58 + i * 2 ^ 43

theorem witness_AwlOperationsWriteTheirResults_registers :
    (∃ e, AwlIssues (core15 (movtsWord 0x27) []) 15 0x1E e ∧ wSpec (e.awl1 15).word = 0x27) ∧
      (∃ e, AwlIssues (core15 (movtsWord 0x1E) []) 15 0x1E e ∧ wSpec (e.awl1 15).word = 0x1E ∧ e.loopLevels 15 = 0) ∧
      (∃ e, AwlIssues (core15 (ioWord 0x2C 0x001) []) 15 0x2C e ∧ wIo (e.awl1 15).word = 0x001) ∧
      (∃ e, AwlIssues (core15 (ioWord 0x2C 0x023) []) 15 0x2C e ∧ wIo (e.awl1 15).word = 0x023 ∧ (e.awl1 15).xq.length < 4) ∧
      (∃ e, AwlIssues (core15 (ioWord 0x2E 0x021) []) 15 0x2E e ∧ wIo (e.awl1 15).word = 0x021) ∧
      ∃ e, AwlIssues (core15 (ioWord 0x2E 0x038) []) 15 0x2E e ∧ wIo (e.awl1 15).word = 0x038 :=
  ⟨awlIssues_of (by decide +kernel), awlIssues_of (by decide +kernel), awlIssues_of (by decide +kernel), awlIssues_of (by decide +kernel),
    awlIssues_of (by decide +kernel), awlIssues_of (by decide +kernel)⟩

theorem witness_AwlOperationsWriteTheirResults :
    (∃ e, AwlIssues (core15 (word 0x27 1 31 31 (7 * 2 ^ 40)) [(F.AWL_XREG_VALUE 15 1, 1)]) 15 0x27 e ∧ (e.awl1 15).br = none ∧
        (e.awl1 15).rep = none ∧ e.loopLevels 15 < 2 ∧ e.awlPc 15 < wTarget (e.awl1 15).word ∧ e.xOld 15 (wF1 (e.awl1 15).word) ≠ 0 ∧
        ∀ i, i < e.loopLevels 15 → e.spec 15 (spLE i) ≠ e.awlPc 15) ∧
      (∃ e, AwlIssues (core15 (word 0x16 0 0 31 0) []) 15 0x16 e ∧ sext 5 (wF3 (e.awl1 15).word) < 0) ∧
      (∃ e, AwlIssues (core15 (word 0x16 0 0 15 0) []) 15 0x16 e ∧ 0 ≤ sext 5 (wF3 (e.awl1 15).word)) ∧
      (∃ e, AwlIssues (core15 (word 0x08 31 0 0 0) []) 15 0x08 e) :=
  ⟨awlIssues_of (by decide +kernel), awlIssues_of (by decide +kernel), awlIssues_of (by decide +kernel),
    let ⟨e, h, _⟩ := awlIssues_of (P := fun _ => True) (d := core15 (word 0x08 31 0 0 0) []) (n := 15) (op := 0x08) (by decide +kernel); ⟨e, h⟩⟩

/-- A word whose slot k moves with KIND kind, X31, P7, STEP −128, its other slot empty. -/
def moveWord (k kind : Nat) : Nat := (kind * 2 ^ 17 + 31 * 2 ^ 12 + 7 * 2 ^ 9 + 128) * 2 ^ (if k = 0 then 20 else 0)

theorem witness_AwlMoveSlotsLoadStoreAndStep :
    (∃ e, AwlMoves (core15 (moveWord 0 1) []) 15 0 1 e) ∧ (∃ e, AwlMoves (core15 (moveWord 1 2) []) 15 1 2 e) ∧
      (∃ e, AwlMoves (core15 (moveWord 1 3) []) 15 1 3 e) ∧ (∃ e, AwlMoves (core15 (moveWord 0 4) []) 15 0 4 e) ∧
      (∃ e, AwlMoves (core15 (moveWord 1 5) [(F.AWL_SPEC_VALUE 15 7, 2 ^ 17 - 1)]) 15 1 5 e) ∧
      (let d := core15 (moveWord 0 1) []
       (d.awl1 15).snap = none ∧ d.chk = [] ∧ d.sd.bad = [] ∧ d.is F.ECC_DIAG_CTRL_EN = false) :=
  ⟨awlMoves_of (by decide +kernel), awlMoves_of (by decide +kernel), awlMoves_of (by decide +kernel), awlMoves_of (by decide +kernel),
    awlMoves_of (by decide +kernel), by decide⟩

theorem witness_AwlExceptionsAndControl :
    (d0.awlState 15 ≠ awlRunning) ∧
      (let d := (core15 0 []).updAwl 15 fun x => { x with fault := some (7, 2 ^ 24 - 1, true) }
       d.awlState 15 = awlRunning ∧ (d.awl1 15).point = true ∧ (d.awl1 15).fault = some (7, 2 ^ 24 - 1, true) ∧ d.handler 15 = false ∧
         (d.put (F.AWL_SPEC_VALUE 15 spStat) 0x20).handler 15 = true) ∧
      (let d := (core15 0 [(F.AWL_SPEC_VALUE 15 spStat, 0x11)]).updAwl 15 fun x => { x with ipend := 8 }
       d.awlState 15 = awlRunning ∧ (d.awl1 15).point = true ∧ (d.awl1 15).fault = none ∧ d.awlIrqDue 15 = true ∧
         (d.setAwlState 15 awlWaiting).awlState 15 = awlWaiting ∧ d.awlWakes 15 = true) ∧
      (let d := (core15 0 [(F.AWL_SPEC_VALUE 15 spStat, 0x10)]).updAwl 15 fun x => { x with ipend := 8 }
       (d.setAwlState 15 awlWaiting).awlWakes 15 = true ∧ (d.setAwlState 15 awlWaiting).awlIrqDue 15 = false) ∧
      (d0.awlState 15 = awlHalted ∧ (core15 0 []).awlIrqDue 15 = false ∧ (d0.setAwlState 15 awlWaiting).awlWakes 15 = false) ∧
      (((core15 0 []).updAwl 15 fun x => { x with rep := some 1 }).awl1 15).point = false ∧
      (let q : AwlXfer := { dir := true, plane := false, loc := 0, far := 2 ^ 36, len := 64 }
       q.bad = false ∧ weltTarget (q.far / 64 * 64) = 0 ∧ 4 ≤ [q, q, q, q].length ∧ [q, q, q].length < 4 ∧ d0.engineBusy (q.far / 64 * 64) q.len = false ∧
         ({ q with len := 262208 } : AwlXfer).bad = true ∧ (training oneChan).engineBusy 0 64 = true) ∧
      (d0.awlState 15 = awlHalted ∧ (d0.awl1 15).fault = none ∧ (d0.awl1 15).point = true ∧ d0.chk = [] ∧ d0.sd.bad = [] ∧
        d0.is F.ECC_DIAG_CTRL_EN = false ∧ d0.rdLE (awlInstrAddr 15 (8 * d0.awlPc 15)) 8 = 0 ∧ d0.loopLevels 15 = 0) := by decide +kernel

/-- Word 2 of the spec's verdict example encodes as 0x1802_0200_0000_0000 and makes AC1 0x0000_04D2_0006 of 0x4D2 (12, R311). -/
theorem test_insh_word : word 0x06 0 2 0 (2 ^ 41) = 0x1802020000000000 := by decide
theorem test_insh :
    (out (.awlInsh 15) (mk ((core15 0x1802020000000000 [(F.AWL_XREG_VALUE 15 2, 6)]).setAc 15 1 0x4D2))).rdReg (R.AWL_ACC 15 1) = 0x4D20006 := by
  decide +kernel

/-- ADD wraps at 24 bits; MAC clamps at 2^55 − 1 and sets OV (R297, R298). -/
theorem test_add_wraps :
    (out (.awlAdd 15) (mk (core15 (word 0x10 3 1 2 0) [(F.AWL_XREG_VALUE 15 1, 2 ^ 24 - 1), (F.AWL_XREG_VALUE 15 2, 2)]))).get (F.AWL_XREG_VALUE 15 3) = 1 := by
  decide +kernel
theorem test_mac_clamps :
    let d := out (.awlMac 15) (mk ((core15 (word 0x01 0 1 1 0) [(F.AWL_XREG_VALUE 15 1, 2 ^ 23 - 1)]).setAc 15 0 (2 ^ 55 - 1)))
    d.rdReg (R.AWL_ACC 15 0) = 0x7FFFFFFFFFFFFF ∧ bitOf (d.stat 15) 10 = true := by decide +kernel

/-- A load slot steps its pointer; a store of a word misaligned faults with ACCESS (R295). -/
theorem test_ldw_steps : (out (.awlLdw 15 0) (mk (core15 (moveWord 0 1) [(F.AWL_SPEC_VALUE 15 7, 128)]))).spec 15 (spP 7) = 0 := by decide +kernel
theorem test_stw_misaligned :
    ((out (.awlStw 15 0) (mk (core15 (moveWord 0 4) [(F.AWL_SPEC_VALUE 15 7, 1)]))).awl1 15).fault.map (·.1) = some 4 := by decide +kernel

/-- RET goes to LINK after two delay slots (R300). -/
theorem test_ret : ((out (.awlRet 15) (mk (core15 (word 0x26 0 0 0 0) [(F.AWL_SPEC_VALUE 15 spLink, 77)]))).awl1 15).br = some (2, .goTo 77) := by
  decide +kernel

/-! ### Capture, PCIe, Welt and DMA -/

def burst15 (write granted : Bool) (addr : Nat) (answer : Option (Nat × List Nat)) : Burst :=
  { burstOf 15 63 write 0 addr [some 0] with granted := granted, answer := answer }
def withBursts (d : Dev) (l : List Burst) : Dev := d.setWelt { d.welt with bursts := l }

theorem witness_CaptureAndLinksAct_capture :
    d0.cap.items = [] ∧ { d0.cap with items := [.done 0] }.items = .done 0 :: [] ∧ d0.capCfg 0 F.CAP_CFG_EN = 0 ∧
      d0.headerDue = none ∧
      (let d := { oneChan.put F.CAP_CFG_EN 1 with cap := { d0.cap with frames := 1 } }
       d.headerDue = some 0 ∧ d.get F.CAP_NEXT_SEQ_SEQ = 0 ∧ d.memBusy (d.slotAddr 0) 64 = false ∧ d.cap.heads = [] ∧
         (training d).headerDue = some 0 ∧ (training d).memBusy ((training d).slotAddr 0) 64 = true) ∧
      d0.trigs = [] ∧ ({ d0 with trigs := [⟨7, ⟨0, 0, 0, 0⟩⟩] } : Dev).trigs = ⟨7, ⟨0, 0, 0, 0⟩⟩ :: [] ∧
      (d0.put F.CAP_TRIG_CFG_SW_EN 0).is F.CAP_TRIG_CFG_SW_EN = false ∧
      ((d0.put F.CAP_TRIG_CFG_SW_EN 1).is F.CAP_TRIG_CFG_SW_EN = true ∧ (d0.put F.CAP_TRIG_CFG_SW_EN 1).active = false) ∧
      ((act.put F.CAP_TRIG_CFG_SW_EN 1).active = true ∧ bitOf ((act.put F.CAP_TRIG_CFG_SW_EN 1).get F.CAP_TRIG_CFG_FWD) 2 = false) ∧
      d0.rgnState 7 = 0 ∧ (d0.put (F.CAP_RGN_CTRL_STATE 7) 2).rgnState 7 ≠ 0 := by decide +kernel

/-- One tap, of stream 7's channel 5, and its last sample of segment 0's first piece at the head of the crossing. -/
def tapped : Dev :=
  let d := puts d0 [(F.CAP_TAP_EN 4095, 1), (F.CAP_TAP_INDEX 4095, 7), (F.CAP_TAP_CHANNEL 4095, 5)]
  { d with cap := { d.cap with items := [.sig 0 7 5 31 (some 1)] } }

theorem witness_CaptureAndLinksAct_sample :
    d0.capTaps 0 = [] ∧ tapped.cap.items = .sig 0 7 5 31 (some 1) :: [] ∧ tapped.capTaps 0 = [4095] ∧ tapped.capCfg 0 (F.CAP_TAP_INDEX 4095) = 7 ∧
      tapped.capCfg 0 (F.CAP_TAP_CHANNEL 4095) = 5 ∧ tapped.capSeg 0 = ⟨0, [], [], [], false⟩ ∧ tapped.slotHeldOther 0 = false ∧
      tapped.cap.pieces = [] ∧ tapped.capUsed + tapped.pieceBytes (segFrame 0) ≤ 4194304 := by decide +kernel

theorem witness_CaptureAndLinksAct_pcie :
    ((d0.put (F.PCIE_CFG_ENABLE 3) 1).is (F.PCIE_CFG_ENABLE 3) = true ∧ (d0.put (F.PCIE_CFG_ENABLE 3) 1).pciePort 3 = false) ∧
      ((d0.put (F.PCIE_CFG_ENABLE 2) 1).is (F.PCIE_CFG_ENABLE 2) = true ∧ (d0.put (F.PCIE_CFG_ENABLE 2) 1).pciePort 2 = true) ∧
      d0.is (F.PCIE_CFG_ENABLE 3) = false ∧ d0.pcieUp 3 = false ∧ (d0.put (F.PCIE_STATUS_L0 2) 1).pcieUp 2 = true ∧
      (∀ b, b ∈ d0.welt.bursts → b.outboundOn 2 = false) ∧
      (let b := burst15 false true 0x6000000000 none
       b.outboundOn 2 = true ∧ ∀ c ∈ ([] : List Burst), c.outboundOn 2 = false) ∧
      ((d0.put (F.PCIE_IB_BASE_IB_LOG 2) 12).pcieInbound 2 0 64 = some 0 ∧ (d0.put (F.PCIE_IB_BASE_IB_LOG 2) 12).pcieInbound 2 4096 64 = none ∧
        d0.pcieInbound 2 (2 ^ 40) 64 = none ∧ 2 ^ 40 ≠ d0.get (F.PCIE_MSI_ADDR_BUS 2) * 4) ∧
      (let d := puts d0 [(F.PCIE_CFG_ENABLE 2, 1), (F.PCIE_STATUS_L0 2, 1), (F.PCIE_MSI_ADDR_BUS 2, 2 ^ 38)]
       d.pcieUp 2 = true ∧ d.pcieInbound 2 (2 ^ 40) 4 = none ∧ 2 ^ 40 = d.get (F.PCIE_MSI_ADDR_BUS 2) * 4) ∧
      ((List.replicate 257 (some 0)).length > 256 ∧ (2 : Nat) ∉ d0.pcie.down ∧ (2 : Nat) ∈ { d0.pcie with down := [2] }.down) := by decide +kernel

theorem witness_WeltAndDmaStep_welt :
    (weltMasterOk 15 = true ∧ 15 ≠ 0 ∧ d0.draining 15 = false ∧ weltLimit 15 = 8) ∧
      (withBursts d0 [{ burst15 false true 0 none with orphan := true }]).draining 15 = true ∧
      4096 < (burstOf 15 0 false 0 4032 (List.replicate 65 none)).addr % 4096 + (burstOf 15 0 false 0 4032 (List.replicate 65 none)).cells.length ∧
      (burstOf 15 0 false 0 4032 [none]).addr % 4096 + (burstOf 15 0 false 0 4032 [none]).cells.length ≤ 4096 ∧
      hartMay 0 (burstOf 0 0 false 0 0x2000000000 [some 0]).addr (burstOf 0 0 false 0 0x2000000000 [some 0]).cells = false ∧
      (hartMay 0 0x200000 [some 0] = true ∧ d0.inScratch 0x200000 = false) ∧ d0.grantable 6 = [] ∧
      (let d := withBursts d0 [burst15 false false 0xD000000000 none]
       sortBy (·.1) (d.grantable 6) = (31, 0) :: [] ∧ d.welt.bursts[0]? = some (burst15 false false 0xD000000000 none) ∧
         (burst15 false false 0xD000000000 none).target = 6 ∧ (burst15 false false 0xD000000000 none).answer = none) ∧
      (∀ x, x ∈ [(1, 0x4000000000), (2, 0x6000000000)] →
        let b := burst15 false false x.2 none
        sortBy (·.1) ((withBursts d0 [b]).grantable x.1) = (31, 0) :: [] ∧ (withBursts d0 [b]).welt.bursts[0]? = some b ∧ b.target = x.1) ∧
      ((d0.put (F.DEV_ISL_RESET_ISL) 0x80).islHeld (15 - 8) = true ∧ d0.islHeld (15 - 8) = false) := by decide +kernel

theorem witness_WeltAndDmaStep_responses :
    (d0.welt.bursts.findIdx? fun b => b.master == 15 && b.tag == 63 && b.granted) = none ∧
      (let d := withBursts d0 [burst15 false true 0 none]
       (d.welt.bursts.findIdx? fun b => b.master == 15 && b.tag == 63 && b.granted) = some 0 ∧ d.welt.bursts[0]? = some (burst15 false true 0 none)) ∧
      (burst15 false true 0 (some (weltErr, []))).answer = some (weltErr, []) ∧
      (d0.put F.WELT_TIMEOUT_CYCLES 0).get F.WELT_TIMEOUT_CYCLES = 0 ∧ d0.get F.WELT_TIMEOUT_CYCLES ≠ 0 ∧
      (burst15 false true 0 none).dead = false ∧
      (let b := burst15 false true 0 (some (weltOkay, [0]))
       b.answer = some (weltOkay, [0]) ∧ b.dead = false ∧ b.orphan = false) ∧
      ((burst15 false true 0x4000000000 none).target ≠ 0 ∧ (burst15 false true 0 none).target = 0 ∧
        (training (withBursts oneChan [burst15 false true 0 none])).memBusy (burst15 false true 0 none).addr (burst15 false true 0 none).cells.length = true) ∧
      (∃ b, b ∈ (withBursts d0 [burst15 false true 0 none]).welt.bursts ∧ b.master = 15 ∧ b.tag = 63 ∧ b.granted = true ∧ b.dead = false) := by decide +kernel

/-- DMA channel 63 in a state and a wait, its descriptor, of this OWN, at address 0 of SDRAM. -/
def dmaOn (d : Dev) (st : Nat) (w : DmaWait) : Dev := (d.setDma 63 { DmaCh.init with wait := w }).setDmaState 63 st
def dma63 (st : Nat) (w : DmaWait) : Dev := dmaOn oneChan st w
def desc63 (own : Bool) : Dev := let d := dma63 dmaWaiting .desc; if own then { d with mem := [(12, 1)] } else d

theorem witness_WeltAndDmaStep_dma :
    d0.dmaState 63 = dmaHalted ∧ (dma63 dmaActive .none).dmaState 63 ≠ dmaHalted ∧ (dma63 dmaAborting .data).dmaState 63 = dmaAborting ∧
      ((dma63 dmaWaiting .none).dmaState 63 = dmaWaiting ∧ ((dma63 dmaWaiting .none).dmaCh 63).wait = .none) ∧
      (dma63 dmaActive .src).dmaState 63 = dmaActive ∧ ((dma63 dmaActive .data).dmaCh 63).wait = .data ∧
      (let d := dma63 dmaActive .own
       (d.dmaCh 63).wait = .own ∧ d.engineBusy (d.dmaDesc 63) 32 = false ∧ weltTarget (d.dmaDesc 63) = 0 ∧ (d.dmaCh 63).code = 0 ∧
         (d.dmaCh 63).stop = false ∧ (d.engineWrite 1 (d.dmaClass 63) (d.dmaDesc 63 + 12) [0, 0, 0, 0] true).2 = true) ∧
      (∀ w, w ∈ [DmaWait.status, .own, .desc] → (training (dma63 dmaActive w)).engineBusy ((training (dma63 dmaActive w)).dmaDesc 63) 32 = true) ∧
      (let d := dmaOn noSdram dmaWaiting .desc
       (d.dmaCh 63).wait = .desc ∧ d.engineBusy (d.dmaDesc 63) 32 = false ∧ (d.engineRead 1 (d.dmaClass 63) (d.dmaDesc 63) 32 (true, [])).2.1 = false) ∧
      (((dma63 dmaActive .status).dmaCh 63).wait = .status ∧ (dma63 dmaActive .status).engineBusy ((dma63 dmaActive .status).dmaDesc 63) 32 = false) := by
  decide +kernel

theorem witness_WeltAndDmaStep_desc :
    (let d := desc63 false
     let r := d.engineRead 1 (d.dmaClass 63) (d.dmaDesc 63) 32 (true, [])
     (d.dmaCh 63).wait = .desc ∧ d.engineBusy (d.dmaDesc 63) 32 = false ∧ r.2.1 = true ∧ bitOf (r.2.2.getD 12 0) 0 = false) ∧
      (let d := desc63 true
       let r := d.engineRead 1 (d.dmaClass 63) (d.dmaDesc 63) 32 (true, [])
       (d.dmaCh 63).wait = .desc ∧ r.2.1 = true ∧ bitOf (r.2.2.getD 12 0) 0 = true) := by decide +kernel

/-! ### SoC, recorder, failover and the SMU -/

theorem witness_BootFlashAndManagementAct :
    d0.get F.DEV_BOOT_STAGE = 0 ∧ (d0.put F.DEV_BOOT_STAGE 1).get F.DEV_BOOT_STAGE ≠ 0 ∧ (d0.put F.DEV_L2_CTRL_SCRATCH 0).is F.DEV_L2_CTRL_SCRATCH = false ∧
      d0.is F.DEV_L2_CTRL_SCRATCH = true ∧ d0.is F.DEV_L2_CTRL_BUSY = false ∧ (d0.put F.DEV_L2_CTRL_BUSY 1).is F.DEV_L2_CTRL_BUSY = true ∧
      d0.is F.DEV_QSPI_CTRL_GO = false ∧ (d0.put F.DEV_QSPI_CTRL_GO 1).is F.DEV_QSPI_CTRL_GO = true ∧ d0.jtag.trst = false ∧
      { d0.jtag with trst := true }.trst = true ∧ d0.memBusy 0 0x200000 = false ∧ (training oneChan).memBusy 0 0x200000 = true := by decide +kernel

/-- The MAC enabled with its link up. -/
def mac : Dev := puts d0 [(F.MGMT_CFG_EN, 1), (F.MGMT_STATUS_LINK, 1)]

theorem witness_BootFlashAndManagementAct_mgmt :
    d0.mgmtOn = false ∧ mac.mgmtOn = true ∧ d0.active = false ∧ (mac.put (F.MGMT_PTR_WAITING 1) 1).is (F.MGMT_PTR_WAITING 1) = true ∧
      mac.is (F.MGMT_PTR_WAITING 1) = false ∧ (mac.is F.MGMT_STATUS_LINK = true ∧ (List.replicate 63 0).length < 64 ∧ 9018 < (List.replicate 9019 0).length) ∧
      (64 ≤ (List.replicate 64 0).length ∧ (List.replicate 64 0).length ≤ 9018 ∧ fcs ((List.replicate 64 0).take 60) ≠ (List.replicate 64 0).drop 60) ∧
      d0.mgmt.rgmii = false ∧ d0.mgmt.rx = [] ∧ { d0.mgmt with rx := [[0]] }.rx = [0] :: [] ∧ d0.mgmt.ready = [] ∧
      ({ d0.mgmt with ready := [⟨[0], [0], false⟩] }.ready = ⟨[0], [0], false⟩ :: [] ∧
        (mac.is F.MGMT_CFG_PAUSE_RX && decide (mac.ticks < mac.mgmt.pause)) = false) ∧
      (mac.put F.MGMT_CFG_PAUSE_RX 1).is F.MGMT_CFG_PAUSE_RX = true ∧ d0.mgmt.mdio = none ∧
      ({ d0.mgmt with mdio := some (3 * 2 ^ 28) }.mdio = some (3 * 2 ^ 28) ∧ 2 ≤ 3 * 2 ^ 28 / 2 ^ 28 % 4) := by decide +kernel

/-- A broadcast frame of 64 bytes with a right FCS, and a PAUSE frame; a MAC that holds a descriptor for 64 bytes. -/
def frame64 : List Nat := let b := List.replicate 6 255 ++ List.replicate 54 0; b ++ fcs b
def pause64 : List Nat := let b := List.replicate 12 1 ++ [0x88, 0x08, 0, 1, 0, 4] ++ List.replicate 42 0; b ++ fcs b
def holding : MgmtSt := { d0.mgmt with held := [(0, 0, 64)] }

theorem witness_BootFlashAndManagementAct_frames :
    (frame64.length = 64 ∧ fcs (frame64.take 60) = frame64.drop 60 ∧ isPause frame64 = false ∧ mac.mgmtAccepts frame64 = true ∧
        mac.mgmtAccepts (1 :: frame64.tail) = false ∧ holding.rx = [] ∧ holding.held = (0, 0, 64) :: [] ∧ frame64.length ≤ 64) ∧
      (fcs (pause64.take 60) = pause64.drop 60 ∧ (isPause pause64 && (mac.put F.MGMT_CFG_PAUSE_RX 1).is F.MGMT_CFG_PAUSE_RX) = true) ∧
      (let d := puts (mac.setMgmt holding) [(F.MGMT_PTR_WAITING 1, 1)]
       d.mgmt.held ≠ [] ∧ { d.mgmt with rx := [[0]] }.rx = [[0]]) ∧
      (∀ r, r < 2 →
        let d := puts oneChan [(F.MGMT_CFG_EN, 1), (F.MGMT_PTR_WAITING r, 1)]
        d.mgmtOn = true ∧ d.is (F.MGMT_PTR_WAITING r) = true ∧ d.mgmt.txBytes + 9014 ≤ 16384 ∧ d.mgmt.txDescs < d.mgmtRingLen 0 ∧ d.mgmt.rx = [] ∧
          d.mgmt.held = [] ∧ (d.mgmtRead (d.mgmtDesc r (d.get (F.MGMT_PTR_INDEX r))) 16).2.2 = false ∧
          bitOf (ofBytes (((d.mgmtRead (d.mgmtDesc r (d.get (F.MGMT_PTR_INDEX r))) 16).2.1.drop 8).take 4)) 0 = false ∧
          bitOf (ofBytes (((({ d with mem := [(8, 1)] } : Dev).mgmtRead 0 16).2.1.drop 8).take 4)) 0 = true) ∧
      ([⟨[0], [0], true⟩] : List MgmtTx).head?.map (·.bad) = some true := by decide +kernel

/-- A record on its way to the recorder; one that leaves a queue with no room. -/
def rec0 : Rec := { type := 3, source := 0, inst := 0, body := .bytes [0, 0, 0, 0, 0, 0, 0, 0], full := false }
def evr (f : EvrSt → EvrSt) : Dev := { d0 with evr := f d0.evr }

theorem witness_RecorderFailoverAndPowerOnAct_recorder :
    State.reset.dev.up = true ∧ off.dev.up = false ∧ (State.reset.smu.appends = [] ∧ d0.evr.transit = []) ∧
      (let d := evr fun e => { e with transit := [rec0] }
       d.evr.transit = rec0 :: [] ∧ rec0.type ≠ 4 ∧ d.evr.lostSince = 0 ∧
         roomUsed d.evr.queue + (QRec.mk 3 0 0 (rec0.body.bytesAt 0) false 0 0 0).room ≤ 12288 ∧
         12288 < roomUsed [QRec.mk 1 0 0 (List.replicate 12272 0) true 0 0 0] + (QRec.mk 3 0 0 (rec0.body.bytesAt 0) false 0 0 0).room) ∧
      { State.reset.smu with appends := [(0, rec0)] }.appends = (0, rec0) :: [] ∧ (evr fun e => { e with queue := [] }).evr.next = none ∧
      d0.evr.mustEnter = true ∧
      (let q : QRec := ⟨3, 0, 0, [], false, 1, 0, 0⟩
       (evr fun e => { e with entered := true, queue := [q] }).evr.next = some q ∧
         (evr fun e => { e with entered := true, queue := [q] }).evr.mustEnter = false) := by decide +kernel

theorem witness_RecorderFailoverAndPowerOnAct_append :
    (0xBF00 / 256 % 256 < 0xC0 ∧ 0xFF00 / 256 % 256 = 0xFF ∧ (bitOf 0xC080 7 = true ∧ 0xC080 % 128 = 0)) ∧
      (0xC0 ≤ 0xC000 / 256 % 256 ∧ 0xC000 / 256 % 256 ≠ 0xFF ∧ bitOf 0xC000 7 = false) ∧
      (0xC0 ≤ 0xFE81 / 256 % 256 ∧ 0xFE81 / 256 % 256 ≠ 0xFF ∧ 0xFE81 % 128 ≠ 0) := by decide

/-- A switchover in progress; the role of the chip. -/
def gap0 : Gap := { releasing := false, own := (2, 0, 0), partner := none, agreedLeft := none, blocks := 0, sent := true }
def foDev (role : Nat) (g : Option Gap) : Dev := { d0.put F.FO_STATUS_ROLE role with fo := { gap := g, later := false } }

theorem witness_RecorderFailoverAndPowerOnAct_failover :
    upEgr State.reset ∧ (foDev foAssuming (some gap0)).fo.gap ≠ none ∧
      ((foDev foDraining none).fo.gap = none ∧ (foDev foDraining none).get F.FO_STATUS_ROLE = foDraining) ∧
      ((foDev foActive none).get F.FO_STATUS_ROLE = foActive ∧ (foDev foActive none).get F.FO_STATUS_ROLE ≠ foDraining) ∧
      ((foDev foAssuming (some gap0)).fo.gap = some gap0 ∧ gap0.sent = true ∧ gap0.agreedLeft = none ∧ gap0.partner = none ∧
        (foDev foAssuming (some gap0)).fo.later = false) ∧
      (let g := { gap0 with partner := some (2, 0, 0), agreedLeft := some 0 }
       g.agreedLeft ≠ none ∧ g.partner ≠ none ∧ ((foDev foAssuming (some g)).foLanes true).all (fun n => ((foDev foAssuming (some g)).lane n).tx.handover.isEmpty) = true) ∧
      (let g := { gap0 with sent := false }
       g.sent = false ∧ ((foDev foAssuming (some g)).foLanes false).any (fun n => ((foDev foAssuming (some g)).lane n).tx.cur.isSome) = false) ∧
      ((foDev foDraining none).relay = [] ∧ (foDev foDraining none).egr.numbers = [] ∧
        ∀ k, k < 8 → (foDev foDraining none).get F.FO_LAST_F_HO ≤ (foDev foDraining none).get (F.ISL_FRAME_NO_FRAME_NO k)) := by
  refine ⟨⟨by decide, by decide⟩, ?_⟩
  decide +kernel

/-- The SMU in RUN, with an open region; SEALED in generation 8; measuring. -/
def smu0 : SmuSt := { State.reset.smu with state := smuRun }
def sealed : SmuSt := { smu0 with sealGen := 8 }
def measuring : SmuSt := { smu0 with region := { smu0.region with cfg := smu0.region.cfg + 2 ^ 63 } }

theorem witness_SealedUnitActs :
    smu0.up = true ∧ (smu0.seal ≠ 1 ∧ smu0.state = smuRun ∧ { smu0 with sealGen := 7, broken := 127 }.sealGen < 8 ∧
        { smu0 with sealGen := 7, broken := 127 }.seal ≠ 1) ∧
      sealed.seal = 1 ∧ { sealed with broken := 128 }.seal = 2 ∧ SmuSt.blank.up = false ∧ (State.reset.smu.state = smuWait ∧ State.reset.smu.fwCheck = none) ∧
      { smu0 with fwCheck := some 2048 }.fwCheck = some 2048 ∧ measuring.measuring = true ∧ measuring.missed = false ∧ { measuring with missed := true }.missed = true ∧
      smu0.measuring = false ∧ measuring.waiting = [] ∧ measuring.region.selected 8191 = false ∧ d0.tap = [] ∧
      ({ d0 with tap := [⟨95, false, 0, []⟩] } : Dev).tap = ⟨95, false, 0, []⟩ :: [] ∧ State.reset.link = .refresh 0 :: [] ∧
      ({ State.reset with link := [] } : State).link = [] ∧ (0x10 ≤ 0xFFFFFC ∧ 0xFFFFFC + [0, 0, 0, 0].length ≤ 2 ^ 24) := by decide +kernel

/-- A measuring SMU with POWER_DIV 2, stream 8191 selected and frame 0 of it open with sums; one with a POWER record waiting. -/
def summing : SmuSt :=
  { measuring with
    region := { measuring.region with cfg := measuring.region.cfg + 2 ^ 48, sel := [(255, 2 ^ 31)] }
    streams := [(8191, { next := some 0, sums := [(0, { SmuSum.zero with got := true })] })] }

theorem witness_SealedUnitActs_records :
    (summing.measuring = true ∧ summing.region.selected 8191 = true ∧ summing.waiting = [] ∧ (0 + 1) % summing.region.div ≠ 0 ∧
        summing.stream 8191 = { summing.stream 8191 with next := some 0, sums := [(0, { SmuSum.zero with got := true })] } ∧
        ∀ i, i < 4 → bitOf (summing.region.occ.getD i 0) 63 = false) ∧
      { measuring with waiting := [(0, 2, 0)] }.waiting = (0, 2, 0) :: [] ∧
      ((smu0.hashLow = smu0.hashLow ∧ (smu0.state = smuWait ∨ smu0.state = smuRun) ∧ State.reset.smu.up = true ∧ 1 ≤ 1 ∧ 2048 ≤ 2048) ∧
        ¬ (1 ≤ 0) ∧ measuring.region.selected (pf 0 5 0 13) = false) ∧
      (({ State.reset with link := [.words 0 [(0, 2 ^ 26)]] } : State).link = .words 0 [(0, 2 ^ 26)] :: [] ∧
        2 ^ 26 / 2 ^ 26 ≠ Tab.get 0 d0.mirror 0 / 2 ^ 26 ∧ 1 &&& Tab.get 0 d0.mirror 4 ≠ 1 ∧ Tab.get 0 d0.mirror smuStoreBase = 0) := by decide +kernel

end Sys2Proof.Tests
end

section
/-! SUPPORT. What storing the fields of a register does to each of its bits (R15). -/
namespace Sys2Proof.Machine

/-- The bit that a write leaves in a field of an access type: `c` says whether the write covers the bit, `b` is the bit written. -/
def Access.writtenBit (acc : Access) (active c b old : Bool) : Bool :=
  match acc with
  | .rw => if c then b else old
  | .rwl => if active then old else if c then b else old
  | .w1c => old && !(c && b)
  | _ => old

theorem Access.writtenBit_uncovered (acc : Access) (active b old : Bool) : acc.writtenBit active false b old = old := by
  cases acc <;> simp [Access.writtenBit]

/-- The word after a write has been stored over one field. -/
def FieldDef.store (active : Bool) (v m : Nat) (w : Word) (f : FieldDef) : Word :=
  let fm := fieldMask f.hi f.lo &&& BitVec.ofNat 64 m
  match f.acc with
  | .rw => (w &&& ~~~fm) ||| (BitVec.ofNat 64 v &&& fm)
  | .rwl => if active then w else (w &&& ~~~fm) ||| (BitVec.ofNat 64 v &&& fm)
  | .w1c => w &&& ~~~(BitVec.ofNat 64 v &&& fm)
  | _ => w

theorem Dev.storeFields_eq_foldl (d : Dev) (r : Reg) (fs : List FieldDef) (v m : Nat) :
    d.storeFields r fs v m = d.wrReg r (fs.foldl (FieldDef.store d.active v m) (d.rdReg r)) := rfl

@[simp] theorem Dev.storeFields_rdReg_same (d : Dev) (r : Reg) (fs : List FieldDef) (v m : Nat) :
    (d.storeFields r fs v m).rdReg r = fs.foldl (FieldDef.store d.active v m) (d.rdReg r) := by
  rw [Dev.storeFields_eq_foldl, Dev.rdReg_wrReg_same]

theorem Dev.storeFields_rdReg_other (d : Dev) (r q : Reg) (fs : List FieldDef) (v m : Nat) (h : q.addr ≠ r.addr) :
    (d.storeFields r fs v m).rdReg q = d.rdReg q :=
  d.rdReg_wrReg_other r q _ h.symm

@[simp] theorem Dev.storeFields_rdByte (d : Dev) (r : Reg) (fs : List FieldDef) (v m a : Nat) :
    (d.storeFields r fs v m).rdByte a = d.rdByte a := rfl

/-- Bit i of a word whose bits under a mask are replaced. -/
theorem replaceMasked_bit (w x fm : Word) (i : Nat) (h : i < 64) :
    ((w &&& ~~~fm) ||| (x &&& fm)).getLsbD i = if fm.getLsbD i then x.getLsbD i else w.getLsbD i := by
  simp only [BitVec.getLsbD_or, BitVec.getLsbD_and, BitVec.getLsbD_not, h, decide_true]
  cases fm.getLsbD i <;> simp

/-- Bit i of a word whose bits that are 1 under a mask are cleared. -/
theorem clearMasked_bit (w x fm : Word) (i : Nat) (h : i < 64) :
    (w &&& ~~~(x &&& fm)).getLsbD i = (w.getLsbD i && !(fm.getLsbD i && x.getLsbD i)) := by
  simp only [BitVec.getLsbD_and, BitVec.getLsbD_not, h, decide_true, Bool.true_and, Bool.and_comm (x.getLsbD i)]

theorem ofNat_bit (v i : Nat) (h : i < 64) : (BitVec.ofNat 64 v).getLsbD i = v.testBit i := by
  rw [BitVec.getLsbD_ofNat, decide_eq_true h, Bool.true_and]

/-- A field's store decides the bits that lie in the field and under the mask. -/
theorem FieldDef.store_bit (act : Bool) (v m : Nat) (w : Word) (f : FieldDef) (i : Nat) (h : i < 64) :
    (FieldDef.store act v m w f).getLsbD i =
      f.acc.writtenBit act ((decide (f.lo ≤ i) && decide (i < f.hi + 1)) && m.testBit i) (v.testBit i) (w.getLsbD i) := by
  have hmask : (fieldMask f.hi f.lo &&& BitVec.ofNat 64 m).getLsbD i =
      ((decide (f.lo ≤ i) && decide (i < f.hi + 1)) && m.testBit i) := by
    rw [BitVec.getLsbD_and, fieldMask_testBit _ _ _ h, ofNat_bit m i h]
  unfold FieldDef.store Access.writtenBit
  cases f.acc with
  | rw => rw [← hmask, ← ofNat_bit v i h]; exact replaceMasked_bit _ _ _ i h
  | rwl =>
    rw [← hmask, ← ofNat_bit v i h]
    cases act with
    | true => rfl
    | false => exact replaceMasked_bit _ _ _ i h
  | w1c => rw [← hmask, ← ofNat_bit v i h]; exact clearMasked_bit _ _ _ i h
  | ro | wo | w1s | pop => rfl

theorem FieldDef.store_bit_inside (act : Bool) (v m : Nat) (w : Word) (f : FieldDef) (i : Nat) (h : i < 64) (hlo : f.lo ≤ i) (hhi : i ≤ f.hi) :
    (FieldDef.store act v m w f).getLsbD i = f.acc.writtenBit act (m.testBit i) (v.testBit i) (w.getLsbD i) := by
  simp only [FieldDef.store_bit act v m w f i h, hlo, Nat.lt_succ_of_le hhi, decide_true, Bool.true_and]

theorem FieldDef.store_bit_outside (act : Bool) (v m : Nat) (w : Word) (f : FieldDef) (i : Nat) (h : i < 64) (ho : i < f.lo ∨ f.hi < i) :
    (FieldDef.store act v m w f).getLsbD i = w.getLsbD i := by
  have hin : (decide (f.lo ≤ i) && decide (i < f.hi + 1)) = false := by
    simp only [Bool.and_eq_false_imp, decide_eq_true_eq, decide_eq_false_iff_not]
    omega
  rw [FieldDef.store_bit act v m w f i h, hin, Bool.false_and, Access.writtenBit_uncovered]

theorem storeAll_bit_outside (act : Bool) (v m : Nat) (fs : List FieldDef) (w : Word) (i : Nat) (h : i < 64)
    (ho : ∀ f ∈ fs, i < f.lo ∨ f.hi < i) : (fs.foldl (FieldDef.store act v m) w).getLsbD i = w.getLsbD i := by
  induction fs generalizing w with
  | nil => rfl
  | cons f fs ih =>
    obtain ⟨hf, hfs⟩ := List.forall_mem_cons.mp ho
    rw [List.foldl_cons, ih _ hfs, FieldDef.store_bit_outside act v m w f i h hf]

/-- Of fields that do not overlap, the one that holds a bit decides it. -/
theorem storeAll_bit_inside (act : Bool) (v m : Nat) (fs : List FieldDef) (w : Word) (i : Nat) (h : i < 64)
    (apart : fs.Pairwise fun a b => a.hi < b.lo ∨ b.hi < a.lo) (f : FieldDef) (hf : f ∈ fs) (hlo : f.lo ≤ i) (hhi : i ≤ f.hi) :
    (fs.foldl (FieldDef.store act v m) w).getLsbD i = f.acc.writtenBit act (m.testBit i) (v.testBit i) (w.getLsbD i) := by
  induction fs generalizing w with
  | nil => cases hf
  | cons g gs ih =>
    obtain ⟨hg, hgs⟩ := List.pairwise_cons.mp apart
    rw [List.foldl_cons]
    rcases List.mem_cons.mp hf with rfl | hmem
    · have hout : ∀ b ∈ gs, i < b.lo ∨ b.hi < i := fun b hb => by have := hg b hb; omega
      rw [storeAll_bit_outside act v m gs _ i h hout, FieldDef.store_bit_inside act v m w f i h hlo hhi]
    · have hout : i < g.lo ∨ g.hi < i := by have := hg f hmem; omega
      rw [ih _ hgs hmem, FieldDef.store_bit_outside act v m w g i h hout]

end Sys2Proof.Machine
end

section
/-! PROOFS. The access types of a register's fields (R15, R19). -/
open Sys2Proof Sys2Proof.Machine Sys2Proof.Safety

/-- Settles O28: the fields do not overlap, so the one field that holds a bit decides it by its access type, and a bit that no field
holds stays. -/
theorem registerFieldsFollowTheirAccessType : Obligations.RegisterFieldsFollowTheirAccessType := by
  unfold Obligations.RegisterFieldsFollowTheirAccessType
  intro d r fs v m i hi apart
  refine ⟨fun f hf hlo hhi => ?_, fun hout => ?_, fun q hq => d.storeFields_rdReg_other r q fs v m hq,
    fun a => d.storeFields_rdByte r fs v m a⟩
  · rw [Dev.storeFields_rdReg_same, storeAll_bit_inside d.active v m fs (d.rdReg r) i hi apart f hf hlo hhi]
    cases f.acc <;> simp [Access.writtenBit]
  · rw [Dev.storeFields_rdReg_same, storeAll_bit_outside d.active v m fs (d.rdReg r) i hi hout]

end

section
/-! SUPPORT. What a register write of a command can do, case by case (R15, R19, R20, R32, R366). -/
namespace Sys2Proof.Machine
open Sys2Proof.Safety

/-! ### REGISTER_WRITE and ISL_RESET_WRITE -/

theorem registerWrite_acts {s : State} (h : up s) (a w v : Nat) : Acts (.registerWrite a w v) s (s.dev.busWrite a w v) :=
  congrArg Host.Outcome.next (State.run_of_up h _)

theorem islResetWrite_acts {s : State} (h : up s) (v : Nat) : Acts (.islResetWrite v) s (Dev.answered (s.dev.islReset v)) :=
  congrArg Host.Outcome.next (State.run_of_up h _)

/-! ### Where a write goes (R32, R366) -/

theorem Dev.busWrite_outside (d : Dev) {a : Nat} (w v : Nat) (h : weltTarget a ≠ 5) : d.busWrite a w v = { d with answer := (2, 0) } :=
  if_pos h

theorem Dev.busWrite_control (d : Dev) {a : Nat} (w v : Nat) (h : weltTarget a = 5) :
    d.busWrite a w v = { (d.regWrite a w v).1 with answer := (b2n (d.regWrite a w v).2, 0) } :=
  if_neg (not_not_intro h)

/-- A block held in reset, another width or a misaligned address: an error response alone (R19, R32). -/
theorem Dev.regWrite_rejected (d : Dev) {a w : Nat} (v : Nat) (h : d.blockHeld a = true ∨ (w ≠ 32 ∧ w ≠ 64) ∨ a % (w / 8) ≠ 0) :
    d.regWrite a w v = (d, true) := by
  rw [Dev.regWrite, if_pos]
  rcases h with held | ⟨h32, h64⟩ | misaligned
  · simp [held]
  · simp [h32, h64]
  · simp [misaligned]

/-- A 32-bit write that no crossing and no alignment rejects goes to the register at its address, if there is one. -/
theorem Dev.regWrite_word (d : Dev) {a : Nat} (v : Nat) (held : d.blockHeld a = false) (aligned : a % 4 = 0) :
    d.regWrite a 32 v = (regRow a).elim (d, false) fun row => d.writeAt row 32 v := by
  rw [Dev.regWrite, if_neg (by simp [held, aligned]), if_pos rfl]
  cases regRow a <;> rfl

/-! ### What a register does with a write (R15, R20, R500) -/

theorem Dev.writeAt_refused (d : Dev) (r : RegDef) (ix : List Nat) (off w v : Nat)
    (h : (r.whole = true ∧ w < r.width) ∨
      d.writeRefused r.id (ix.getD 0 0) (v % 2 ^ w * 2 ^ (8 * off)) ((2 ^ w - 1) * 2 ^ (8 * off)) = true) :
    d.writeAt (r, ix, off) w v = (d, true) := by
  rw [Dev.writeAt]
  refine if_pos ?_
  rcases h with ⟨whole, narrow⟩ | refused
  · simp [whole, narrow]
  · rw [refused, Bool.or_true]

theorem Dev.writeAt_accepted (d : Dev) (r : RegDef) (ix : List Nat) (off w v : Nat)
    (wide : r.whole = true → r.width ≤ w) (prio : ¬(r.id = .INTC_PRIO ∧ ix.getD 0 0 = 0))
    (accepts : d.writeRefused r.id (ix.getD 0 0) (v % 2 ^ w * 2 ^ (8 * off)) ((2 ^ w - 1) * 2 ^ (8 * off)) = false) :
    d.writeAt (r, ix, off) w v =
      ((d.storeFields (r.id.reg ix) r.fields (v % 2 ^ w * 2 ^ (8 * off)) ((2 ^ w - 1) * 2 ^ (8 * off))).writeActs d r.id (ix.getD 0 0)
          (if r.id == .MON_CS || r.id == .INTC_ENABLE then ix.getD 1 0 else 0) (v % 2 ^ w * 2 ^ (8 * off)) ((2 ^ w - 1) * 2 ^ (8 * off)),
        d.lockedWrite r.fields ((2 ^ w - 1) * 2 ^ (8 * off))) := by
  have notNarrow : (r.whole && decide (w < r.width)) = false := by
    cases hw : r.whole with
    | false => rfl
    | true => simpa using wide hw
  have notPrio : (r.id == .INTC_PRIO && ix.getD 0 0 == 0) = false := by simpa using prio
  simp only [Dev.writeAt, notNarrow, accepts, notPrio, Bool.or_self, Bool.false_eq_true, if_false]

theorem Dev.lockedWrite_inactive (d : Dev) (fs : List FieldDef) (m : Nat) (h : d.active = false) : d.lockedWrite fs m = false := by
  simp [Dev.lockedWrite, h]

end Sys2Proof.Machine
end

section
/-! PROOFS. Accepted register writes (R15, R20). -/
open Sys2Proof Sys2Proof.Machine Sys2Proof.Safety

/-- Settles O30: the write goes to the register at its address, which accepts it. -/
theorem registerWriteStoresThenActs : Obligations.RegisterWriteStoresThenActs := by
  unfold Obligations.RegisterWriteStoresThenActs
  intro s a v row ix off hup control held aligned found wide prio m b j accepts
  refine ⟨?_, s.dev.lockedWrite_inactive row.fields m⟩
  have hwrite : s.dev.regWrite a 32 v = s.dev.writeAt (row, ix, off) 32 v := by
    rw [Dev.regWrite_word _ v held aligned, found]; rfl
  have hacts := registerWrite_acts hup a 32 v
  rwa [Dev.busWrite_control _ 32 v control, hwrite, Dev.writeAt_accepted _ row ix off 32 v wide prio accepts] at hacts

end

section
/-! SUPPORT. What a write of ISL_RESET does to each compute island (R32, R33). -/
namespace Sys2Proof.Machine

/-! ### Entries of a table that a filter keeps or drops -/

theorem Tab.get_filter_kept {α : Type} (x : α) (p : Nat × α → Bool) (t : Tab α) (k : Nat) (h : ∀ v, p (k, v) = true) :
    Tab.get x (t.filter p) k = Tab.get x t k := by
  induction t with
  | nil => rfl
  | cons e t ih =>
    obtain ⟨j, v⟩ := e
    rw [List.filter_cons]
    by_cases hk : k = j
    · subst hk; rw [if_pos (h v)]; simp [Tab.get]
    · split <;> simp [Tab.get, hk, ih]

theorem Tab.get_filter_dropped {α : Type} (x : α) (p : Nat × α → Bool) (t : Tab α) (k : Nat) (h : ∀ v, p (k, v) = false) :
    Tab.get x (t.filter p) k = x := by
  induction t with
  | nil => rfl
  | cons e t ih =>
    obtain ⟨j, v⟩ := e
    rw [List.filter_cons]
    split
    · next kept =>
      have hk : k ≠ j := by rintro rfl; rw [h v] at kept; cases kept
      simp [Tab.get, hk, ih]
    · exact ih

/-! ### The bits of ISL_RESET -/

theorem bitOf_eq_testBit (v i : Nat) : bitOf v i = v.testBit i := by
  rw [bitOf, Nat.testBit_eq_decide_div_mod_eq, Nat.shiftRight_eq_div_pow]
  exact Bool.beq_eq_decide_eq _ _

/-- ISL_RESET as it stands in the register. -/
def Dev.islResetBits (d : Dev) : Nat := (d.rdReg R.DEV_ISL_RESET).toNat

theorem Dev.ingHeld_eq_bit (d : Dev) : d.ingHeld = (bitsOf d.islResetBits 8 8 == 1) := rfl
theorem Dev.egrHeld_eq_bit (d : Dev) : d.egrHeld = (bitsOf d.islResetBits 9 9 == 1) := rfl

theorem Dev.islHeld_eq_bit (d : Dev) (k : Nat) (h : k < 8) : d.islHeld k = bitOf d.islResetBits k := by
  have hget : d.get F.DEV_ISL_RESET_ISL = bitsOf d.islResetBits 7 0 := rfl
  rw [Dev.islHeld, hget, bitOf_eq_testBit, bitOf_eq_testBit, bitsOf_testBit]
  simp [h]

/-- Bits 9 and 8 of a number are clear where the field of both is 0. -/
theorem bitsOf_single_of_clear {v b : Nat} (h : bitsOf v 9 8 = 0) (hb : b = 8 ∨ b = 9) : bitsOf (v % 1024) b b = 0 := by
  simp only [bitsOf, Nat.shiftRight_eq_div_pow] at *
  rcases hb with rfl | rfl <;> omega

theorem bitOf_of_clear {v b : Nat} (h : bitsOf v 9 8 = 0) (hb : b = 8 ∨ b = 9) : bitOf v b = false := by
  simp only [bitOf, bitsOf, Nat.shiftRight_eq_div_pow, beq_eq_false_iff_ne] at *
  rcases hb with rfl | rfl <;> omega

/-! ### An island is held outside a swap -/

/-- What the holding and the release of compute island k leave alone: ISL_RESET, the pattern port, and the state of every other island
and its panels. -/
structure OnlyIsland (k : Nat) (d e : Dev) : Prop where
  bits : e.islResetBits = d.islResetBits
  pat : e.pat = d.pat
  isl : ∀ j, j ≠ k → e.isl j = d.isl j
  panel : ∀ p, p / 8 ≠ k → e.panel p = d.panel p

/-- Compute island k has lost its units, verdicts, tables, staging entries and panels (R33). -/
structure IslandLost (k : Nat) (d : Dev) : Prop where
  units : (d.isl k).units = []
  verdicts : (d.isl k).verdicts = []
  tabs : (d.isl k).tabs = []
  staging : (d.isl k).staging = []
  panel : ∀ p, p / 8 = k → d.panel p = PanelSt.init

theorem OnlyIsland.refl (k : Nat) (d : Dev) : OnlyIsland k d d := ⟨rfl, rfl, fun _ _ => rfl, fun _ _ => rfl⟩

theorem OnlyIsland.trans {k : Nat} {d e f : Dev} (h : OnlyIsland k d e) (g : OnlyIsland k e f) : OnlyIsland k d f :=
  ⟨g.bits.trans h.bits, g.pat.trans h.pat, fun j hj => (g.isl j hj).trans (h.isl j hj), fun p hp => (g.panel p hp).trans (h.panel p hp)⟩

theorem IslandLost.of_onlyIsland {j k : Nat} {d e : Dev} (lost : IslandLost k d) (h : OnlyIsland j d e) (hk : k ≠ j) : IslandLost k e := by
  have hisl := h.isl k hk
  exact ⟨by rw [hisl, lost.units], by rw [hisl, lost.verdicts], by rw [hisl, lost.tabs], by rw [hisl, lost.staging],
    fun p hp => by rw [h.panel p (by omega), lost.panel p hp]⟩

theorem IslandLost.congr {k : Nat} {d e : Dev} (lost : IslandLost k d) (hisls : e.isls = d.isls) (hpanels : e.panels = d.panels) :
    IslandLost k e := by
  have hisl : e.isl k = d.isl k := by rw [Dev.isl, hisls]; rfl
  exact ⟨by rw [hisl, lost.units], by rw [hisl, lost.verdicts], by rw [hisl, lost.tabs], by rw [hisl, lost.staging],
    fun p hp => by rw [Dev.panel, hpanels]; exact lost.panel p hp⟩

/-- A device that differs in no island, no panel, the pattern port or ISL_RESET. -/
theorem OnlyIsland.of_eq {k : Nat} {d e : Dev} (bits : e.islResetBits = d.islResetBits) (pat : e.pat = d.pat) (isls : e.isls = d.isls)
    (panels : e.panels = d.panels) : OnlyIsland k d e :=
  ⟨bits, pat, fun j _ => by rw [Dev.isl, isls]; rfl, fun p _ => by rw [Dev.panel, panels]; rfl⟩

theorem Dev.islResetBits_put (d : Dev) (f : RF) (v : Nat) (h : f.reg.addr ≠ R.DEV_ISL_RESET.addr) :
    (d.put f v).islResetBits = d.islResetBits := by
  rw [Dev.islResetBits, d.rdReg_put_other f v _ h]; rfl

theorem Dev.weltReset_islResetBits (d : Dev) (m : Nat) (sel : Burst → Bool) : (d.weltReset m sel).islResetBits = d.islResetBits := by
  have apart : (R.WELT_M_STATUS m).addr ≠ R.DEV_ISL_RESET.addr := by
    simp only [R.WELT_M_STATUS, R.DEV_ISL_RESET]; omega
  rw [Dev.weltReset, Dev.weltShow, Dev.islResetBits_put _ _ _ apart, Dev.islResetBits_put _ _ _ apart, Dev.islResetBits_put _ _ _ apart]
  rfl

/-- Registers removed above ISL_RESET leave it. -/
theorem Dev.islResetBits_filter {d e : Dev} (p : Nat × Word → Bool) (h : e.regs = d.regs.filter p)
    (kept : ∀ v, p (R.DEV_ISL_RESET.addr, v) = true) : e.islResetBits = d.islResetBits := by
  rw [Dev.islResetBits, Dev.islResetBits, Dev.rdReg, Dev.rdReg, h, Tab.get_filter_kept 0 p d.regs _ kept]

theorem Dev.awlReset_islResetBits (d : Dev) (n : Nat) : (d.awlReset n).islResetBits = d.islResetBits := by
  have below : ¬(R.AWL_CTRL n).addr ≤ R.DEV_ISL_RESET.addr := by simp only [R.AWL_CTRL, R.DEV_ISL_RESET]; omega
  exact Dev.islResetBits_filter _ rfl fun v => by simp [below]

theorem Dev.awlReset_onlyIsland (d : Dev) (n k : Nat) : OnlyIsland k d (d.awlReset n) :=
  .of_eq (d.awlReset_islResetBits n) rfl rfl rfl

theorem Dev.weltReset_onlyIsland (d : Dev) (m : Nat) (sel : Burst → Bool) (k : Nat) : OnlyIsland k d (d.weltReset m sel) :=
  .of_eq (d.weltReset_islResetBits m sel) rfl rfl rfl

/-- Outside a swap an island that is held takes no incoming pattern. -/
theorem Dev.holdSwap_of_noSwap (d : Dev) (k : Nat) (h : d.pat.next = []) : d.holdSwap k = d := by
  simp [Dev.holdSwap, Dev.forL, h]

theorem Dev.islHold_onlyIsland (d : Dev) (k : Nat) (h : d.pat.next = []) : OnlyIsland k d (d.islHold k) := by
  have below : ¬islBase k ≤ R.DEV_ISL_RESET.addr := by simp only [islBase, R.DEV_ISL_RESET]; omega
  rw [Dev.islHold, Dev.holdSwap_of_noSwap _ k ?noSwap]
  case noSwap => exact h
  exact {
    bits := Dev.islResetBits_filter _ rfl fun v => by simp [below]
    pat := rfl
    isl := fun j hj => Dev.setIsl_other _ k _ j hj.symm
    panel := fun p hp => Tab.get_filter_kept _ _ d.panels p fun _ => decide_eq_true hp }

theorem Dev.islHold_lost (d : Dev) (k : Nat) (h : d.pat.next = []) : IslandLost k (d.islHold k) := by
  rw [Dev.islHold, Dev.holdSwap_of_noSwap _ k ?noSwap]
  case noSwap => exact h
  exact {
    units := by rw [Dev.setIsl_same]; rfl
    verdicts := by rw [Dev.setIsl_same]; rfl
    tabs := by rw [Dev.setIsl_same]; rfl
    staging := by rw [Dev.setIsl_same]; rfl
    panel := fun p hp => Tab.get_filter_dropped _ _ d.panels p fun _ => decide_eq_false (not_not_intro hp) }

theorem Dev.computeHold_onlyIsland (d : Dev) (k : Nat) (h : d.pat.next = []) : OnlyIsland k d (d.computeHold k) :=
  (((d.islHold_onlyIsland k h).trans (Dev.awlReset_onlyIsland _ _ k)).trans (Dev.awlReset_onlyIsland _ _ k)).trans
    (Dev.weltReset_onlyIsland _ _ _ k)

theorem Dev.computeHold_lost (d : Dev) (k : Nat) (h : d.pat.next = []) : IslandLost k (d.computeHold k) :=
  (d.islHold_lost k h).congr rfl rfl

theorem Dev.islRelease_onlyIsland (d : Dev) (k : Nat) : OnlyIsland k d (d.islRelease k) where
  bits := rfl
  pat := rfl
  isl := fun j hj => d.setIsl_other k _ j hj.symm
  panel := fun _ _ => rfl

/-! ### The eight islands in turn -/

/-- What a write v of ISL_RESET does to compute island k, whose bit stood in `was`. -/
def Dev.islResetStep (was v : Nat) (d : Dev) (k : Nat) : Dev :=
  if bitOf v k then (if bitOf was k then d else d.computeHold k) else if bitOf was k then d.islRelease k else d

theorem Dev.islResetStep_onlyIsland (was v : Nat) (d : Dev) (k : Nat) (h : d.pat.next = []) : OnlyIsland k d (d.islResetStep was v k) := by
  unfold Dev.islResetStep
  cases bitOf v k <;> cases bitOf was k
  · exact .refl k d
  · exact d.islRelease_onlyIsland k
  · exact d.computeHold_onlyIsland k h
  · exact .refl k d

/-- An island whose bit stays is left alone. -/
theorem Dev.islResetStep_same (was v : Nat) (d : Dev) (k : Nat) (h : bitOf v k = bitOf was k) : d.islResetStep was v k = d := by
  unfold Dev.islResetStep
  rw [h]
  cases bitOf was k <;> rfl

theorem Dev.islResetStep_hold (was v : Nat) (d : Dev) (k : Nat) (hv : bitOf v k = true) (hw : bitOf was k = false) :
    d.islResetStep was v k = d.computeHold k := by
  rw [Dev.islResetStep, hv, hw]; rfl

theorem islResetSteps_keep (was v : Nat) (ks : List Nat) (d : Dev) (h : d.pat.next = []) :
    (ks.foldl (Dev.islResetStep was v) d).pat.next = [] ∧ (ks.foldl (Dev.islResetStep was v) d).islResetBits = d.islResetBits := by
  refine List.foldlRecOn (motive := fun e : Dev => e.pat.next = [] ∧ e.islResetBits = d.islResetBits) ks _ ⟨h, rfl⟩ fun e ⟨noSwap, bits⟩ k _ => ?_
  have step := Dev.islResetStep_onlyIsland was v e k noSwap
  exact ⟨by rw [step.pat, noSwap], step.bits.trans bits⟩

theorem islResetSteps_panel (was v : Nat) (ks : List Nat) (d : Dev) (h : d.pat.next = []) (p : Nat) (stays : bitOf v (p / 8) = bitOf was (p / 8)) :
    (ks.foldl (Dev.islResetStep was v) d).panel p = d.panel p := by
  refine (List.foldlRecOn (motive := fun e : Dev => e.pat.next = [] ∧ e.panel p = d.panel p) ks _ ⟨h, rfl⟩ fun e ⟨noSwap, same⟩ k _ => ?_).2
  have step := Dev.islResetStep_onlyIsland was v e k noSwap
  refine ⟨by rw [step.pat, noSwap], ?_⟩
  by_cases hk : p / 8 = k
  · rw [Dev.islResetStep_same was v e k (hk ▸ stays), same]
  · rw [step.panel p hk, same]

/-- An island whose bit rises is lost at its turn, and the turns of the others leave it so. -/
theorem islResetSteps_lost (was v : Nat) (ks : List Nat) (d : Dev) (h : d.pat.next = []) (k : Nat) (mem : k ∈ ks) (hv : bitOf v k = true)
    (hw : bitOf was k = false) : IslandLost k (ks.foldl (Dev.islResetStep was v) d) := by
  obtain ⟨before, after, rfl⟩ := List.append_of_mem mem
  rw [List.foldl_append, List.foldl_cons]
  have noSwap := (islResetSteps_keep was v before d h).1
  generalize before.foldl (Dev.islResetStep was v) d = e at noSwap ⊢
  have atTurn : (e.islResetStep was v k).pat.next = [] ∧ IslandLost k (e.islResetStep was v k) := by
    refine ⟨by rw [(e.islResetStep_onlyIsland was v k noSwap).pat, noSwap], ?_⟩
    rw [Dev.islResetStep_hold was v e k hv hw]
    exact e.computeHold_lost k noSwap
  refine (List.foldlRecOn (motive := fun e : Dev => e.pat.next = [] ∧ IslandLost k e) after _ atTurn fun e ⟨noSwap, lost⟩ j _ => ?_).2
  have step := e.islResetStep_onlyIsland was v j noSwap
  refine ⟨by rw [step.pat, noSwap], ?_⟩
  by_cases hj : k = j
  · subst hj
    rw [Dev.islResetStep_hold was v e k hv hw]
    exact e.computeHold_lost k noSwap
  · exact lost.of_onlyIsland step hj

/-! ### The whole write -/

@[simp] theorem Dev.answered_answer (x : Dev × Bool) : (Dev.answered x).answer = (b2n x.2, 0) := rfl
@[simp] theorem Dev.answered_isl (x : Dev × Bool) (k : Nat) : (Dev.answered x).isl k = x.1.isl k := rfl
@[simp] theorem Dev.answered_panel (x : Dev × Bool) (p : Nat) : (Dev.answered x).panel p = x.1.panel p := rfl
@[simp] theorem Dev.answered_islResetBits (x : Dev × Bool) : (Dev.answered x).islResetBits = x.1.islResetBits := rfl
@[simp] theorem Dev.irqSettle_isl (d : Dev) (k : Nat) : d.irqSettle.isl k = d.isl k := rfl
@[simp] theorem Dev.irqSettle_panel (d : Dev) (p : Nat) : d.irqSettle.panel p = d.panel p := rfl
@[simp] theorem Dev.irqSettle_islResetBits (d : Dev) : d.irqSettle.islResetBits = d.islResetBits := rfl

theorem Dev.islReset_refused (d : Dev) (v : Nat) (active : d.active = true) (h : bitsOf v 9 8 ≠ 0) : d.islReset v = (d, true) := by
  rw [Dev.islReset, if_pos (by simp [active, h])]

theorem Dev.islReset_accepted (d : Dev) (v : Nat) (h : d.active = false ∨ bitsOf v 9 8 = 0) : (d.islReset v).2 = false := by
  rw [Dev.islReset, if_neg (by rcases h with h | h <;> simp [h])]

/-- A write that leaves the bits of ingest and egress clear goes through the compute islands in turn. -/
theorem Dev.islReset_compute (d : Dev) (v : Nat) (h : bitsOf v 9 8 = 0) :
    d.islReset v = ((List.range 8).foldl (Dev.islResetStep d.islResetBits v) (d.wrReg R.DEV_ISL_RESET (BitVec.ofNat 64 (v % 1024))), false) := by
  rw [Dev.islReset, if_neg (by simp [h])]
  simp only [bitOf_of_clear h (.inl rfl), bitOf_of_clear h (.inr rfl), Bool.false_and, Bool.false_eq_true, if_false]
  rfl

theorem Dev.islResetBits_wrReg (d : Dev) (n : Nat) : (d.wrReg R.DEV_ISL_RESET (BitVec.ofNat 64 (n % 1024))).islResetBits = n % 1024 := by
  rw [Dev.islResetBits, Dev.rdReg_wrReg_same, BitVec.toNat_ofNat]
  omega

/-- ISL_RESET holds what a write of compute bits wrote. -/
theorem Dev.islReset_bits (d : Dev) (v : Nat) (h : bitsOf v 9 8 = 0) (noSwap : d.pat.next = []) :
    (d.islReset v).1.islResetBits = v % 1024 := by
  rw [d.islReset_compute v h]
  exact (islResetSteps_keep _ v _ (d.wrReg _ _) noSwap).2.trans (d.islResetBits_wrReg v)

theorem Dev.islReset_panel (d : Dev) (v : Nat) (h : bitsOf v 9 8 = 0) (noSwap : d.pat.next = []) (p : Nat) (hp : p / 8 < 8)
    (stays : bitOf v (p / 8) = d.islHeld (p / 8)) : (d.islReset v).1.panel p = d.panel p := by
  rw [d.islHeld_eq_bit _ hp] at stays
  rw [d.islReset_compute v h]
  exact islResetSteps_panel _ v _ (d.wrReg _ _) noSwap p stays

theorem Dev.islReset_lost (d : Dev) (v : Nat) (h : bitsOf v 9 8 = 0) (noSwap : d.pat.next = []) (k : Nat) (hk : k < 8) (hv : bitOf v k = true)
    (was : d.islHeld k = false) : IslandLost k (d.islReset v).1 := by
  rw [d.islHeld_eq_bit _ hk] at was
  rw [d.islReset_compute v h]
  exact islResetSteps_lost _ v _ (d.wrReg _ _) noSwap k (List.mem_range.mpr hk) hv was

theorem bitOf_mod_1024 (v k : Nat) (h : k < 8) : bitOf (v % 1024) k = bitOf v k := by
  rw [bitOf_eq_testBit, bitOf_eq_testBit, show (1024 : Nat) = 2 ^ 10 from rfl, Nat.testBit_mod_two_pow, decide_eq_true (by omega), Bool.true_and]

end Sys2Proof.Machine
end

section
/-! PROOFS. Refused register writes, and the writes of ISL_RESET (R15, R19, R20, R32, R33, R366, R500). -/
namespace Sys2Proof.Machine
open Sys2Proof.Safety

/-- A register write that is rejected before it reaches a register. -/
theorem registerWrite_rejected_acts {s : State} (hup : up s) {a w : Nat} (v : Nat) (control : weltTarget a = 5)
    (h : s.dev.blockHeld a = true ∨ (w ≠ 32 ∧ w ≠ 64) ∨ a % (w / 8) ≠ 0) :
    Acts (.registerWrite a w v) s { s.dev with answer := (1, 0) } := by
  have hacts := registerWrite_acts hup a w v
  rwa [Dev.busWrite_control _ w v control, Dev.regWrite_rejected _ v h] at hacts

/-- A 32-bit write at an address of no register. -/
theorem registerWrite_noRegister_acts {s : State} (hup : up s) {a : Nat} (v : Nat) (control : weltTarget a = 5)
    (held : s.dev.blockHeld a = false) (aligned : a % 4 = 0) (absent : regRow a = none) :
    Acts (.registerWrite a 32 v) s { s.dev with answer := (0, 0) } := by
  have hacts := registerWrite_acts hup a 32 v
  rwa [Dev.busWrite_control _ 32 v control, Dev.regWrite_word _ v held aligned, absent] at hacts

/-- A 32-bit write that its register refuses. -/
theorem registerWrite_refused_acts {s : State} (hup : up s) {a : Nat} (v : Nat) (control : weltTarget a = 5)
    (held : s.dev.blockHeld a = false) (aligned : a % 4 = 0) {r : RegDef} {ix : List Nat} {off : Nat} (found : regRow a = some (r, ix, off))
    (refused : s.dev.writeAt (r, ix, off) 32 v = (s.dev, true)) :
    Acts (.registerWrite a 32 v) s { s.dev with answer := (1, 0) } := by
  have hwrite : s.dev.regWrite a 32 v = (s.dev, true) := by rw [Dev.regWrite_word _ v held aligned, found]; exact refused
  have hacts := registerWrite_acts hup a 32 v
  rwa [Dev.busWrite_control _ 32 v control, hwrite] at hacts

end Sys2Proof.Machine

open Sys2Proof Sys2Proof.Machine Sys2Proof.Safety

/-- Settles O29: a register write by the place where it is refused, and a write of ISL_RESET island by island. -/
theorem refusedWritesChangeNothing : Obligations.RefusedWritesChangeNothing := by
  unfold Obligations.RefusedWritesChangeNothing
  refine ⟨fun s a w v hup outside => ?_, fun s a w v hup control => ⟨fun h => ?_, fun held w32 aligned absent => ?_,
    fun row ix off held w32 aligned found refused => ?_⟩, fun s v hup => ⟨fun active bits => ?_, fun h => ⟨s.dev.islReset_accepted v h, ?_⟩,
    fun clear noSwap => ?_⟩⟩
  · have hacts := registerWrite_acts hup a w v
    rwa [Dev.busWrite_outside _ w v outside] at hacts
  · exact registerWrite_rejected_acts hup v control h
  · subst w32
    exact registerWrite_noRegister_acts hup v control held aligned absent
  · subst w32
    refine registerWrite_refused_acts hup v control held aligned found (Dev.writeAt_refused _ row ix off 32 v ?_)
    exact refused.imp_left fun ⟨whole, width⟩ => ⟨whole, by omega⟩
  · have hacts := islResetWrite_acts hup v
    rwa [s.dev.islReset_refused v active bits] at hacts
  · have hacts := islResetWrite_acts hup v
    rwa [Dev.answered, s.dev.islReset_accepted v h] at hacts
  · have hbits : (Dev.answered (s.dev.islReset v)).irqSettle.islResetBits = v % 1024 := by
      rw [Dev.irqSettle_islResetBits, Dev.answered_islResetBits, s.dev.islReset_bits v clear noSwap]
    refine ⟨_, islResetWrite_acts hup v, ?_, fun k hk => ?_, ?_, ?_, fun k hk hv was => ?_, fun p hp stays => ?_⟩
    · rw [Dev.irqSettle_answer, Dev.answered_answer, s.dev.islReset_accepted v (.inr clear)]; rfl
    · rw [Dev.islHeld_eq_bit _ k hk, hbits, bitOf_mod_1024 v k hk]
    · rw [Dev.ingHeld_eq_bit, hbits, bitsOf_single_of_clear clear (.inl rfl)]; rfl
    · rw [Dev.egrHeld_eq_bit, hbits, bitsOf_single_of_clear clear (.inr rfl)]; rfl
    · have lost := s.dev.islReset_lost v clear noSwap k hk hv was
      rw [Dev.irqSettle_isl, Dev.answered_isl]
      refine ⟨lost.units, lost.verdicts, lost.tabs, lost.staging, fun p _ hp => ?_⟩
      rw [Dev.irqSettle_panel, Dev.answered_panel, lost.panel p hp]
    · rw [Dev.irqSettle_panel, Dev.answered_panel, s.dev.islReset_panel v clear noSwap p (by omega) stays]

end

section
/-! SUPPORT. How each command acts: on the device from its home island, on the SMU alone, or at a pin or a crossing (R24, R30, R32,
R33, R434). -/
namespace Sys2Proof.Machine
open Sys2Proof.Safety

theorem unitOk_eq_next {ok : Bool} {s t : State} (h : unitOk ok s = .next t) : ok = true ∧ t = s := by
  cases ok with
  | true => exact ⟨rfl, (Host.Outcome.next.inj h).symm⟩
  | false => exact nomatch h

/-! ### A command of the device, by its home -/

/-- The state after a command of the device whose home is h: an island that is held takes it without effect (R32, R33). -/
def State.runAt (s : State) (h : Home) (f : Dev → Dev) : State :=
  match h with
  | .ingest => s.runIng f
  | .egress => s.runEgr f
  | .compute k => s.runIsl k f
  | .base | .smu | .pin => s.run f

@[simp] theorem State.runAt_smu (s : State) (h : Home) (f : Dev → Dev) : (s.runAt h f).smu = s.smu := by
  cases h with
  | ingest => exact s.runIng_smu f
  | egress => exact s.runEgr_smu f
  | compute k => exact s.runIsl_smu k f
  | base | smu | pin => exact s.run_smu f

theorem State.runAt_held {s : State} {h : Home} (held : held s.dev h = true) (f : Dev → Dev) : s.runAt h f = s := by
  cases h with
  | ingest => exact State.runIng_held held f
  | egress => exact State.runEgr_held held f
  | compute k => exact State.runIsl_held held f
  | base | smu | pin => exact nomatch held

/-! ### A command of the SMU -/

/-- What the SMU becomes is a function of the SMU. -/
theorem State.runSmu_smu_congr {s₁ s₂ : State} (h : s₁.smu = s₂.smu) (f : SmuSt → SmuSt) : (s₁.runSmu f).smu = (s₂.runSmu f).smu := by
  simp only [State.runSmu, h]

/-! ### Every command -/

/-- The shapes of a command: what it does is the same function of the device, or of the SMU, in every state. Six commands of pins
and crossings have a shape each of their own. `ok` says whether the unit that the command names exists. -/
inductive CommandShape : Instr → Prop
  | device {c : Instr} (ok : Bool) (f : Dev → Dev) (notSmu : home c ≠ .smu) (unitExists : c.wellFormed = true → ok = true)
      (acts : ∀ s, exec c s = unitOk ok (s.runAt (home c) f)) : CommandShape c
  | smu {c : Instr} (ok : Bool) (f : SmuSt → SmuSt) (isSmu : home c = .smu)
      (acts : ∀ s, exec c s = unitOk ok (s.runSmu f)) : CommandShape c
  | tapFrame (full : Bool) : CommandShape (.smuTapFrame full)
  | mirrorUpdate : CommandShape .smuMirrorUpdate
  | appendArrive : CommandShape .evrAppendArrive
  | porstFall (n : Nat) : CommandShape (.porstFall n)
  | powerOnReset : CommandShape .powerOnReset
  | tapReset (low : Bool) : CommandShape (.tapReset low)

/-- Every command has one of these shapes. The cases named are, in turn: the commands of pins and crossings, those of the SMU, those
that name no unit, and those whose value operands are checked besides the unit; every other command names a unit alone. -/
theorem commandShape (c : Instr) : CommandShape c := by
  cases c
  case smuTapFrame full => exact .tapFrame full
  case smuMirrorUpdate => exact .mirrorUpdate
  case evrAppendArrive => exact .appendArrive
  case porstFall n => exact .porstFall n
  case powerOnReset => exact .powerOnReset
  case tapReset low => exact .tapReset low
  case smuFrameCloseTimeout stream => exact .smu (decide (stream < 8192)) _ rfl fun _ => rfl
  case smuSpiRead | smuSpiWrite | smuFwStart | smuSeal | smuBreak | smuPowerOn | smuPowerRecordDue | smuPpsEdge | smuPpsMissing |
      smuFwCheckDone | smuPowerLoss =>
    exact .smu true _ rfl fun _ => rfl
  case registerWrite | islResetWrite | slotCommitPost | drainPost | patternLoadDone | activatePost | stopPost | captureSampleArrive |
      trigSw | onchipScrub | ilvMaskWrite | repairProgram | incrementWrite | referenceEvaluation | phaseStep | ptpLaneTx |
      coreHoldWrite | bootSlotCheck | qspiCommand | qspiCommandDone | mgmtEnable | mgmtFrameReceive | mgmtLinkChange | mdioDone |
      monInFrame | hkConversionDone | hkUrgentRequest | evrSoftwareAppend | foReqChange | handoverGapEnd | jtagSample | jtagPreload |
      drainComplete | dumpMarkerArrive | relayFrameArrive | patternLoad | patternCancel | reqSigSet | keyLockSet |
      coldActivationComplete | swapComplete | stopComplete | captureHeaderWrite | captureTrigger | trigInEdge | repairDone |
      timeLoadRequest | timeSnap | timeMessageSend | epoch | buildOutEnd | qualitySend | ptpWatchdogExpire | phaseSlew | tsPop |
      scratchExit | scratchWritebackDone | mgmtRxNodescTimeout | mgmtFrameTransmit | mdioFrame | thermTrip | evrRecordProgrammed |
      evrBlockEraseDone | evrOpTimeSave | handoverRepeat | handoverWaitExpire | foReleaseComplete | jtagBypass | jtagIdcode |
      jtagExtest =>
    exact .device true _ nofun (fun _ => rfl) fun _ => rfl
  case loadwComplete | verdictPost | weightCommitPost | xferGo | channelTrainingDone | memTransferDone | scrubRead | dmaChConfigWrite |
      mgmtRingWrite | monConfigWrite =>
    exact .device _ _ nofun (fun wf => (Bool.and_eq_true_iff.mp wf).1) fun _ => rfl
  all_goals exact .device _ _ nofun id fun _ => rfl

theorem exec_of_smu {c : Instr} (h : home c = .smu) : ∃ ok f, ∀ s, exec c s = unitOk ok (s.runSmu f) := by
  cases commandShape c with
  | smu ok f _ acts => exact ⟨ok, f, acts⟩
  | device _ _ notSmu => exact absurd h notSmu
  | tapFrame | mirrorUpdate | appendArrive | porstFall | powerOnReset | tapReset => exact nomatch h

/-! ### The commands of pins and crossings -/

theorem smuTapFrame_of_empty {s : State} (h : s.dev.tap = []) (full : Bool) : exec (.smuTapFrame full) s = .next s := by
  show execSmuTapFrame full s = _
  rw [execSmuTapFrame, h]

theorem smuTapFrame_of_frame {s : State} {f : TapFrame} {rest : List TapFrame} (h : s.dev.tap = f :: rest) (full : Bool) :
    exec (.smuTapFrame full) s = .next (({ s with dev := { s.dev with tap := rest } } : State).runSmu fun u => u.tapFrame f full) := by
  show execSmuTapFrame full s = _
  rw [execSmuTapFrame, h]

theorem porstFall_smu {n : Nat} {s t : State} (h : exec (.porstFall n) s = .next t) : t.smu = s.smu := by
  obtain rfl := Host.Outcome.next.inj h
  split <;> rfl

theorem powerOnReset_smu {s t : State} (h : exec .powerOnReset s = .next t) : t.smu = s.smu := by
  obtain rfl := Host.Outcome.next.inj h
  split <;> rfl

theorem tapReset_smu {low : Bool} {s t : State} (h : exec (.tapReset low) s = .next t) : t.smu = s.smu := by
  obtain rfl := Host.Outcome.next.inj h
  rfl

theorem smuMirrorUpdate_smu {s t : State} (h : exec .smuMirrorUpdate s = .next t) : t.smu = s.smu := by
  obtain rfl := Host.Outcome.next.inj h
  split <;> rfl

/-- The arrival of an append takes at most the oldest of the SMU's appends from the crossing (R479). -/
theorem evrAppendArrive_smu {s t : State} (h : exec .evrAppendArrive s = .next t) :
    { t.smu with appends := [] } = { s.smu with appends := [] } := by
  obtain rfl := Host.Outcome.next.inj h
  split
  · rfl
  · split <;> rfl

/-! ### The idle step -/

theorem step_of_idle {s : State} (h : s.pending = []) : step s = .next s.tick := by rw [step, h]

@[simp] theorem Dev.htimTick_mem (d : Dev) : d.htimTick.mem = d.mem := by unfold Dev.htimTick; split <;> rfl

/-- A cycle of the timing island writes no memory (R386, R423, R476). -/
@[simp] theorem Dev.tickAll_mem (d : Dev) : d.tickAll.mem = d.mem := by
  have clocks : d.timeTick.htimTick.mem = d.mem := d.timeTick.htimTick_mem
  unfold Dev.tickAll
  split
  · rfl
  · dsimp only
    split <;> exact clocks

theorem Dev.tickAll_down (d : Dev) (h : d.up = false) : d.tickAll = d := by simp [Dev.tickAll, h]

end Sys2Proof.Machine
end

section
/-! PROOFS. The SMU and the rest of the device, held islands, and the idle step (R24, R30, R32, R33, R386, R434, R436). -/
open Sys2Proof Sys2Proof.Machine Sys2Proof.Safety

/-- Settles O5: a command of the device has no access to the SMU, and of the commands of pins and crossings only the arrival of an
append touches it. -/
theorem smuUnreachableFromTheDevice : Obligations.SmuUnreachableFromTheDevice := by
  unfold Obligations.SmuUnreachableFromTheDevice
  intro c s t notSmu notTap h
  have of_same (same : t.smu = s.smu) :
      { t.smu with appends := [] } = { s.smu with appends := [] } ∧ (c ≠ .evrAppendArrive → t.smu = s.smu) :=
    ⟨by rw [same], fun _ => same⟩
  cases commandShape c with
  | device ok f _ _ acts =>
    obtain ⟨-, rfl⟩ := unitOk_eq_next ((acts s).symm.trans h)
    exact of_same (s.runAt_smu _ f)
  | smu ok f isSmu _ => exact absurd isSmu notSmu
  | tapFrame full => exact absurd rfl (notTap full)
  | mirrorUpdate => exact of_same (smuMirrorUpdate_smu h)
  | appendArrive => exact ⟨evrAppendArrive_smu h, absurd rfl⟩
  | porstFall n => exact of_same (porstFall_smu h)
  | powerOnReset => exact of_same (powerOnReset_smu h)
  | tapReset low => exact of_same (tapReset_smu h)

/-- Settles O7: both states give the SMU's function the same SMU and, for a tap frame, the same frame. -/
theorem smuSeesOnlyItsTap : Obligations.SmuSeesOnlyItsTap := by
  unfold Obligations.SmuSeesOnlyItsTap
  intro c s₁ s₂ t₁ t₂ hc sameSmu sameTap h₁ h₂
  obtain isSmu | ⟨full, rfl⟩ := hc
  · obtain ⟨ok, f, acts⟩ := exec_of_smu isSmu
    obtain ⟨-, rfl⟩ := unitOk_eq_next ((acts s₁).symm.trans h₁)
    obtain ⟨-, rfl⟩ := unitOk_eq_next ((acts s₂).symm.trans h₂)
    exact ⟨State.runSmu_smu_congr sameSmu f, sameTap⟩
  · cases tap₁ : s₁.dev.tap with
    | nil =>
      obtain rfl := Host.Outcome.next.inj ((smuTapFrame_of_empty tap₁ full).symm.trans h₁)
      obtain rfl := Host.Outcome.next.inj ((smuTapFrame_of_empty (sameTap.symm.trans tap₁) full).symm.trans h₂)
      exact ⟨sameSmu, sameTap⟩
    | cons f rest =>
      obtain rfl := Host.Outcome.next.inj ((smuTapFrame_of_frame tap₁ full).symm.trans h₁)
      obtain rfl := Host.Outcome.next.inj ((smuTapFrame_of_frame (sameTap.symm.trans tap₁) full).symm.trans h₂)
      refine ⟨State.runSmu_smu_congr ?sameSmu _, rfl⟩
      exact sameSmu

/-- Settles O6: the SMU's function has no access to the device, and a tap frame leaves only the tap crossing. -/
theorem smuChangesNothingOfTheDevice : Obligations.SmuChangesNothingOfTheDevice := by
  unfold Obligations.SmuChangesNothingOfTheDevice
  intro c s t hc h
  obtain isSmu | ⟨full, rfl⟩ := hc
  · obtain ⟨ok, f, acts⟩ := exec_of_smu isSmu
    obtain ⟨-, rfl⟩ := unitOk_eq_next ((acts s).symm.trans h)
    exact ⟨rfl, fun _ => rfl⟩
  · refine ⟨?_, nofun⟩
    cases tap : s.dev.tap with
    | nil =>
      obtain rfl := Host.Outcome.next.inj ((smuTapFrame_of_empty tap full).symm.trans h)
      rfl
    | cons f rest =>
      obtain rfl := Host.Outcome.next.inj ((smuTapFrame_of_frame tap full).symm.trans h)
      rfl

/-- Settles O9: only commands of the device have an island that can be held, and there they run without effect. -/
theorem heldIslandTakesNoCommand : Obligations.HeldIslandTakesNoCommand := by
  unfold Obligations.HeldIslandTakesNoCommand
  intro c s wf isHeld
  cases commandShape c with
  | device ok f _ unitExists acts => rw [acts, State.runAt_held isHeld, unitExists wf, unitOk_true]
  | smu ok f isSmu _ => exact nomatch (congrArg (held s.dev) isSmu).symm.trans isHeld
  | tapFrame | mirrorUpdate | appendArrive | porstFall | powerOnReset | tapReset => exact nomatch isHeld

/-- Settles O2: an idle step is a tick of both clocks, and neither clock touches memory or a device whose PORST_N is low. -/
theorem idleStepAdvancesTime : Obligations.IdleStepAdvancesTime := by
  unfold Obligations.IdleStepAdvancesTime
  intro s idle
  exact ⟨s.tick, step_of_idle idle, rfl, idle, rfl, s.dev.tickAll_mem, s.dev.tickAll_down⟩

end

section
/-! SUPPORT. The lane commands (R64, R69 to R72, R75 to R79, R83): how a lane's fields stand apart in its registers, and what each
change of a lane's state leaves in LANE.STATE, in the fields beside it and in the lane. -/
namespace Sys2Proof.Machine
open Sys2Proof.Safety

/-! ### Fields that stand apart -/

/-- Two fields share no bit: they lie in registers at different addresses, or in disjoint bits of one register. -/
def RF.Apart (f g : RF) : Prop :=
  f.reg.addr ≠ g.reg.addr ∨ (f.reg = g.reg ∧ g.hi < 64 ∧ (f.hi < g.lo ∨ g.hi < f.lo))

theorem Dev.get_put_of_apart (d : Dev) {f g : RF} (h : f.Apart g) (v : Nat) : (d.put f v).get g = d.get g := by
  rcases h with addr | ⟨reg, fits, bits⟩
  · exact d.get_put_other f g v addr
  · exact d.get_put_apart f g v reg fits bits

/-- Fields of one lane are apart when their offsets differ or their bits do (R84). -/
theorem RF.Apart.sameLane {n a b w w' r r' hi lo hi' lo' : Nat}
    (h : a ≠ b ∨ ((w = w' ∧ r = r') ∧ hi' < 64 ∧ (hi < lo' ∨ hi' < lo))) :
    RF.Apart ⟨⟨a + n * 0x1000, w, r⟩, hi, lo⟩ ⟨⟨b + n * 0x1000, w', r'⟩, hi', lo'⟩ := by
  by_cases hab : a = b
  · obtain ⟨⟨rfl, rfl⟩, bits⟩ := h.resolve_left (not_not_intro hab)
    exact .inr ⟨by rw [hab], bits⟩
  · exact .inl fun e => hab (Nat.add_right_cancel e)

/-- Fields of two lanes are apart: each lane has a block of 0x1000 addresses (R84). -/
theorem RF.Apart.otherLane {n m a b w w' r r' hi lo hi' lo' : Nat} (hnm : n ≠ m) (h : a / 0x1000 = b / 0x1000) :
    RF.Apart ⟨⟨a + n * 0x1000, w, r⟩, hi, lo⟩ ⟨⟨b + m * 0x1000, w', r'⟩, hi', lo'⟩ :=
  .inl fun (e : a + n * 0x1000 = b + m * 0x1000) => by omega

/-! ### Reading a lane and its fields -/

theorem Dev.put_lane (d : Dev) (f : RF) (v n : Nat) : (d.put f v).lane n = d.lane n := by rw [Dev.lane, Dev.put_lanes, Dev.lane]

theorem Dev.irqSettle_lane (d : Dev) (n : Nat) : d.irqSettle.lane n = d.lane n := by rw [Dev.lane, Dev.irqSettle_lanes, Dev.lane]

theorem Dev.event_get (d : Dev) (f : RF) (i : Nat) (args : List Nat) (g : RF) : (d.event f i args).get g = d.get g := rfl

theorem Dev.updTx_lane (d : Dev) (n : Nat) (f : LaneTx → LaneTx) :
    (d.updTx n f).lane n = { d.lane n with tx := f (d.lane n).tx } := Dev.updLane_same d n _

theorem Dev.updRx_lane (d : Dev) (n : Nat) (f : LaneRx → LaneRx) :
    (d.updRx n f).lane n = { d.lane n with rx := f (d.lane n).rx } := Dev.updLane_same d n _

theorem Dev.updTrn_lane (d : Dev) (n : Nat) (f : LaneTrn → LaneTrn) :
    (d.updTrn n f).lane n = { d.lane n with trn := f (d.lane n).trn } := Dev.updLane_same d n _

theorem Dev.updPrbs_lane (d : Dev) (n : Nat) (f : LanePrbs → LanePrbs) :
    (d.updPrbs n f).lane n = { d.lane n with prbs := f (d.lane n).prbs } := Dev.updLane_same d n _

theorem Dev.is_put_one (d : Dev) {f : RF} (h : f.hi < 64) (one : f.hi = f.lo) : (d.put f 1).is f = true := by
  simp [Dev.is, Dev.get_put_same _ _ _ h, one]

theorem Dev.is_put_zero (d : Dev) {f : RF} (h : f.hi < 64) : (d.put f 0).is f = false := by
  simp [Dev.is, Dev.get_put_same _ _ _ h]

theorem Dev.is_put_of_apart (d : Dev) {f g : RF} (h : f.Apart g) (v : Nat) : (d.put f v).is g = d.is g := by
  rw [Dev.is, Dev.is, d.get_put_of_apart h]

theorem Dev.laneState_put_of_apart (d : Dev) {f : RF} {n : Nat} (h : f.Apart (F.LANE_STATE_STATE n)) (v : Nat) :
    (d.put f v).laneState n = d.laneState n := d.get_put_of_apart h v

theorem Dev.settleRx_empty {d : Dev} {n : Nat} (h : (d.lane n).rx.buf = []) (fuel : Nat) : d.settleRx n fuel = d := by
  cases fuel with
  | zero => rfl
  | succ fuel => rw [Dev.settleRx, h]

/-! ### The change of LANE.STATE.STATE (R75) -/

theorem Dev.setLaneState_of_not_up {d : Dev} {n : Nat} (h : d.laneState n ≠ stUp) (st : Nat) :
    d.setLaneState n st = (d.put (F.LANE_STATE_STATE n) st).put (F.LANE_CTRL_TRAIN n) (b2n (st == stTraining)) := by
  rw [Dev.setLaneState, if_neg (by simp [h])]

/-- A change of state, leaving UP included, writes LANE.STATE.STATE, RX_LOCK and LANE.CTRL.TRAIN alone. -/
theorem Dev.setLaneState_get (d : Dev) (n st : Nat) {f : RF} (lock : (F.LANE_STATE_RX_LOCK n).Apart f)
    (state : (F.LANE_STATE_STATE n).Apart f) (train : (F.LANE_CTRL_TRAIN n).Apart f) : (d.setLaneState n st).get f = d.get f := by
  rw [Dev.setLaneState, Dev.get_put_of_apart _ train, Dev.get_put_of_apart _ state]
  split
  · exact Dev.get_put_of_apart _ lock 0
  · rfl

theorem Dev.setLaneState_laneState (d : Dev) (n : Nat) {st : Nat} (h : st < 8) : (d.setLaneState n st).laneState n = st := by
  have stored (e : Dev) : (e.put (F.LANE_STATE_STATE n) st).laneState n = st :=
    (e.get_put_same (F.LANE_STATE_STATE n) st (by decide : 2 < 64)).trans (Nat.mod_eq_of_lt h)
  rw [Dev.setLaneState, Dev.laneState_put_of_apart (f := F.LANE_CTRL_TRAIN n) _ (.sameLane (by decide)), stored]

theorem Dev.setLaneState_mem (d : Dev) (n st : Nat) : (d.setLaneState n st).mem = d.mem := by
  rw [Dev.setLaneState]
  split <;> rfl

/-! ### The end of a training (R71, R72) -/

theorem Dev.endTraining_get (d : Dev) (n res : Nat) {f : RF} (result : (F.LANE_TRN_RESULT n).Apart f)
    (duration : (F.LANE_TRN_DURATION n).Apart f) : (d.endTraining n res).get f = d.get f := by
  rw [Dev.endTraining, Dev.updTrn_get, Dev.putSat, Dev.get_put_of_apart _ duration, Dev.get_put_of_apart _ result]

theorem Dev.endTraining_mem (d : Dev) (n res : Nat) : (d.endTraining n res).mem = d.mem := rfl

theorem Dev.endTraining_rx (d : Dev) (n res : Nat) : ((d.endTraining n res).lane n).rx = (d.lane n).rx := by
  rw [Dev.endTraining, Dev.updTrn_lane]
  rfl

/-- What starts or disables a lane ends a training in progress first, ABORTED; that writes LANE.TRN alone. -/
theorem Dev.abortTraining_get (d : Dev) (n : Nat) {f : RF} (result : (F.LANE_TRN_RESULT n).Apart f)
    (duration : (F.LANE_TRN_DURATION n).Apart f) :
    (if d.laneState n = stTraining then d.endTraining n resAborted else d).get f = d.get f := by
  split
  · exact d.endTraining_get n resAborted result duration
  · rfl

/-- Going DOWN writes, after the change of state, RX_LOCK, TX_IDLE, the event and the count of a failed training. -/
theorem Dev.laneDown_get (d : Dev) (n : Nat) {f : RF} (lock : (F.LANE_STATE_RX_LOCK n).Apart f) (idle : (F.LANE_STATE_TX_IDLE n).Apart f)
    (fail : (F.LANE_EVENTS_TRAIN_FAIL n).Apart f) (count : (F.LANE_LINK_CNT_TRAIN_FAIL n).Apart f) :
    (d.laneDown n).get f = (d.setLaneState n stDown).get f := by
  rw [Dev.laneDown, Dev.event_get, Dev.bump, Dev.get_put_of_apart _ count, Dev.flag, Dev.get_put_of_apart _ fail,
    Dev.get_put_of_apart _ idle, Dev.get_put_of_apart _ lock, Dev.updRx_get, Dev.updTx_get]

theorem Dev.laneDown_laneState (d : Dev) (n : Nat) : (d.laneDown n).laneState n = stDown :=
  (d.laneDown_get n (.sameLane (by decide)) (.sameLane (by decide)) (.sameLane (by decide)) (.sameLane (by decide))).trans
    (d.setLaneState_laneState n (by decide))

theorem Dev.trainFail_laneState (d : Dev) (n res : Nat) : (d.trainFail n res).laneState n = stDown :=
  (d.endTraining n res).laneDown_laneState n

/-- A failed training shows its result: DURATION stands beside it, and going DOWN leaves LANE.TRN. -/
theorem Dev.trainFail_result (d : Dev) (n : Nat) {res : Nat} (h : res < 8) : (d.trainFail n res).get (F.LANE_TRN_RESULT n) = res := by
  have stored : (d.endTraining n res).get (F.LANE_TRN_RESULT n) = res := by
    rw [Dev.endTraining, Dev.updTrn_get, Dev.putSat,
      Dev.get_put_of_apart (f := F.LANE_TRN_DURATION n) (g := F.LANE_TRN_RESULT n) _ (.sameLane (by decide)),
      Dev.get_put_same _ _ _ (by decide : 31 < 64)]
    exact Nat.mod_eq_of_lt (by omega : res < 2 ^ 4)
  rw [Dev.trainFail,
    Dev.laneDown_get _ n (f := F.LANE_TRN_RESULT n) (.sameLane (by decide)) (.sameLane (by decide)) (.sameLane (by decide))
      (.sameLane (by decide)),
    Dev.setLaneState_get _ n _ (f := F.LANE_TRN_RESULT n) (.sameLane (by decide)) (.sameLane (by decide)) (.sameLane (by decide)),
    stored]

/-! ### DISABLE (R75) -/

/-- DISABLE writes, after the change of state, RX_LOCK, TX_IDLE and the three fields of the PRBS. -/
theorem Dev.laneDisable_get (d : Dev) (n : Nat) {f : RF} (lock : (F.LANE_STATE_RX_LOCK n).Apart f) (idle : (F.LANE_STATE_TX_IDLE n).Apart f)
    (gen : (F.LANE_PRBS_CTRL_GEN_EN n).Apart f) (chk : (F.LANE_PRBS_CTRL_CHK_EN n).Apart f)
    (chkLock : (F.LANE_PRBS_CTRL_CHK_LOCK n).Apart f) :
    (d.laneDisable n).get f =
      ((if d.laneState n = stTraining then d.endTraining n resAborted else d).setLaneState n stDisabled).get f := by
  rw [Dev.laneDisable, Dev.get_put_of_apart _ chkLock, Dev.get_put_of_apart _ chk, Dev.get_put_of_apart _ gen,
    Dev.get_put_of_apart _ idle, Dev.get_put_of_apart _ lock, Dev.updRx_get, Dev.updTx_get]

theorem Dev.laneDisable_laneState (d : Dev) (n : Nat) : (d.laneDisable n).laneState n = stDisabled :=
  (d.laneDisable_get n (.sameLane (by decide)) (.sameLane (by decide)) (.sameLane (by decide)) (.sameLane (by decide))
    (.sameLane (by decide))).trans (Dev.setLaneState_laneState _ n (by decide))

theorem Dev.laneDisable_laneState_other (d : Dev) {n m : Nat} (h : n ≠ m) : (d.laneDisable n).laneState m = d.laneState m := by
  have apart {a w r hi lo : Nat} (block : a / 0x1000 = 0xf000800) : RF.Apart ⟨⟨a + n * 0x1000, w, r⟩, hi, lo⟩ (F.LANE_STATE_STATE m) :=
    .otherLane h block
  rw [Dev.laneState,
    d.laneDisable_get n (apart (by decide)) (apart (by decide)) (apart (by decide)) (apart (by decide)) (apart (by decide)),
    Dev.setLaneState_get _ n _ (apart (by decide)) (apart (by decide)) (apart (by decide)),
    d.abortTraining_get n (apart (by decide)) (apart (by decide)), Dev.laneState]

theorem Dev.laneDisable_rxLock (d : Dev) (n : Nat) : (d.laneDisable n).is (F.LANE_STATE_RX_LOCK n) = false := by
  rw [Dev.laneDisable,
    Dev.is_put_of_apart (f := F.LANE_PRBS_CTRL_CHK_LOCK n) (g := F.LANE_STATE_RX_LOCK n) _ (.sameLane (by decide)),
    Dev.is_put_of_apart (f := F.LANE_PRBS_CTRL_CHK_EN n) (g := F.LANE_STATE_RX_LOCK n) _ (.sameLane (by decide)),
    Dev.is_put_of_apart (f := F.LANE_PRBS_CTRL_GEN_EN n) (g := F.LANE_STATE_RX_LOCK n) _ (.sameLane (by decide)),
    Dev.is_put_of_apart (f := F.LANE_STATE_TX_IDLE n) (g := F.LANE_STATE_RX_LOCK n) _ (.sameLane (by decide)),
    Dev.is_put_zero _ (by decide : 4 < 64)]

theorem Dev.laneDisable_chkEn (d : Dev) (n : Nat) : (d.laneDisable n).is (F.LANE_PRBS_CTRL_CHK_EN n) = false := by
  rw [Dev.laneDisable,
    Dev.is_put_of_apart (f := F.LANE_PRBS_CTRL_CHK_LOCK n) (g := F.LANE_PRBS_CTRL_CHK_EN n) _ (.sameLane (by decide)),
    Dev.is_put_zero _ (by decide : 1 < 64)]

theorem Dev.laneDisable_genEn (d : Dev) (n : Nat) : (d.laneDisable n).is (F.LANE_PRBS_CTRL_GEN_EN n) = false := by
  rw [Dev.laneDisable,
    Dev.is_put_of_apart (f := F.LANE_PRBS_CTRL_CHK_LOCK n) (g := F.LANE_PRBS_CTRL_GEN_EN n) _ (.sameLane (by decide)),
    Dev.is_put_of_apart (f := F.LANE_PRBS_CTRL_CHK_EN n) (g := F.LANE_PRBS_CTRL_GEN_EN n) _ (.sameLane (by decide)),
    Dev.is_put_zero _ (by decide : 0 < 64)]

theorem Dev.laneDisable_driving (d : Dev) (n : Nat) : ((d.laneDisable n).lane n).tx.driving = false := by
  rw [Dev.laneDisable, Dev.put_lane, Dev.put_lane, Dev.put_lane, Dev.put_lane, Dev.put_lane, Dev.updRx_lane, Dev.updTx_lane]
  rfl

theorem Dev.laneDisable_mem (d : Dev) (n : Nat) : (d.laneDisable n).mem = d.mem := by
  rw [Dev.laneDisable, Dev.put_mem, Dev.put_mem, Dev.put_mem, Dev.put_mem, Dev.put_mem, Dev.updRx_mem, Dev.updTx_mem,
    Dev.setLaneState_mem]
  split
  · exact d.endTraining_mem n resAborted
  · rfl

theorem Dev.laneDisable_rdByte (d : Dev) (n a : Nat) : (d.laneDisable n).rdByte a = d.rdByte a := by
  rw [Dev.rdByte, d.laneDisable_mem n, Dev.rdByte]

/-- A lane that is not UP opens nothing for the receive half to end: its elastic buffer stays. -/
theorem Dev.laneDisable_buf {d : Dev} {n : Nat} (h : d.laneState n ≠ stUp) :
    ((d.laneDisable n).lane n).rx.buf = (d.lane n).rx.buf := by
  have notUp : (if d.laneState n = stTraining then d.endTraining n resAborted else d).laneState n ≠ stUp := by
    rwa [Dev.laneState, d.abortTraining_get n (f := F.LANE_STATE_STATE n) (.sameLane (by decide)) (.sameLane (by decide))]
  have sameRx : ((if d.laneState n = stTraining then d.endTraining n resAborted else d).lane n).rx = (d.lane n).rx := by
    split
    · exact d.endTraining_rx n resAborted
    · rfl
  rw [Dev.laneDisable, Dev.put_lane, Dev.put_lane, Dev.put_lane, Dev.put_lane, Dev.put_lane, Dev.updRx_lane, Dev.updTx_lane,
    Dev.setLaneState_of_not_up notUp, Dev.put_lane, Dev.put_lane, ← sameRx]
  rfl

/-! ### HUNT (R75, R77) -/

theorem Dev.enterHunt_laneState (d : Dev) (n : Nat) : (d.enterHunt n).laneState n = stHunt := by
  rw [Dev.laneState, Dev.enterHunt, Dev.updRx_get, Dev.bump,
    Dev.get_put_of_apart (f := F.LANE_LINK_CNT_LOCK_LOSS n) (g := F.LANE_STATE_STATE n) _ (.sameLane (by decide)), Dev.flag,
    Dev.get_put_of_apart (f := F.LANE_EVENTS_LOCK_LOST n) (g := F.LANE_STATE_STATE n) _ (.sameLane (by decide)),
    Dev.get_put_of_apart (f := F.LANE_STATE_RX_LOCK n) (g := F.LANE_STATE_STATE n) _ (.sameLane (by decide))]
  exact d.setLaneState_laneState n (by decide)

/-! ### How a lane command acts -/

section
variable {c : Instr} {s : State} {n : Nat} {f : Dev → Dev} {e : Dev}

theorem lane_run_acts (hn : n < 96) (h : up s) (hc : exec c s = unitOk (decide (n < 96)) (s.run f)) (he : f s.dev = e) : Acts c s e := by
  rw [Acts, hc, decide_eq_true hn, unitOk_true, State.run_of_up h, he]

theorem lane_runIng_acts (hn : n < 96) (h : upIng s) (hc : exec c s = unitOk (decide (n < 96)) (s.runIng f)) (he : f s.dev = e) :
    Acts c s e := by
  rw [Acts, hc, decide_eq_true hn, unitOk_true, State.runIng_of_up h, he]

theorem lane_runEgr_acts (hn : n < 96) (h : upEgr s) (hc : exec c s = unitOk (decide (n < 96)) (s.runEgr f)) (he : f s.dev = e) :
    Acts c s e := by
  rw [Acts, hc, decide_eq_true hn, unitOk_true, State.runEgr_of_up h, he]

end

/-! ### What a lane command does, by the state of its lane -/

theorem Dev.laneTrain_starts {d : Dev} {n : Nat} (role : d.laneRole n ≠ roleUnused)
    (st : d.laneState n = stDisabled ∨ d.laneState n = stDown) :
    d.laneTrain n = d.startTraining n :=
  if_pos (by simpa [role] using st)

theorem Dev.laneTrain_ignored {d : Dev} {n : Nat}
    (h : d.laneRole n = roleUnused ∨ (d.laneState n ≠ stDisabled ∧ d.laneState n ≠ stDown)) : d.laneTrain n = d := by
  refine if_neg ?_
  rcases h with role | ⟨notDisabled, notDown⟩
  · simp [role]
  · simp [notDisabled, notDown]

theorem Dev.laneOff_eq_laneDisable {d : Dev} {n : Nat} (st : d.laneState n ≠ stUp) (buf : (d.lane n).rx.buf = []) :
    d.laneOff n = d.laneDisable n :=
  Dev.settleRx_empty ((Dev.laneDisable_buf st).trans buf) 64

theorem Dev.trainRequestTimeout_last {d : Dev} {n : Nat} (st : d.laneState n = stTraining) (pend : (d.lane n).trn.reqPend = true)
    (third : 2 ≤ (d.lane n).trn.unanswered) : d.trainRequestTimeout n = d.trainFail n resNoResponse := by
  rw [Dev.trainRequestTimeout, if_pos (by simp [st, pend]), if_pos (by omega)]

theorem Dev.trainRequestTimeout_again {d : Dev} {n : Nat} (st : d.laneState n = stTraining) (pend : (d.lane n).trn.reqPend = true)
    (few : (d.lane n).trn.unanswered < 2) :
    d.trainRequestTimeout n = d.updTrn n fun t => { t with unanswered := t.unanswered + 1 } := by
  rw [Dev.trainRequestTimeout, if_pos (by simp [st, pend]), if_neg (by omega)]

theorem Dev.pllUnlock_training {d : Dev} {n : Nat} (lock : d.is (F.LANE_STATE_PLL_LOCK n) = true) (st : d.laneState n = stTraining) :
    d.pllUnlock n = (((d.put (F.LANE_STATE_PLL_LOCK n) 0).flag (F.LANE_EVENTS_PLL_LOST n)).trainFail n resPll).settleRx n 64 := by
  have training : ((d.put (F.LANE_STATE_PLL_LOCK n) 0).flag (F.LANE_EVENTS_PLL_LOST n)).laneState n = stTraining := by
    rw [Dev.flag, Dev.laneState_put_of_apart (f := F.LANE_EVENTS_PLL_LOST n) _ (.sameLane (by decide)),
      Dev.laneState_put_of_apart (f := F.LANE_STATE_PLL_LOCK n) _ (.sameLane (by decide)), st]
  rw [Dev.pllUnlock, if_pos lock]
  exact congrArg (fun e => Dev.settleRx e n 64) (if_pos training)

end Sys2Proof.Machine
end

section
/-! PROOFS. The states of a lane and the commands that change them (R64, R69, R71, R72, R75, R76). -/
open Sys2Proof Sys2Proof.Machine Sys2Proof.Safety

/-- Settles O22: what each command does by the state of its lane, and what DISABLE and a failed training leave in the lane's fields. -/
theorem laneStateChanges : Obligations.LaneStateChanges := by
  unfold Obligations.LaneStateChanges
  intro s n hn hup d st t
  refine ⟨fun role idle => ?_, fun h => ?_, ⟨?_, fun notUp buf => ?_, d.laneDisable_laneState n, d.laneDisable_rxLock n,
    d.laneDisable_genEn n, d.laneDisable_chkEn n, d.laneDisable_driving n, fun m _ hm => d.laneDisable_laneState_other hm.symm,
    d.laneDisable_rdByte n⟩, fun training pend third => ?_, fun training pend few => ?_, fun training => ?_, fun hunt => ?_, ?_,
    fun lock training => ?_, fun res hres => ⟨d.trainFail_laneState n res, d.trainFail_result n hres⟩⟩
  · exact lane_runIng_acts hn hup rfl (Dev.laneTrain_starts role idle)
  · exact lane_runIng_acts hn hup rfl (Dev.laneTrain_ignored h)
  · exact lane_runIng_acts hn hup rfl rfl
  · exact lane_runIng_acts hn hup rfl (Dev.laneOff_eq_laneDisable notUp buf)
  · exact lane_runIng_acts hn hup rfl (Dev.trainRequestTimeout_last training pend third)
  · exact lane_runIng_acts hn hup rfl (Dev.trainRequestTimeout_again training pend few)
  · exact lane_runIng_acts hn hup rfl (if_pos training)
  · exact lane_runIng_acts hn hup rfl (if_pos hunt)
  · exact lane_run_acts hn hup.1 rfl rfl
  · exact lane_run_acts hn hup.1 rfl (Dev.pllUnlock_training lock training)

end

section
/-! SUPPORT. The transmit taps with which a training starts (R66, R67, R69). -/
namespace Sys2Proof.Machine

/-- The transmit taps that LANE.TX_EQ shows, as Dev.setTaps takes them. -/
def Dev.txTaps (d : Dev) (n : Nat) : Nat × Nat × Nat :=
  (d.get (F.LANE_TX_EQ_PRE n), d.get (F.LANE_TX_EQ_MAIN n), d.get (F.LANE_TX_EQ_POST n))

theorem Dev.txTaps_updLane (d : Dev) (n m : Nat) (f : LaneSt → LaneSt) : (d.updLane m f).txTaps n = d.txTaps n := by
  rw [Dev.txTaps, Dev.updLane_get, Dev.updLane_get, Dev.updLane_get, Dev.txTaps]

theorem Dev.txTaps_setTaps (d : Dev) (n : Nat) {t : Nat × Nat × Nat} (pre : t.1 < 64) (main : t.2.1 < 64) (post : t.2.2 < 64) :
    (d.setTaps n t).txTaps n = t := by
  have put (e : Dev) (f : RF) {v : Nat} (fits : f.hi < 64) (wide : f.hi + 1 - f.lo = 6) (hv : v < 64) : (e.put f v).get f = v := by
    rw [e.get_put_same f v fits, wide]
    exact Nat.mod_eq_of_lt hv
  have hpre : (d.setTaps n t).get (F.LANE_TX_EQ_PRE n) = t.1 := by
    rw [Dev.setTaps, Dev.get_put_of_apart (f := F.LANE_TX_EQ_POST n) (g := F.LANE_TX_EQ_PRE n) _ (.sameLane (by decide)),
      Dev.get_put_of_apart (f := F.LANE_TX_EQ_MAIN n) (g := F.LANE_TX_EQ_PRE n) _ (.sameLane (by decide))]
    exact put d (F.LANE_TX_EQ_PRE n) (by decide : 13 < 64) rfl pre
  have hmain : (d.setTaps n t).get (F.LANE_TX_EQ_MAIN n) = t.2.1 := by
    rw [Dev.setTaps, Dev.get_put_of_apart (f := F.LANE_TX_EQ_POST n) (g := F.LANE_TX_EQ_MAIN n) _ (.sameLane (by decide))]
    exact put _ (F.LANE_TX_EQ_MAIN n) (by decide : 21 < 64) rfl main
  have hpost : (d.setTaps n t).get (F.LANE_TX_EQ_POST n) = t.2.2 := put _ (F.LANE_TX_EQ_POST n) (by decide : 29 < 64) rfl post
  rw [Dev.txTaps, hpre, hmain, hpost]

/-- The registers of one lane stand at different addresses (R84). -/
theorem laneReg_addr_ne {a b n : Nat} (h : a ≠ b) : a + n * 0x1000 ≠ b + n * 0x1000 := fun e => h (Nat.add_right_cancel e)

/-- A failed training leaves LANE.TX_EQ. -/
theorem Dev.trainFail_get_txEq (d : Dev) (n res : Nat) {f : RF} (h : f.reg = R.LANE_TX_EQ n) : (d.trainFail n res).get f = d.get f := by
  have apart {g : RF} (hg : g.reg.addr ≠ (R.LANE_TX_EQ n).addr) : g.Apart f := .inl (h ▸ hg)
  have state := apart (g := F.LANE_STATE_STATE n) (laneReg_addr_ne (by decide))
  have lock := apart (g := F.LANE_STATE_RX_LOCK n) (laneReg_addr_ne (by decide))
  rw [Dev.trainFail,
    Dev.laneDown_get _ n lock (apart (laneReg_addr_ne (by decide))) (apart (laneReg_addr_ne (by decide)))
      (apart (laneReg_addr_ne (by decide))),
    Dev.setLaneState_get _ n _ lock state (apart (laneReg_addr_ne (by decide))),
    Dev.endTraining_get _ n _ (apart (laneReg_addr_ne (by decide))) (apart (laneReg_addr_ne (by decide)))]

theorem Dev.trainFail_txTaps (d : Dev) (n res : Nat) : (d.trainFail n res).txTaps n = d.txTaps n := by
  rw [Dev.txTaps, d.trainFail_get_txEq n res rfl, d.trainFail_get_txEq n res rfl, d.trainFail_get_txEq n res rfl, Dev.txTaps]

theorem preset_lt (v : Nat) : (preset v).1 < 64 ∧ (preset v).2.1 < 64 ∧ (preset v).2.2 < 64 := by
  unfold preset
  split <;> decide

/-- Training starts at the preset that INIT_PRESET selects, whether or not it then fails for its PLL (R64, R67). -/
theorem Dev.startTraining_txTaps (d : Dev) (n : Nat) :
    (d.startTraining n).txTaps n = preset (d.get (F.LANE_TX_EQ_INIT_PRESET n)) := by
  unfold Dev.startTraining
  extract_lets aborted training seeking armed trn started
  have init : seeking.get (F.LANE_TX_EQ_INIT_PRESET n) = d.get (F.LANE_TX_EQ_INIT_PRESET n) := calc
    seeking.get (F.LANE_TX_EQ_INIT_PRESET n) = training.get (F.LANE_TX_EQ_INIT_PRESET n) :=
      (Dev.get_put_of_apart _ (f := F.LANE_STATE_RX_LOCK n) (.sameLane (by decide)) 0).trans
        (Dev.get_put_of_apart _ (f := F.LANE_STATE_PARTNER_READY n) (.sameLane (by decide)) 0)
    _ = aborted.get (F.LANE_TX_EQ_INIT_PRESET n) :=
      aborted.setLaneState_get n stTraining (.sameLane (by decide)) (.sameLane (by decide)) (.sameLane (by decide))
    _ = d.get (F.LANE_TX_EQ_INIT_PRESET n) := d.abortTraining_get n (.sameLane (by decide)) (.sameLane (by decide))
  obtain ⟨pre, main, post⟩ := preset_lt (seeking.get (F.LANE_TX_EQ_INIT_PRESET n))
  have taps : started.txTaps n = preset (d.get (F.LANE_TX_EQ_INIT_PRESET n)) := calc
    started.txTaps n = armed.txTaps n := armed.txTaps_updLane n n _
    _ = preset (seeking.get (F.LANE_TX_EQ_INIT_PRESET n)) := Dev.txTaps_setTaps _ n pre main post
    _ = preset (d.get (F.LANE_TX_EQ_INIT_PRESET n)) := congrArg preset init
  split
  · exact taps
  · exact (started.trainFail_txTaps n resPll).trans taps

/-- A flag outside LANE.TX_EQ, raised as training starts, leaves the preset that is selected. -/
theorem Dev.flag_startTraining_txTaps (d : Dev) (n : Nat) {f : RF} (h : f.Apart (F.LANE_TX_EQ_INIT_PRESET n)) :
    ((d.flag f).startTraining n).txTaps n = preset (d.get (F.LANE_TX_EQ_INIT_PRESET n)) := by
  rw [Dev.startTraining_txTaps, Dev.flag, d.get_put_of_apart h]

end Sys2Proof.Machine
end

section
/-! PROOFS. The preset of a training (R67). -/
open Sys2Proof Sys2Proof.Machine Sys2Proof.Safety

/-- Settles O60: every training starts by setting the taps of the preset, and settling the interrupts leaves them. -/
theorem trainingStartsAtTheSelectedPreset : Obligations.TrainingStartsAtTheSelectedPreset := by
  unfold Obligations.TrainingStartsAtTheSelectedPreset
  intro taps selected
  have selects (v : Nat) : preset v = selected v := by
    match v with
    | 0 | 1 | 2 | 3 | 4 => rfl
    | v + 5 => simp [preset, selected]
  have starts (d : Dev) (n v : Nat) (h : d.txTaps n = preset v) : taps d.irqSettle n = selected v := h.trans (selects v)
  refine ⟨fun d n => ?_, fun s n hn hup role idle => ⟨_, lane_runIng_acts hn hup rfl (Dev.laneTrain_starts role idle), ?_⟩,
    fun s n hn hup hunt => ⟨_, lane_runIng_acts hn hup rfl (if_pos hunt), ?_⟩,
    fun s n hn hup wake => ⟨_, lane_runIng_acts hn hup rfl (if_pos wake), ?_⟩⟩
  · exact (d.startTraining_txTaps n).trans (selects _)
  · exact starts _ n _ (s.dev.startTraining_txTaps n)
  · exact starts _ n _ (s.dev.flag_startTraining_txTaps n (.sameLane (by decide)))
  · exact starts _ n _ (s.dev.flag_startTraining_txTaps n (.sameLane (by decide)))

end

section
/-! SUPPORT. Electrical idle: signal, idle entry and wake (R77 to R79). -/
namespace Sys2Proof.Machine
open Sys2Proof.Safety

/-! ### The receiver: SIGNAL_DETECT and LOSS_OF_SIGNAL -/

theorem Dev.laneState_flag_signal (d : Dev) (n : Nat) : (d.flag (F.LANE_STATE_SIGNAL n)).laneState n = d.laneState n :=
  d.laneState_put_of_apart (.sameLane (by decide)) 1

theorem Dev.signalDetect_wakes {d : Dev} {n : Nat} (st : d.laneState n = stElecIdle) (short : d.ticks - (d.lane n).rx.idleAt < tenMs) :
    d.signalDetect n = ((d.flag (F.LANE_STATE_SIGNAL n)).setLaneState n stWake).updRx n LaneRx.begin_ := by
  refine (if_pos ((d.laneState_flag_signal n).trans st)).trans (if_neg ?_)
  rw [Dev.flag, Dev.put_lane, Dev.put_ticks, decide_eq_true_eq]
  omega

theorem Dev.signalDetect_trains {d : Dev} {n : Nat} (st : d.laneState n = stElecIdle) (long : tenMs ≤ d.ticks - (d.lane n).rx.idleAt) :
    d.signalDetect n = ((((d.flag (F.LANE_STATE_SIGNAL n)).setLaneState n stWake).updRx n LaneRx.begin_).flag
      (F.LANE_EVENTS_SLOW_WAKE n)).startTraining n := by
  refine (if_pos ((d.laneState_flag_signal n).trans st)).trans (if_pos ?_)
  rw [Dev.flag, Dev.put_lane, Dev.put_ticks]
  exact decide_eq_true long

theorem Dev.signalDetect_shows {d : Dev} {n : Nat} (st : d.laneState n ≠ stElecIdle) : d.signalDetect n = d.flag (F.LANE_STATE_SIGNAL n) :=
  if_neg (by rwa [d.laneState_flag_signal n])

theorem Dev.lossOfSignal_idle {d : Dev} {n : Nat} (flag : (d.lane n).rx.idleFlag = true) :
    d.lossOfSignal n = d.put (F.LANE_STATE_SIGNAL n) 0 :=
  if_pos (by rwa [Dev.put_lane])

theorem Dev.lossOfSignal_hunts {d : Dev} {n : Nat} (flag : (d.lane n).rx.idleFlag = false) (isUp : d.laneUp n = true) :
    d.lossOfSignal n = ((d.put (F.LANE_STATE_SIGNAL n) 0).enterHunt n).settleRx n 64 := by
  refine (if_neg ?_).trans (if_pos ?_)
  · rw [Dev.put_lane, flag]
    exact Bool.false_ne_true
  · rwa [Dev.laneUp, Dev.laneState_put_of_apart (f := F.LANE_STATE_SIGNAL n) _ (.sameLane (by decide))]

/-! ### The transmitter: TX_IDLE_ENTRY and TX_WAKE -/

/-- Idle entry shows TX_IDLE and leaves a transmit half that drives nothing, idle from now on. -/
theorem Dev.txIdleEntry_idles {d : Dev} {n : Nat} (req : d.is (F.LANE_CTRL_IDLE_REQ n) = true) (empty : (d.lane n).tx.empty = true)
    (isUp : d.laneUp n = true) (busy : d.is (F.LANE_STATE_TX_IDLE n) = false) :
    ∃ tx : LaneTx,
      d.txIdleEntry n = (d.flag (F.LANE_STATE_TX_IDLE n)).updTx n (fun _ => tx) ∧ tx.driving = false ∧ tx.idleTick = d.ticks :=
  ⟨_, if_pos (by rw [req, empty, isUp, busy]; rfl), rfl, rfl⟩

/-- A transmit half idle outside TEST, asked to idle no longer, has cause to wake. -/
theorem Dev.txWake_cause {d : Dev} {n : Nat} (idle : d.is (F.LANE_STATE_TX_IDLE n) = true) (req : d.is (F.LANE_CTRL_IDLE_REQ n) = false)
    (st : d.laneState n ≠ stTest) : d.txWake n =
      if d.ticks - (d.lane n).tx.idleTick < tenMs then
        (d.put (F.LANE_STATE_TX_IDLE n) 0).updTx n fun t => { t.restart with wake := some 0 }
      else ((d.flag (F.LANE_EVENTS_SLOW_WAKE n)).startTraining n).settleRx n 64 :=
  if_pos (by simp [idle, req, st])

theorem Dev.txWake_bursts {d : Dev} {n : Nat} (idle : d.is (F.LANE_STATE_TX_IDLE n) = true) (req : d.is (F.LANE_CTRL_IDLE_REQ n) = false)
    (st : d.laneState n ≠ stTest) (short : d.ticks - (d.lane n).tx.idleTick < tenMs) :
    d.txWake n = (d.put (F.LANE_STATE_TX_IDLE n) 0).updTx n fun t => { t.restart with wake := some 0 } :=
  (Dev.txWake_cause idle req st).trans (if_pos short)

theorem Dev.txWake_trains {d : Dev} {n : Nat} (idle : d.is (F.LANE_STATE_TX_IDLE n) = true) (req : d.is (F.LANE_CTRL_IDLE_REQ n) = false)
    (st : d.laneState n ≠ stTest) (long : tenMs ≤ d.ticks - (d.lane n).tx.idleTick) :
    d.txWake n = ((d.flag (F.LANE_EVENTS_SLOW_WAKE n)).startTraining n).settleRx n 64 :=
  (Dev.txWake_cause idle req st).trans (if_neg (by omega))

theorem Dev.txWake_stays {d : Dev} {n : Nat} (h : d.is (F.LANE_STATE_TX_IDLE n) = false ∨ d.laneState n = stTest) : d.txWake n = d := by
  refine if_neg ?_
  rcases h with busy | test
  · simp [busy]
  · simp [test]

end Sys2Proof.Machine
end

section
/-! PROOFS. Idle and wake (R75, R77 to R79). -/
open Sys2Proof Sys2Proof.Machine Sys2Proof.Safety

/-- Settles O23: the receive commands by the state of the lane and the length of its idle, then the transmit commands. -/
theorem laneIdleAndWake : Obligations.LaneIdleAndWake := by
  unfold Obligations.LaneIdleAndWake
  intro s n hn hup d l
  refine ⟨fun ing => ⟨fun st short => ?_, fun st long => ?_, fun st => ?_, fun flag => ?_, fun flag isUp => ?_, fun wake => ?_,
    d.enterHunt_laneState n⟩,
    fun egr => ⟨fun req empty isUp busy => ?_, fun idle req st short => ?_, fun idle req st long => ?_, fun h => ?_⟩⟩
  · exact lane_runIng_acts hn ⟨hup, ing⟩ rfl (Dev.signalDetect_wakes st short)
  · exact lane_runIng_acts hn ⟨hup, ing⟩ rfl (Dev.signalDetect_trains st long)
  · exact lane_runIng_acts hn ⟨hup, ing⟩ rfl (Dev.signalDetect_shows st)
  · exact lane_runIng_acts hn ⟨hup, ing⟩ rfl (Dev.lossOfSignal_idle flag)
  · exact lane_runIng_acts hn ⟨hup, ing⟩ rfl (Dev.lossOfSignal_hunts flag isUp)
  · exact lane_runIng_acts hn ⟨hup, ing⟩ rfl (if_pos wake)
  · obtain ⟨tx, idles, quiet, since⟩ := Dev.txIdleEntry_idles req empty isUp busy
    have lane : ((d.flag (F.LANE_STATE_TX_IDLE n)).updTx n fun _ => tx).irqSettle.lane n = { d.lane n with tx := tx } := by
      rw [Dev.irqSettle_lane, Dev.updTx_lane, Dev.flag, Dev.put_lane]
    refine ⟨_, lane_runEgr_acts hn ⟨hup, egr⟩ rfl idles, d.is_put_one (by decide : 5 < 64) rfl, ?_, ?_, ?_, fun m hm => ?_⟩
    · exact (congrArg (fun l => l.tx.driving) lane).trans quiet
    · exact (congrArg (fun l => l.tx.idleTick) lane).trans since
    · exact congrArg (fun l => l.rx) lane
    · exact (Dev.irqSettle_lane _ m).trans ((Dev.updLane_other _ n _ m hm.symm).trans (d.put_lane _ 1 m))
  · exact lane_runEgr_acts hn ⟨hup, egr⟩ rfl (Dev.txWake_bursts idle req st short)
  · exact lane_runEgr_acts hn ⟨hup, egr⟩ rfl (Dev.txWake_trains idle req st long)
  · exact lane_runEgr_acts hn ⟨hup, egr⟩ rfl (Dev.txWake_stays h)

end

section
/-! SUPPORT. The lock of a PRBS checker (R83). -/
namespace Sys2Proof.Machine

/-- A checker that locks shows CHK_LOCK and changes nothing else: its window of errors stays. -/
theorem Dev.prbsLock_shows {d : Dev} {n : Nat} (st : d.laneState n = stTest) (chk : d.is (F.LANE_PRBS_CTRL_CHK_EN n) = true)
    (open_ : d.is (F.LANE_PRBS_CTRL_CHK_LOCK n) = false) (matched : (d.lane n).prbs.matched = 64) :
    d.prbsLock n = d.flag (F.LANE_PRBS_CTRL_CHK_LOCK n) :=
  if_pos (by simp [st, chk, open_, matched])

/-- Lane 0 in TEST with a checker that has matched 64 bits and then took a bit in error, before PRBS_CHECKER_LOCK. -/
def errorBeforeLock : Dev :=
  ((State.reset.dev.put (F.LANE_STATE_STATE 0) stTest).put (F.LANE_PRBS_CTRL_CHK_EN 0) 1).updPrbs 0 fun p =>
    { p with matched := 64 }.check 0 false false true

/-- The error is the latest bit of the window. -/
theorem errorBeforeLock_window : (errorBeforeLock.lane 0).prbs.window.getLsbD 0 = true := by decide +kernel

end Sys2Proof.Machine
end

section
/-! PROOFS. The PRBS commands (R83). -/
open Sys2Proof Sys2Proof.Machine Sys2Proof.Safety

/-- Refutes O24: PRBS_CHECKER_LOCK does not clear the window. From the 64th matching bit on the checker shifts each bit's error into
its window, so an error between that bit and the command is in the window and stays there; the statement has the window 0. -/
theorem not_prbsCommandsAct : ¬ Obligations.PrbsCommandsAct := by
  unfold Obligations.PrbsCommandsAct
  intro h
  let s : State := { State.reset with dev := errorBeforeLock }
  have hup : upIng s := ⟨by decide +kernel, by decide +kernel⟩
  have st : s.dev.laneState 0 = stTest := by decide +kernel
  have chk : s.dev.is (F.LANE_PRBS_CTRL_CHK_EN 0) = true := by decide +kernel
  have open_ : s.dev.is (F.LANE_PRBS_CTRL_CHK_LOCK 0) = false := by decide +kernel
  have matched : (s.dev.lane 0).prbs.matched = 64 := by decide +kernel
  obtain ⟨-, -, -, lock, -⟩ := h s 0 (by decide) hup
  have claimed := lock st chk open_ matched
  have actual : Acts (.prbsCheckerLock 0) s (s.dev.flag (F.LANE_PRBS_CTRL_CHK_LOCK 0)) :=
    lane_runIng_acts (by decide : 0 < 96) hup rfl (Dev.prbsLock_shows st chk open_ matched)
  have same := congrArg (fun t : State => (t.dev.lane 0).prbs.window.getLsbD 0) (Host.Outcome.next.inj (actual.symm.trans claimed))
  dsimp only at same
  rw [Dev.irqSettle_lane, Dev.irqSettle_lane, Dev.updPrbs_lane, Dev.flag, Dev.put_lane, errorBeforeLock_window] at same
  exact nomatch same.trans BitVec.getLsbD_zero

end

section
/-! SUPPORT. A block on the line: what the receive half recovers of the transmit half's scrambling, stuffing and bit order (R85, R87, R88,
R90, R91). -/
namespace Sys2Proof.Machine

/-! ### Bits of a number -/

@[simp] theorem toBits_length (n v : Nat) : (toBits n v).length = n := by
  induction n generalizing v with
  | zero => rfl
  | succ n ih => rw [toBits, List.length_cons, ih]

theorem ofBits_toBits (n v : Nat) : ofBits (toBits n v) = v % 2 ^ n := by
  induction n generalizing v with
  | zero => rw [toBits, ofBits, Nat.pow_zero, Nat.mod_one]
  | succ n ih =>
    have low : b2n (v % 2 == 1) = v % 2 := by
      rcases Nat.mod_two_eq_zero_or_one v with h | h <;> rw [h] <;> rfl
    rw [toBits, ofBits, ih, low, Nat.pow_succ', Nat.mod_mul]

/-- A payload is the number that its 256 bits spell. -/
theorem payload_ofBits (p : Payload) : BitVec.ofNat 256 (ofBits (toBits 256 p.toNat)) = p := by
  rw [ofBits_toBits, Nat.mod_eq_of_lt p.isLt, BitVec.ofNat_toNat, BitVec.setWidth_eq]

/-! ### Scrambler (R88) -/

@[simp] theorem scramble_length (q : BitVec 58) (bs : List Bool) : (scramble q bs).1.length = bs.length := by
  induction bs generalizing q with
  | nil => rfl
  | cons b bs ih => rw [scramble, List.length_cons, ih, List.length_cons]

/-- The descrambler takes in the bit that the scrambler sent, so both go to the same state. -/
theorem descrambleBit_scrambleBit (q : BitVec 58) (b : Bool) : descrambleBit q (scrambleBit q b).1 = (b, (scrambleBit q b).2) := by
  have undo : ∀ b x y : Bool, (b ^^ x ^^ y ^^ x ^^ y) = b := by decide
  simp only [descrambleBit, scrambleBit, undo]

/-- A descrambler in the scrambler's state gives back the bits and ends in the scrambler's state. -/
theorem descramble_scramble (q : BitVec 58) (bs : List Bool) : descramble q (scramble q bs).1 = (bs, (scramble q bs).2) := by
  induction bs generalizing q with
  | nil => rfl
  | cons b bs ih => rw [scramble, descramble, descrambleBit_scrambleBit, ih]

/-! ### Stuffing (R90) -/

/-- The length of the run of identical bits that bit b ends, after a run of c bits v. -/
def runAfter (v : Bool) (c : Nat) (b : Bool) : Nat := if b = v && c ≠ 0 then c + 1 else 1

theorem runAfter_le {v b : Bool} {c : Nat} (h : c < 40) : runAfter v c b ≤ 40 := by
  unfold runAfter
  split <;> omega

theorem stuff_cons_full {v b : Bool} {c : Nat} (h : runAfter v c b = 40) (bs : List Bool) :
    stuff v c (b :: bs) = (b :: (!b) :: (stuff (!b) 1 bs).1, (stuff (!b) 1 bs).2) := by
  rw [stuff]
  exact if_pos h

theorem stuff_cons_short {v b : Bool} {c : Nat} (h : runAfter v c b ≠ 40) (bs : List Bool) :
    stuff v c (b :: bs) = (b :: (stuff b (runAfter v c b) bs).1, (stuff b (runAfter v c b) bs).2) := by
  rw [stuff]
  exact if_neg h

/-- Bits are stuffed one after another, the run carried along. -/
theorem stuff_append (v : Bool) (c : Nat) (as bs : List Bool) :
    stuff v c (as ++ bs) =
      ((stuff v c as).1 ++ (stuff (stuff v c as).2.1 (stuff v c as).2.2 bs).1, (stuff (stuff v c as).2.1 (stuff v c as).2.2 bs).2) := by
  induction as generalizing v c with
  | nil => rfl
  | cons a as ih =>
    by_cases full : runAfter v c a = 40
    · rw [List.cons_append, stuff_cons_full full, stuff_cons_full full, ih]
      rfl
    · rw [List.cons_append, stuff_cons_short full, stuff_cons_short full, ih]
      rfl

theorem stuff_count_lt {v : Bool} {c : Nat} (h : c < 40) (bs : List Bool) : (stuff v c bs).2.2 < 40 := by
  induction bs generalizing v c with
  | nil => exact h
  | cons b bs ih =>
    by_cases full : runAfter v c b = 40
    · rw [stuff_cons_full full]
      exact ih (by omega : 1 < 40)
    · rw [stuff_cons_short full]
      exact ih (Nat.lt_of_le_of_ne (runAfter_le h) full)

/-! ### A block as it is driven (R85, R87) -/

/-- The scrambled payload of a block that a transmit half drives. -/
def LaneTx.scrambled (x : LaneTx) (p : Payload) : List Bool := (scramble x.scr (toBits 256 p.toNat)).1

theorem LaneTx.scrambled_length (x : LaneTx) (p : Payload) : (x.scrambled p).length = 256 := by
  rw [LaneTx.scrambled, scramble_length, toBits_length]

/-- A descrambler in the scrambler's state gives back the payload and follows the scrambler. -/
theorem LaneTx.descramble_scrambled (x : LaneTx) (inv ctrl : Bool) (p : Payload) :
    descramble x.scr (x.scrambled p) = (toBits 256 p.toNat, (x.drive inv ctrl p).scr) := by
  rw [LaneTx.scrambled, descramble_scramble, LaneTx.drive]

theorem LaneTx.drive_line (x : LaneTx) (inv ctrl : Bool) (p : Payload) :
    (x.drive inv ctrl p).line = (stuff x.runV x.runC (ctrl :: (!ctrl) :: x.scrambled p)).1.map (· ^^ inv) := rfl

theorem LaneTx.drive_run (x : LaneTx) (inv ctrl : Bool) (p : Payload) :
    ((x.drive inv ctrl p).runV, (x.drive inv ctrl p).runC) = (stuff x.runV x.runC (ctrl :: (!ctrl) :: x.scrambled p)).2 := rfl

/-! ### The receive half of a locked lane (R91) -/

/-- The receive half expects a data bit, and no bit of the block collected so far was bad. -/
structure LaneRx.Clean (r : LaneRx) : Prop where
  short : r.runC < 40
  noViol : r.viol = false
  good : r.blkBad = false

/-- The receive half after line bits that arrive while the lane is locked; `inv` is RX_INV (R87). -/
def LaneRx.collect (r : LaneRx) (inv : Bool) (line : List Bool) : LaneRx := line.foldl (fun r b => (r.bit true (b ^^ inv)).1) r

theorem LaneRx.collect_append (r : LaneRx) (inv : Bool) (l m : List Bool) : r.collect inv (l ++ m) = (r.collect inv l).collect inv m :=
  List.foldl_append

/-- A bit driven with TX_INV arrives as it was (R87). -/
theorem LaneRx.collect_driven (r : LaneRx) (inv b : Bool) (l : List Bool) :
    r.collect inv ((b :: l).map (· ^^ inv)) = (r.bit true b).1.collect inv (l.map (· ^^ inv)) := by
  show LaneRx.collect (r.bit true (b ^^ inv ^^ inv)).1 inv _ = _
  rw [Bool.xor_assoc, Bool.xor_self, Bool.xor_false]

/-- A data bit joins the block and the run. -/
theorem LaneRx.bit_data {r : LaneRx} (h : r.Clean) (b : Bool) :
    (r.bit true b).1 = { r with runV := b, runC := runAfter r.runV r.runC b, bits := r.bits ++ [b] } := by
  obtain ⟨short, noViol, good⟩ := h
  rw [LaneRx.bit, if_neg (by omega : r.runC ≠ 40)]
  simp only [if_true, noViol, good, Bool.or_false, runAfter]

/-- After 40 identical bits the receive half removes the bit that follows, which differs. -/
theorem LaneRx.bit_stuff {r : LaneRx} {b : Bool} (value : r.runV = b) (count : r.runC = 40) :
    (r.bit true (!b)).1 = { r with runV := !b, runC := 1 } := by
  rw [LaneRx.bit, if_pos count, if_pos (by rw [value]; cases b <;> decide)]

/-- The receive half with a run as `stuff` carries it along. -/
def LaneRx.setRun (r : LaneRx) (run : Bool × Nat) : LaneRx := { r with runV := run.1, runC := run.2 }

/-- What follows a data bit on the line, the stuff bit of a full run or nothing, brings the run in step and is not collected. -/
theorem LaneRx.collect_afterBit (v b : Bool) (c : Nat) : ∃ rest, (stuff v c [b]).1 = b :: rest ∧
    ∀ (r : LaneRx) (inv : Bool), r.runV = b → r.runC = runAfter v c b →
      r.collect inv (rest.map (· ^^ inv)) = r.setRun (stuff v c [b]).2 := by
  by_cases full : runAfter v c b = 40
  · rw [stuff_cons_full full]
    exact ⟨[!b], rfl, fun r inv value count => (r.collect_driven inv (!b) []).trans (LaneRx.bit_stuff value (count.trans full))⟩
  · rw [stuff_cons_short full]
    exact ⟨[], rfl, fun r inv value count => by rw [stuff, ← count, ← value]; rfl⟩

/-- The receive half collects the bits that were stuffed, and its run is again the transmit half's. -/
theorem LaneRx.collect_stuff {r : LaneRx} (h : r.Clean) (inv : Bool) (bs : List Bool) :
    r.collect inv ((stuff r.runV r.runC bs).1.map (· ^^ inv)) =
      ({ r with bits := r.bits ++ bs } : LaneRx).setRun (stuff r.runV r.runC bs).2 := by
  induction bs generalizing r with
  | nil =>
    rw [List.append_nil]
    rfl
  | cons b bs ih =>
    obtain ⟨rest, line, after⟩ := LaneRx.collect_afterBit r.runV b r.runC
    have first : r.collect inv ((stuff r.runV r.runC [b]).1.map (· ^^ inv)) =
        ({ r with bits := r.bits ++ [b] } : LaneRx).setRun (stuff r.runV r.runC [b]).2 := by
      rw [line, LaneRx.collect_driven, LaneRx.bit_data h, after _ inv rfl rfl]
      rfl
    rw [← List.singleton_append, stuff_append, List.map_append, LaneRx.collect_append, first]
    refine (ih ?_).trans ?_
    · exact ⟨stuff_count_lt h.short [b], h.noViol, h.good⟩
    · rw [← List.append_assoc]
      rfl

/-! ### The receiver of a locked lane, bit by bit (R65, R92, R117) -/

theorem Dev.is_congr {d e : Dev} (h : e.regs = d.regs) (f : RF) : e.is f = d.is f := by
  rw [Dev.is, Dev.get, Dev.rdReg, h]
  rfl

/-- Lane n's receive half has become r, the time of the block's first bit aside, and no register has changed. -/
structure Dev.Received (d e : Dev) (n : Nat) (r : LaneRx) : Prop where
  regs : e.regs = d.regs
  rx : ∃ t, (e.lane n).rx = { r with t0 := t }

theorem LaneRx.collect_t0 (r : LaneRx) (t : Nat) (inv : Bool) (line : List Bool) :
    ({ r with t0 := t } : LaneRx).collect inv line = { r.collect inv line with t0 := t } := by
  induction line generalizing r with
  | nil => rfl
  | cons b line ih =>
    have first : (({ r with t0 := t } : LaneRx).bit true (b ^^ inv)).1 = { (r.bit true (b ^^ inv)).1 with t0 := t } := by
      simp only [LaneRx.bit, if_true]
      split
      · split <;> rfl
      · rfl
    show LaneRx.collect (({ r with t0 := t } : LaneRx).bit true (b ^^ inv)).1 inv line = _
    rw [first, ih]
    rfl

theorem Dev.Received.trans {d e g : Dev} {n : Nat} {r : LaneRx} {inv : Bool} {line : List Bool} (h : d.Received e n r)
    (h' : e.Received g n ((e.lane n).rx.collect inv line)) : d.Received g n (r.collect inv line) := by
  obtain ⟨t, first⟩ := h.rx
  obtain ⟨t', then_⟩ := h'.rx
  refine ⟨h'.regs.trans h.regs, t', ?_⟩
  rw [then_, first, LaneRx.collect_t0]

/-- A locked receiver slips no header. -/
theorem LaneRx.bit_locked_slips (r : LaneRx) (b : Bool) : (r.bit true b).2 = 0 := by
  rw [LaneRx.bit]
  split
  · split <;> rfl
  · rfl

theorem LaneRx.bit_bits_length (r : LaneRx) (b : Bool) : r.bits.length ≤ (r.bit true b).1.bits.length := by
  rw [LaneRx.bit]
  split
  · split <;> exact Nat.le_refl _
  · simp

theorem LaneRx.collect_bits_length (r : LaneRx) (inv : Bool) (line : List Bool) :
    r.bits.length ≤ (r.collect inv line).bits.length := by
  induction line generalizing r with
  | nil => exact Nat.le_refl _
  | cons b line ih => exact Nat.le_trans (r.bit_bits_length (b ^^ inv)) (ih _)

section
variable {d : Dev} {n : Nat}

theorem Dev.headerErrors_zero (d : Dev) (n : Nat) : d.headerErrors n 0 = d := rfl

/-- Lane n after a line bit has made its receive half r: the first bit of a block leaves its time (R117). -/
def Dev.takeBit (d : Dev) (n : Nat) (r : LaneRx) : Dev := d.updRx n fun _ => if r.bits.length = 1 then { r with t0 := d.time } else r

theorem Dev.takeBit_received (d : Dev) (n : Nat) (r : LaneRx) : d.Received (d.takeBit n r) n r := by
  refine ⟨rfl, ?_⟩
  rw [Dev.takeBit, Dev.updRx_lane]
  split
  · exact ⟨_, rfl⟩
  · exact ⟨_, rfl⟩

/-- The receive half takes one line bit, and a block that it completes is handled before the bits that follow. -/
theorem Dev.rxBits_cons (lock : d.is (F.LANE_STATE_RX_LOCK n) = true) (inv b : Bool) (line : List Bool) :
    d.rxBits n inv (b :: line) =
      (if 258 ≤ ((d.lane n).rx.collect inv [b]).bits.length then (d.takeBit n ((d.lane n).rx.collect inv [b])).blockDone n
        else d.takeBit n ((d.lane n).rx.collect inv [b])).rxBits n inv line := by
  rw [Dev.rxBits, lock, LaneRx.bit_locked_slips, Dev.headerErrors_zero]
  rfl

theorem Dev.rxBits_append (d : Dev) (n : Nat) (inv : Bool) (l m : List Bool) :
    d.rxBits n inv (l ++ m) = (d.rxBits n inv l).rxBits n inv m := by
  induction l generalizing d with
  | nil => rfl
  | cons b l ih => exact ih _

/-- Line bits that complete no block are collected, and nothing else happens. -/
theorem Dev.rxBits_partial (lock : d.is (F.LANE_STATE_RX_LOCK n) = true) (inv : Bool) {line : List Bool}
    (h : ((d.lane n).rx.collect inv line).bits.length < 258) :
    d.Received (d.rxBits n inv line) n ((d.lane n).rx.collect inv line) := by
  induction line generalizing d with
  | nil => exact ⟨rfl, _, rfl⟩
  | cons b line ih =>
    have first := d.takeBit_received n ((d.lane n).rx.collect inv [b])
    have notWhole : ((d.lane n).rx.collect inv [b]).bits.length < 258 :=
      Nat.lt_of_le_of_lt (LaneRx.collect_bits_length _ inv line) h
    rw [Dev.rxBits_cons lock, if_neg (by omega)]
    refine first.trans (ih ?_ ?_)
    · rwa [Dev.is_congr first.regs]
    · obtain ⟨t, rx⟩ := first.rx
      rw [rx, LaneRx.collect_t0]
      exact h

theorem Dev.deliverBlock_data (d : Dev) (n : Nat) (p : Payload) :
    d.deliverBlock n false p = d.updRx n fun r => { r with buf := r.buf ++ [.block false p] } := rfl

/-- The receive half r after a data block of payload p that left the descrambler at q (R88, R92, R94). -/
def LaneRx.HasTaken (r r' : LaneRx) (p : Payload) (q : BitVec 58) : Prop :=
  ∃ count win, r' = { r with bits := [], desc := q, blkBad := false, count := count, win := win, buf := r.buf ++ [.block false p] }

/-- A whole data block on a locked lane enters the elastic buffer. -/
theorem Dev.blockDone_data (lock : d.is (F.LANE_STATE_RX_LOCK n) = true) {r : LaneRx} (rx : (d.lane n).rx = r) {p : Payload}
    {bs : List Bool} {q : BitVec 58} (bits : r.bits = false :: true :: bs) (good : r.blkBad = false)
    (payload : descramble r.desc bs = (toBits 256 p.toNat, q)) :
    (d.blockDone n).regs = d.regs ∧ r.HasTaken ((d.blockDone n).lane n).rx p q := by
  unfold Dev.blockDone
  simp only [rx, bits, good, payload, lock, List.drop, List.headD, Bool.not_false, Bool.true_and, Bool.bne_false, if_true]
  rw [Dev.deliverBlock_data, payload_ofBits, Dev.updRx_lane, Dev.updRx_lane, Dev.updRx_lane, rx]
  exact ⟨rfl, _, _, rfl⟩

/-- The last bit of a data block: the block is taken, and a stuff bit behind it only brings the run in step. -/
theorem Dev.rxBits_lastBit (lock : d.is (F.LANE_STATE_RX_LOCK n) = true) {r : LaneRx} (rx : (d.lane n).rx = r) (clean : r.Clean)
    (inv b : Bool) {p : Payload} {bs : List Bool} {q : BitVec 58} (bits : r.bits ++ [b] = false :: true :: bs) (len : bs.length = 256)
    (payload : descramble r.desc bs = (toBits 256 p.toNat, q)) :
    ∃ r', r.HasTaken r' p q ∧
      d.Received (d.rxBits n inv ((stuff r.runV r.runC [b]).1.map (· ^^ inv))) n (r'.setRun (stuff r.runV r.runC [b]).2) := by
  obtain ⟨rest, line, after⟩ := LaneRx.collect_afterBit r.runV b r.runC
  have whole : r.collect inv [b ^^ inv] = { r with runV := b, runC := runAfter r.runV r.runC b, bits := false :: true :: bs } :=
    (r.collect_driven inv b []).trans ((LaneRx.bit_data clean b).trans (by rw [bits]))
  have isWhole : 258 ≤ (r.collect inv [b ^^ inv]).bits.length := by simp [whole, len]
  obtain ⟨regs, t, rx₁⟩ := d.takeBit_received n (r.collect inv [b ^^ inv])
  rw [line, List.map_cons, Dev.rxBits_cons lock, rx, if_pos isWhole]
  generalize d.takeBit n (r.collect inv [b ^^ inv]) = e at regs rx₁ ⊢
  rw [whole] at rx₁
  obtain ⟨regs₂, count, win, rx₂⟩ := Dev.blockDone_data (by rwa [Dev.is_congr regs]) rx₁ rfl clean.good payload
  have runs := after ((e.blockDone n).lane n).rx inv (by rw [rx₂]) (by rw [rx₂])
  have notWhole : (((e.blockDone n).lane n).rx.collect inv (rest.map (· ^^ inv))).bits.length < 258 := by
    rw [runs, rx₂]
    exact (by decide : 0 < 258)
  obtain ⟨regs₃, t', rx₃⟩ := Dev.rxBits_partial (by rwa [Dev.is_congr regs₂, Dev.is_congr regs]) inv notWhole
  rw [runs, rx₂] at rx₃
  exact ⟨_, ⟨count, win, rfl⟩, regs₃.trans (regs₂.trans regs), t', rx₃⟩

/-- Every bit of a data block but its last is collected, and the last completes it. -/
theorem Dev.rxBits_dataBlock (lock : d.is (F.LANE_STATE_RX_LOCK n) = true) {r : LaneRx} (rx : (d.lane n).rx = r) (clean : r.Clean)
    (start : r.bits = []) (inv : Bool) {p : Payload} {bs : List Bool} {q : BitVec 58} (len : bs.length = 256)
    (payload : descramble r.desc bs = (toBits 256 p.toNat, q)) :
    ∃ r', r.HasTaken r' p q ∧
      d.Received (d.rxBits n inv ((stuff r.runV r.runC (false :: true :: bs)).1.map (· ^^ inv))) n
        (r'.setRun (stuff r.runV r.runC (false :: true :: bs)).2) := by
  obtain ⟨front, b, block⟩ : ∃ front b, false :: true :: bs = front ++ [b] :=
    ⟨_, _, (List.dropLast_concat_getLast (List.cons_ne_nil _ _)).symm⟩
  have frontLen : front.length = 257 := by
    have := congrArg List.length block
    simp only [List.length_cons, List.length_append, List.length_nil, len] at this
    omega
  have collected := LaneRx.collect_stuff clean inv front
  rw [start, List.nil_append] at collected
  have notWhole : ((d.lane n).rx.collect inv ((stuff r.runV r.runC front).1.map (· ^^ inv))).bits.length < 258 := by
    rw [rx, collected]
    show front.length < 258
    omega
  obtain ⟨regs, t, rx₁⟩ := Dev.rxBits_partial lock inv notWhole
  rw [block, stuff_append, List.map_append, Dev.rxBits_append]
  generalize d.rxBits n inv ((stuff r.runV r.runC front).1.map (· ^^ inv)) = e at regs rx₁ ⊢
  rw [rx, collected] at rx₁
  have clean₁ : ((e.lane n).rx).Clean := by
    rw [rx₁]
    exact ⟨stuff_count_lt clean.short front, clean.noViol, clean.good⟩
  rw [rx₁] at clean₁
  obtain ⟨_, ⟨count, win, rfl⟩, regs₂, t', rx₂⟩ :=
    Dev.rxBits_lastBit (by rwa [Dev.is_congr regs]) rx₁ clean₁ inv b block.symm len payload
  exact ⟨_, ⟨count, win, rfl⟩, regs₂.trans regs, t', rx₂⟩

end

end Sys2Proof.Machine
end

section
/-! PROOFS. A block from the transmit half to the receive half (R85, R87, R88, R90, R91). -/
open Sys2Proof Sys2Proof.Machine Sys2Proof.Safety

/-- Settles O59: stuffing and its removal keep the two runs in step, and the descrambler takes in the very bits that the scrambler sent. -/
theorem receiverRecoversTheBlock : Obligations.ReceiverRecoversTheBlock := by
  unfold Obligations.ReceiverRecoversTheBlock
  refine ⟨fun x r inv ctrl p short value count desc bits good noViol => ?_, fun d n x inv p lock => ?_⟩
  · intro y r' back
    have collected : r' = { r with runV := y.runV, runC := y.runC, bits := ctrl :: (!ctrl) :: x.scrambled p } := by
      have all := LaneRx.collect_stuff ⟨count ▸ short, noViol, good⟩ inv (ctrl :: (!ctrl) :: x.scrambled p)
      rw [value, count, bits, List.nil_append, ← x.drive_line, ← x.drive_run inv] at all
      exact all
    have payload : back = (toBits 256 p.toNat, y.scr) := by
      show descramble r'.desc (r'.bits.drop 2) = _
      rw [collected, desc, ← x.descramble_scrambled]
      rfl
    rw [payload, collected]
    exact ⟨rfl, by simp [x.scrambled_length], rfl, rfl, rfl, stuff_count_lt short _, good, noViol, rfl⟩
  · dsimp only
    intro short value count desc bits good noViol
    obtain ⟨r', ⟨_, _, taken⟩, received⟩ := Dev.rxBits_dataBlock lock rfl ⟨count ▸ short, noViol, good⟩ bits inv (x.scrambled_length p)
      (by rw [desc]; exact x.descramble_scrambled inv false p)
    rw [value, count, ← Bool.not_false, ← x.drive_line, ← x.drive_run inv] at received
    generalize x.drive inv false p = y at taken received ⊢
    obtain ⟨regs, _, rx⟩ := received
    rw [rx, taken]
    exact ⟨rfl, rfl, rfl, rfl, rfl, (Dev.is_congr regs _).trans lock, regs⟩

end

section
/-! SUPPORT. What arrives at a receive half: data blocks and line bits (R65, R68, R83, R99, R106), and the tap changes that a partner
requests (R70). -/
namespace Sys2Proof.Machine

section
variable {d : Dev} {n : Nat}

/-! ### Data blocks (R99, R106) -/

section
variable {q : Payload} {rest : List RxItem} (head : ((d.settleRx n 64).lane n).rx.buf = .block false q :: rest)
include head

theorem Dev.dataBlock_orphan (closed : (((d.settleRx n 64).popRx n).lane n).rx.frame = none) :
    d.dataBlock n = (((d.settleRx n 64).popRx n).bump (F.FRM_CNT_COUNT n 6) 1).settleRx n 64 := by
  rw [Dev.dataBlock, head]
  dsimp only
  rw [closed]

theorem Dev.dataBlock_joins {f : RxFrame} (open_ : (((d.settleRx n 64).popRx n).lane n).rx.frame = some f) :
    d.dataBlock n =
      ((((d.settleRx n 64).popRx n).updRx n fun r => { r with frame := some { f with data := f.data ++ [q] } }).countBlock n).settleRx n 64 := by
  rw [Dev.dataBlock, head]
  dsimp only
  rw [open_]

end

/-! ### Line bits, by the state of the lane (R65, R68, R83) -/

theorem Dev.blockReceive_test (st : d.laneState n = stTest) (chk : d.is (F.LANE_PRBS_CTRL_CHK_EN n) = true) (line : List Bool) :
    d.blockReceive n line = d.updPrbs n fun p =>
      line.foldl (fun p b => p.check (d.get (F.LANE_PRBS_CTRL_POLY n)) (d.is (F.LANE_PRBS_CTRL_INVERT n))
        (d.is (F.LANE_PRBS_CTRL_CHK_LOCK n)) (b ^^ d.is (F.LANE_CFG_RX_INV n))) p :=
  (if_pos st).trans (if_pos chk)

theorem Dev.blockReceive_sloldo
    (st : d.laneState n = stTraining ∨ d.laneState n = stUp ∨ d.laneState n = stHunt ∨ d.laneState n = stWake) (line : List Bool) :
    d.blockReceive n line = ((d.adaptDfe n).rxBits n (d.is (F.LANE_CFG_RX_INV n)) line).settleRx n 64 := by
  have notTest : d.laneState n ≠ stTest := by rcases st with h | h | h | h <;> rw [h] <;> decide
  exact (if_neg notTest).trans (if_pos (by simpa [or_assoc] using st))

theorem Dev.blockReceive_idle (st : d.laneState n = stDisabled ∨ d.laneState n = stDown ∨ d.laneState n = stElecIdle) (line : List Bool) :
    d.blockReceive n line = d := by
  unfold Dev.blockReceive
  rcases st with h | h | h <;> rw [h] <;> rfl

theorem Dev.adaptDfe_stays (notTraining : d.laneState n ≠ stTraining) (notUp : d.laneState n ≠ stUp) : d.adaptDfe n = d :=
  if_neg (by simp [notTraining, notUp])

/-- Adapting the equalizer writes LANE.RX_EQ alone. -/
theorem Dev.adaptDfe_rdReg {r : Reg} (h : r.addr ≠ (R.LANE_RX_EQ n).addr) : (d.adaptDfe n).rdReg r = d.rdReg r := by
  unfold Dev.adaptDfe
  split
  · exact d.rdReg_wrReg_other _ _ _ h.symm
  · rfl

/-! ### Tap changes (R67, R70) -/

theorem Dev.tapChangeApply_preset {tap k : Nat} (h : (d.lane n).trn.change = some (1, tap, k)) :
    d.tapChangeApply n = (d.setTaps n (preset k)).updTrn n fun t => { t with change := none, stat := (1, 1, 1) } := by
  rw [Dev.tapChangeApply, h]
  exact if_pos rfl

theorem Dev.txTaps_irqSettle (d : Dev) (n : Nat) : d.irqSettle.txTaps n = d.txTaps n := rfl

end

end Sys2Proof.Machine
end

section
/-! PROOFS. What a receive half does with blocks and line bits, and a requested preset (R65, R68, R70, R83, R99, R106). -/
open Sys2Proof Sys2Proof.Machine Sys2Proof.Safety

/-- Settles O26: the open frame decides over a data block, the state of the lane over line bits, and the preset over the taps. -/
theorem dataBlocksJoinTheOpenFrame : Obligations.DataBlocksJoinTheOpenFrame := by
  unfold Obligations.DataBlocksJoinTheOpenFrame
  intro s n line hn hup d e
  refine ⟨fun q rest head closed => ?_, fun q rest f head open_ => ?_, fun st chk => ?_, fun st => ?_, fun notTraining notUp => ?_,
    fun r hr => ?_, fun st => ?_, fun k tap requested => ?_⟩
  · exact lane_runIng_acts hn hup rfl (Dev.dataBlock_orphan head closed)
  · exact lane_runIng_acts hn hup rfl (Dev.dataBlock_joins head open_)
  · exact lane_runIng_acts hn hup rfl (Dev.blockReceive_test st chk line)
  · exact lane_runIng_acts hn hup rfl (Dev.blockReceive_sloldo st line)
  · exact Dev.adaptDfe_stays notTraining notUp
  · exact Dev.adaptDfe_rdReg hr
  · exact lane_runIng_acts hn hup rfl (Dev.blockReceive_idle st line)
  · obtain ⟨pre, main, post⟩ := preset_lt k
    have taps := d.txTaps_setTaps n pre main post
    have applied := Dev.tapChangeApply_preset requested
    generalize d.setTaps n (preset k) = e at taps applied
    refine ⟨_, lane_runIng_acts hn hup rfl applied, ?_, ?_, ?_⟩
    · exact (Dev.txTaps_irqSettle _ n).trans ((e.txTaps_updLane n n _).trans taps)
    · rw [Dev.irqSettle_lane, Dev.updTrn_lane]
    · rw [Dev.irqSettle_lane, Dev.updTrn_lane]

end

section
/-! SUPPORT. The transmit half: acknowledgement and replay (R110 to R112), pause (R114), the DELAY_RESP owed (R409), the rotation of a
group (R74) and the block due (R98). -/
namespace Sys2Proof.Machine

section
variable {d : Dev} {n : Nat}

/-! ### Acknowledgement and replay (R110, R111) -/

theorem Dev.ackSend_sends (rep : d.replays n = true) (isUp : d.laneUp n = true) (due : (d.lane n).rx.ackDue = true) :
    d.ackSend n = (d.updRx n fun r => { r with ackDue := false }).updTx n fun t =>
      { t with ack := some (((d.lane n).rx.okSeq + 65535) % 65536) } :=
  if_pos (by rw [rep, isUp, due]; rfl)

theorem Dev.ackSend_stays (due : (d.lane n).rx.ackDue = false) : d.ackSend n = d := if_neg (by simp [due])

theorem Dev.nakRepeat_owes (wait : (d.lane n).rx.nakWait = true) (isUp : d.laneUp n = true) :
    d.nakRepeat n = d.updTx n fun t => { t with nak := some ((d.lane n).rx.expSeq, (d.lane n).rx.nakReason) } :=
  if_pos (by rw [wait, isUp]; rfl)

/-- A lane that is UP, replays and is not paused goes back to its oldest buffered frame exactly if that frame has been sent. -/
theorem Dev.ackWaitTimeout_oldest {f : TxFrame} {rest : List TxFrame} (oldest : (d.lane n).tx.replay = f :: rest)
    (rep : d.replays n = true) (isUp : d.laneUp n = true) (noPause : (d.lane n).tx.pause = none) :
    d.ackWaitTimeout n = if f.sent = true then d.goBack n f.seq else d := by
  rw [Dev.ackWaitTimeout, oldest]
  simp only [rep, isUp, noPause, Option.isNone_none, Bool.true_and]

/-- Going back resends every buffered frame from number e on. -/
theorem Dev.goBack_resend_seq (d : Dev) (n e : Nat) :
    ((d.goBack n e).lane n).tx.resend.map (·.seq) =
      ((d.lane n).tx.replay.filter fun g => g.seq == e || seqBehind g.seq e).map (·.seq) := by
  rw [Dev.goBack, Dev.updTx_lane]
  dsimp only
  rw [List.filter_map, List.map_map]
  have sameSeq (g : TxFrame) : (if g.seq == e || seqBehind g.seq e then { g with sent := false } else g).seq = g.seq := by split <;> rfl
  simp only [Function.comp_def, sameSeq]

/-! ### Pause (R114) -/

theorem Dev.pauseExpire_ends (out : (d.lane n).tx.pause = some 0) : d.pauseExpire n = d.updTx n fun t => { t with pause := none } :=
  if_pos out

theorem Dev.pauseExpire_stays (out : (d.lane n).tx.pause ≠ some 0) : d.pauseExpire n = d := if_neg out

/-! ### The DELAY_RESP owed (R409) -/

theorem Dev.delayRespSend_queues {o : Nat × TimeOut} (owed : (d.ptp.owed.find? fun o => o.1 == n) = some o) (isUp : d.laneUp n = true) :
    d.delayRespSend n =
      ({ d with ptp := { d.ptp with owed := d.ptp.owed.erase o } } : Dev).updTx n fun t => { t with time := t.time ++ [o.2] } := by
  rw [Dev.delayRespSend, owed]
  exact if_pos isUp

/-! ### The rotation of a group (R74) -/

theorem Dev.laneRotationRemove_notDue (due : (d.lane n).rotDue = none) : d.laneRotationRemove n = d := by
  rw [Dev.laneRotationRemove, due]

theorem Dev.laneRotationRemove_upAgain {g : Nat} (due : (d.lane n).rotDue = some g) (isUp : d.laneUp n = true) :
    d.laneRotationRemove n = d.updLane n fun l => { l with rotDue := none } := by
  rw [Dev.laneRotationRemove, due]
  exact if_pos isUp

theorem Dev.laneRotationRemove_loses {g : Nat} (due : (d.lane n).rotDue = some g) (left : d.laneUp n = false)
    (noReplay : d.is (F.EGR_GROUP_CFG_REPLAY g) = false) :
    d.laneRotationRemove n =
      ((d.updLane n fun l => { l with rotDue := none }).updTx n fun t => { t with queue := [], cur := none }).bump (F.EGR_GROUP_LOST_COUNT g)
        ((d.lane n).tx.queue.length + b2n (d.lane n).tx.cur.isSome) := by
  rw [Dev.laneRotationRemove, due]
  exact (if_neg (ne_true_of_eq_false left)).trans (if_neg (ne_true_of_eq_false noReplay))

/-! ### The block due (R98) -/

theorem Dev.driveBlock_quiet (quiet : (d.lane n).tx.driving = false) : d.driveBlock n = d := if_pos (by rw [quiet]; rfl)

theorem Dev.driveBlock_due (driving : (d.lane n).tx.driving = true) (notTest : d.laneState n ≠ stTest)
    (notTraining : d.laneState n ≠ stTraining) (noWake : (d.lane n).tx.wake = none) :
    d.driveBlock n = (d.dueBlock n).1.updTx n fun t => t.drive (d.is (F.LANE_CFG_TX_INV n)) (d.dueBlock n).2.1 (d.dueBlock n).2.2 := by
  rw [Dev.driveBlock]
  simp only [driving, notTest, notTraining, noWake, Bool.not_true, Bool.false_eq_true, if_false]

end

/-! ### LINK_FAIL and the receive half (R486) -/

/-- Both devices have the same receive half of lane n and the same frames open at ingest. -/
structure Dev.SameReception (d e : Dev) (n : Nat) : Prop where
  rx : (e.lane n).rx = (d.lane n).rx
  opened : e.ing.opened = d.ing.opened

theorem Dev.SameReception.refl (d : Dev) (n : Nat) : d.SameReception d n := ⟨rfl, rfl⟩

theorem Dev.SameReception.trans {d e g : Dev} {n : Nat} (h : d.SameReception e n) (h' : e.SameReception g n) : d.SameReception g n :=
  ⟨h'.rx.trans h.rx, h'.opened.trans h.opened⟩

theorem Dev.SameReception.foldl {α : Type} {n : Nat} {f : Dev → α → Dev} (step : ∀ (e : Dev) a, e.SameReception (f e a) n)
    (d : Dev) (l : List α) : d.SameReception (l.foldl f d) n :=
  List.foldlRecOn (motive := fun e => d.SameReception e n) l f (.refl d n) fun e h a _ => h.trans (step e a)

theorem Dev.updEgr_sameReception (d : Dev) (n : Nat) (f : EgrSt → EgrSt) : d.SameReception (d.updEgr f) n := ⟨rfl, rfl⟩

theorem Dev.updTx_sameReception (d : Dev) (n m : Nat) (f : LaneTx → LaneTx) : d.SameReception (d.updTx m f) n := by
  refine ⟨?_, rfl⟩
  by_cases h : m = n
  · rw [h, Dev.updTx_lane]
  · exact congrArg LaneSt.rx (Dev.updLane_other d m _ n h)

theorem Dev.winComplete_sameReception (d : Dev) (n q f : Nat) : d.SameReception (d.winComplete q f) n := by
  refine .foldl (fun e w => ?_) d _
  dsimp only
  split
  · split <;> exact ⟨rfl, rfl⟩
  · exact .refl e n

theorem Dev.endDump_sameReception (d : Dev) (n q f : Nat) : d.SameReception (d.endDump q f) n :=
  (d.updEgr_sameReception n _).trans (Dev.winComplete_sameReception _ n q f)

theorem Dev.checkDumps_sameReception (d : Dev) (n : Nat) : d.SameReception d.checkDumps n := by
  unfold Dev.checkDumps
  extract_lets ended due gone old
  have same : d.SameReception ended n := by
    refine .foldl (fun e x => .foldl (fun g q => ?_) e _) d _
    split
    · exact g.endDump_sameReception n q x.1
    · exact .refl g n
  split
  · exact same
  · exact same.trans ⟨rfl, rfl⟩

theorem Dev.linkFail_sameReception (d : Dev) (n g : Nat) (lanes : List Nat) : d.SameReception (d.linkFail g lanes).1 n := by
  unfold Dev.linkFail
  extract_lets ids has failed emptied counted ended
  have emptying : failed.SameReception emptied n := .foldl (fun e m => e.updTx_sameReception n m _) _ _
  have counting : emptied.SameReception counted n := by
    refine .foldl (fun e t => ?_) _ _
    split
    · dsimp only
      split <;> exact ⟨rfl, rfl⟩
    · exact .refl e n
  have shown : d.SameReception failed n := ⟨rfl, rfl⟩
  exact ((shown.trans emptying).trans counting).trans ((counted.updEgr_sameReception n _).trans (ended.checkDumps_sameReception n))

/-! ### An exhausted replay (R112, R113) -/

theorem Dev.append_lane (d : Dev) (r : Rec) (n : Nat) : (d.append r).lane n = d.lane n := rfl

theorem Dev.append_laneState (d : Dev) (r : Rec) (n : Nat) : (d.append r).laneState n = d.laneState n := rfl

theorem Dev.updLane_laneState (d : Dev) (n m : Nat) (f : LaneSt → LaneSt) : (d.updLane n f).laneState m = d.laneState m := rfl

theorem Dev.append_transit_length (d : Dev) (r : Rec) : (d.append r).evr.transit.length = d.evr.transit.length + 1 := List.length_append

/-- A change of state marks at most, at the end of the elastic buffer, that the lane left UP; ingest keeps its frames. -/
theorem Dev.setLaneState_reception (d : Dev) (n st : Nat) : (d.setLaneState n st).ing = d.ing ∧
    (((d.setLaneState n st).lane n).rx = (d.lane n).rx ∨
      ((d.setLaneState n st).lane n).rx = { (d.lane n).rx with buf := (d.lane n).rx.buf ++ [.left] }) := by
  rw [Dev.setLaneState, Dev.put_lane, Dev.put_lane]
  split
  · refine ⟨rfl, .inr ?_⟩
    rw [Dev.leaveUp, Dev.put_lane, Dev.updLane_same]
  · exact ⟨rfl, .inl rfl⟩

theorem Dev.event_lane (d : Dev) (f : RF) (i : Nat) (args : List Nat) (n : Nat) : (d.event f i args).lane n = d.lane n := rfl

theorem Dev.laneDown_rx (d : Dev) (n : Nat) : ((d.laneDown n).lane n).rx = ((d.setLaneState n stDown).lane n).rx.seek := by
  rw [Dev.laneDown, Dev.event_lane, Dev.bump, Dev.put_lane, Dev.flag, Dev.put_lane, Dev.put_lane, Dev.put_lane, Dev.updRx_lane,
    Dev.updTx_lane]

theorem Dev.laneDown_ing (d : Dev) (n : Nat) : (d.laneDown n).ing = d.ing := by
  rw [Dev.laneDown, Dev.event, Dev.append_ing, Dev.bump_ing, Dev.flag_ing, Dev.put_ing, Dev.put_ing, Dev.updRx_ing, Dev.updTx_ing,
    (d.setLaneState_reception n stDown).1]

/-- With no frame open, at the lane or at ingest, the mark that the lane left UP is only taken off the elastic buffer. -/
theorem Dev.settleRx_left {d : Dev} {n : Nat} (frame : (d.lane n).rx.frame = none) (opened : d.ing.opened = none)
    (buf : (d.lane n).rx.buf = [.left]) (fuel : Nat) : d.settleRx n (fuel + 1) = d.popRx n := by
  have noFrame : (d.popRx n).truncate n = d.popRx n := by
    rw [Dev.truncate, Dev.popRx, Dev.updRx_lane, frame]
  have noStream : (d.popRx n).streamsLeft n = d.popRx n := if_pos (by rw [Dev.popRx, Dev.updRx_ing, opened]; rfl)
  rw [Dev.settleRx, buf]
  dsimp only
  rw [noFrame, noStream, Dev.settleRx_empty (by rw [Dev.popRx, Dev.updRx_lane, buf]; rfl)]

/-- A frame that is exhausted takes its lane DOWN behind LINK_FAIL, and is recorded once more. -/
theorem Dev.replayExhausted_fails {d : Dev} {n : Nat} {f : TxFrame} (exhausted : (d.lane n).tx.exhausted = some f)
    (rep : d.replays n = true) (isUp : d.laneUp n = true) (noPause : (d.lane n).tx.pause = none) :
    ∃ r, d.replayExhausted n =
      ((((d.linkFail (d.laneGroup n) (d.lanesOf (d.laneGroup n))).1.laneDown n).updLane n fun l =>
        { l with rotDue := none, tx := { l.tx with cur := none } }).append r) := by
  rw [Dev.replayExhausted, exhausted]
  simp only [rep, isUp, noPause, Bool.not_true, Bool.or_self, Option.isSome_none, Bool.false_eq_true, if_false]
  exact ⟨_, rfl⟩

/-- Settling the receive half of a lane that has nothing open changes neither its state nor what is on the way to the recorder. -/
theorem Dev.settleRx_closed {d : Dev} {n : Nat} (frame : (d.lane n).rx.frame = none) (opened : d.ing.opened = none)
    (buf : (d.lane n).rx.buf = [] ∨ (d.lane n).rx.buf = [.left]) (fuel : Nat) :
    (d.settleRx n (fuel + 1)).laneState n = d.laneState n ∧ (d.settleRx n (fuel + 1)).evr = d.evr := by
  rcases buf with empty | left
  · rw [Dev.settleRx_empty empty]
    exact ⟨rfl, rfl⟩
  · rw [Dev.settleRx_left frame opened left]
    exact ⟨rfl, rfl⟩

/-- The lane is DOWN, with one record more than going DOWN makes, once its receive half has settled. -/
theorem Dev.replayExhausted_settles {d : Dev} {n : Nat} {f : TxFrame} (exhausted : (d.lane n).tx.exhausted = some f)
    (rep : d.replays n = true) (isUp : d.laneUp n = true) (noPause : (d.lane n).tx.pause = none) (buf : (d.lane n).rx.buf = [])
    (frame : (d.lane n).rx.frame = none) (opened : d.ing.opened = none) :
    ((d.replayExhausted n).settleRx n 64).laneState n = stDown ∧
      ((d.replayExhausted n).settleRx n 64).evr.transit.length =
        ((d.linkFail (d.laneGroup n) (d.lanesOf (d.laneGroup n))).1.laneDown n).evr.transit.length + 1 := by
  obtain ⟨r, fails⟩ := Dev.replayExhausted_fails exhausted rep isUp noPause
  have kept := d.linkFail_sameReception n (d.laneGroup n) (d.lanesOf (d.laneGroup n))
  generalize (d.linkFail (d.laneGroup n) (d.lanesOf (d.laneGroup n))).1 = e at kept fails ⊢
  obtain ⟨-, left⟩ := e.setLaneState_reception n stDown
  have rx : ((d.replayExhausted n).lane n).rx = ((e.setLaneState n stDown).lane n).rx.seek := by
    rw [fails, Dev.append_lane, Dev.updLane_same, e.laneDown_rx]
  have ing' : (d.replayExhausted n).ing.opened = none := by
    rw [fails, Dev.append_ing, Dev.updLane_ing, e.laneDown_ing, kept.opened, opened]
  have frame' : ((d.replayExhausted n).lane n).rx.frame = none := by
    rw [rx]
    rcases left with h | h <;> rw [h] <;> exact (congrArg LaneRx.frame kept.rx).trans frame
  have buf' : ((d.replayExhausted n).lane n).rx.buf = [] ∨ ((d.replayExhausted n).lane n).rx.buf = [.left] := by
    rw [rx]
    rcases left with h | h <;> rw [h, kept.rx]
    · exact .inl buf
    · exact .inr (congrArg (· ++ [RxItem.left]) buf)
  obtain ⟨state, evr⟩ := Dev.settleRx_closed frame' ing' buf' 63
  rw [state, evr, fails, Dev.append_laneState, Dev.updLane_laneState, e.laneDown_laneState n, Dev.append_transit_length, Dev.updLane_evr]
  exact ⟨rfl, rfl⟩

end Sys2Proof.Machine
end

section
/-! PROOFS. The commands of the transmit half (R74, R81, R98, R110 to R112, R114, R409). -/
open Sys2Proof Sys2Proof.Machine Sys2Proof.Safety

/-- Settles O27: each command by the conditions of its rule; what a lane without replay loses and what is owed are read off the result. -/
theorem transmitHalfActs : Obligations.TransmitHalfActs := by
  unfold Obligations.TransmitHalfActs
  intro s n hn hup d l
  refine ⟨fun rep isUp due => ?_, fun due => ?_, fun wait isUp => ?_, fun f rest oldest rep isUp noPause => ⟨fun sent => ?_, fun unsent => ?_⟩,
    d.goBack_resend_seq n, fun out => ?_, fun out => ?_, fun o owed isUp => ?_, fun due => ?_, fun g due isUp => ?_,
    fun g due left noReplay => ?_, fun f exhausted rep isUp noPause buf frame opened => ?_, fun quiet => ?_,
    fun driving notTest notTraining noWake => ?_, fun t => ⟨rfl, rfl⟩⟩
  · exact lane_runEgr_acts hn hup rfl (Dev.ackSend_sends rep isUp due)
  · exact lane_runEgr_acts hn hup rfl (Dev.ackSend_stays due)
  · exact lane_runEgr_acts hn hup rfl (Dev.nakRepeat_owes wait isUp)
  · exact lane_runEgr_acts hn hup rfl ((Dev.ackWaitTimeout_oldest oldest rep isUp noPause).trans (if_pos sent))
  · exact lane_runEgr_acts hn hup rfl ((Dev.ackWaitTimeout_oldest oldest rep isUp noPause).trans (if_neg (ne_true_of_eq_false unsent)))
  · exact lane_runEgr_acts hn hup rfl (Dev.pauseExpire_ends out)
  · exact lane_runEgr_acts hn hup rfl (Dev.pauseExpire_stays out)
  · refine ⟨_, lane_runEgr_acts hn hup rfl (Dev.delayRespSend_queues owed isUp), ?_, rfl⟩
    rw [Dev.irqSettle_lane, Dev.updTx_lane]
    rfl
  · exact lane_runEgr_acts hn hup rfl (Dev.laneRotationRemove_notDue due)
  · exact lane_runEgr_acts hn hup rfl (Dev.laneRotationRemove_upAgain due isUp)
  · refine ⟨_, lane_runEgr_acts hn hup rfl (Dev.laneRotationRemove_loses due left noReplay), ?_⟩
    rw [Dev.irqSettle_lane, Dev.irqSettle_get, Dev.bump, Dev.put_lane, Dev.updTx_lane, Dev.updLane_same,
      Dev.get_put_same _ _ _ (by decide : 31 < 64), ← Nat.add_assoc]
    exact ⟨rfl, rfl, rfl, rfl⟩
  · obtain ⟨down, records⟩ := Dev.replayExhausted_settles exhausted rep isUp noPause buf frame opened
    exact ⟨_, lane_runEgr_acts hn hup rfl rfl, down, records⟩
  · exact lane_runEgr_acts hn hup rfl (congrArg (fun e => Dev.updTx e n LaneTx.tick) (Dev.driveBlock_quiet quiet))
  · exact lane_runEgr_acts hn hup rfl
      (congrArg (fun e => Dev.updTx e n LaneTx.tick) (Dev.driveBlock_due driving notTest notTraining noWake))

end

section
/-! SUPPORT. How a command of a panel acts, and what a control or array syllable that issues does by the answer of its operation (R153
to R158). -/
namespace Sys2Proof.Machine
open Sys2Proof.Safety

section
variable {c : Instr} {s : State} {p cop aop : Nat} {e : Dev}

theorem panel_acts {f : Dev → Dev} (hp : p < 64) (h : upIsl s (p / 8)) (hc : exec c s = unitOk (decide (p < 64)) (s.runIsl (p / 8) f))
    (he : f s.dev = e) : Acts c s e := by
  rw [Acts, hc, decide_eq_true hp, unitOk_true, State.runIsl_of_up h, he]

/-! ### A control syllable that issues -/

section
variable {f : Dev → Ctl} (hp : p < 64) (h : upIsl s (p / 8))
  (hc : exec c s = unitOk (decide (p < 64)) (s.runIsl (p / 8) fun d => d.control p cop f)) (hi : Issues s.dev p cop)
  (known : copKnown cop = true)
include hp h hc hi known

/-- A control syllable that takes effect leaves the word issued. -/
theorem control_acts_done (he : f s.dev = .done e) : Acts c s (e.wordIssue p) :=
  panel_acts hp h hc (by rw [Dev.control_issue hi known, he])

/-- A control syllable that must wait holds its word. -/
theorem control_acts_wait {slot : Bool} (he : f s.dev = .wait slot) : Acts c s (s.dev.wordWait p slot) :=
  panel_acts hp h hc (by rw [Dev.control_issue hi known, he])

/-- A control syllable that faults stops the panel with its code. -/
theorem control_acts_fault {code : Nat} (he : f s.dev = .fault code) : Acts c s ((s.dev.tick p).panelFault p code) :=
  panel_acts hp h hc (by rw [Dev.control_issue hi known, he])

/-- A control syllable that stops the panel ends its cycle. -/
theorem control_acts_stop (he : f s.dev = .stop e) : Acts c s (e.tick p) :=
  panel_acts hp h hc (by rw [Dev.control_issue hi known, he])

end
end

/-! ### The fields of one panel stand apart (R166) -/

/-- Fields of one panel are apart when their offsets differ or their bits do. -/
theorem RF.Apart.samePanel {p a b w w' r r' hi lo hi' lo' : Nat}
    (h : a ≠ b ∨ ((w = w' ∧ r = r') ∧ hi' < 64 ∧ (hi < lo' ∨ hi' < lo))) :
    RF.Apart ⟨⟨a + p / 8 * 0x100000 + p % 8 * 0x10000, w, r⟩, hi, lo⟩ ⟨⟨b + p / 8 * 0x100000 + p % 8 * 0x10000, w', r'⟩, hi', lo'⟩ := by
  by_cases hab : a = b
  · obtain ⟨⟨rfl, rfl⟩, bits⟩ := h.resolve_left (not_not_intro hab)
    exact .inr ⟨by rw [hab], bits⟩
  · exact .inl fun e => hab (Nat.add_right_cancel (Nat.add_right_cancel e))

/-! ### The sequencer registers (R154) -/

theorem Dev.pA_setA_same (d : Dev) (p r v : Nat) : (d.setA p r v).pA p r = v % 2 ^ 32 :=
  d.get_put_same (F.PNL_A_VALUE p r) v (by decide : 31 < 64)

theorem Dev.pA_setA_other (d : Dev) (p v : Nat) {r q : Nat} (h : r ≠ q) : (d.setA p r v).pA p q = d.pA p q :=
  d.get_put_other (F.PNL_A_VALUE p r) (F.PNL_A_VALUE p q) v (by simp only [F.PNL_A_VALUE, R.PNL_A]; omega)

/-! ### BNZ (R157) -/

/-- What BNZ does to register r of panel p, with its target. -/
def Dev.bnzEffect (d : Dev) (p r target : Nat) : Ctl :=
  let v := ofInt 32 ((d.pA p r : Int) - 1)
  .done ((d.setA p r v).updPanel p fun x => { x with br := some (3, if v = 0 then none else some target) })

theorem Dev.bnz_eq (d : Dev) (p : Nat) :
    d.bnz p = d.control p 0x11 fun d => d.bnzEffect p (bitsOf (d.ctlWord p) 57 54) (bitsOf (d.ctlWord p) 43 32) := rfl

theorem Dev.bnzEffect_taken {d : Dev} {p r target : Nat} (taken : ofInt 32 ((d.pA p r : Int) - 1) ≠ 0) :
    d.bnzEffect p r target = .done
      ((d.setA p r (ofInt 32 ((d.pA p r : Int) - 1))).updPanel p fun x => { x with br := some (3, some target) }) := by
  rw [Dev.bnzEffect, if_neg taken]

theorem Dev.bnzEffect_last {d : Dev} {p r target : Nat} (last : ofInt 32 ((d.pA p r : Int) - 1) = 0) :
    d.bnzEffect p r target = .done ((d.setA p r 0).updPanel p fun x => { x with br := some (3, none) }) := by
  rw [Dev.bnzEffect, if_pos last, last]

end Sys2Proof.Machine
end

section
/-! PROOFS. The control syllables that write the sequencer's registers (R154, R157). -/
open Sys2Proof Sys2Proof.Machine Sys2Proof.Safety

/-- Settles O13: each syllable takes effect as its operation says, BNZ and REPEAT by their conditions. -/
theorem panelRegisterSyllablesIssue : Obligations.PanelRegisterSyllablesIssue := by
  unfold Obligations.PanelRegisterSyllablesIssue
  intro s p hp hup d w r
  refine ⟨fun h => control_acts_done hp hup rfl h rfl rfl, fun h => control_acts_done hp hup rfl h rfl rfl,
    fun h => control_acts_done hp hup rfl h rfl rfl, fun h => control_acts_done hp hup rfl h rfl rfl,
    fun h => control_acts_done hp hup rfl h rfl rfl, fun h => control_acts_done hp hup rfl h rfl rfl,
    fun h => control_acts_done hp hup rfl h rfl rfl, fun h taken => ?_, fun h last => ?_, fun h fits => ?_, fun h past => ?_, fun v => ?_⟩
  · exact control_acts_done hp hup rfl h rfl (Dev.bnzEffect_taken taken)
  · exact control_acts_done hp hup rfl h rfl (Dev.bnzEffect_last last)
  · exact control_acts_done hp hup rfl h rfl (if_neg (Nat.not_lt.mpr fits))
  · exact control_acts_fault hp hup rfl h rfl (if_pos past)
  · exact ⟨d.pA_setA_same p r v, fun q _ hq => d.pA_setA_other p v hq.symm, fun a => rfl⟩

end

section
/-! SUPPORT. The slots that a control syllable names (R148 to R151, R164, R174, R231). -/
namespace Sys2Proof.Machine

section
variable {d : Dev} {p n tag : Nat}

/-- OPEN or LOADW of a free slot binds it, its plane empty. -/
theorem Dev.bindSlot_free (below : n < d.slotLimit p) (free : ((d.panel p).slot n).bind = none) (mk : Bind) :
    d.bindSlot p n mk = .done ((d.setSlot p n { bind := some mk, plane := [] }).showSlots p) := by
  rw [Dev.bindSlot, if_neg (Nat.not_le.mpr below)]
  dsimp only
  rw [free]

/-- An operation on a slot that is bound to its tag, with no SPILL or DUMP queued, owns the slot. -/
theorem Dev.ownSlot_owned {b : Bind} (below : n < d.slotLimit p) (bound : ((d.panel p).slot n).bind = some b) (isTag : b.tag = tag)
    (idle : (d.panel p).slotQueued n = false) (f : Bind → Ctl) : d.ownSlot p n tag f = f b := by
  rw [Dev.ownSlot, if_neg (Nat.not_le.mpr below)]
  dsimp only
  rw [bound]
  exact if_pos (by simp [isTag, idle])

end

/-- A slot holds what was put in it. -/
@[simp] theorem Dev.setSlot_slot_same (d : Dev) (p n : Nat) (v : SlotSt) : ((d.setSlot p n v).panel p).slot n = v := by
  rw [Dev.setSlot, Dev.updPanel_same]
  exact Tab.get_set_same _ _ _ _

/-- SPILL and DUMP of an owned slot enter the port while fewer than four operations are queued. -/
theorem Dev.portIssue_enters {d : Dev} {p : Nat} {b : Bind} (below : ctlSlot (d.ctlWord p) < d.slotLimit p)
    (bound : ((d.panel p).slot (ctlSlot (d.ctlWord p))).bind = some b) (isTag : b.tag = ctlTag (d.ctlWord p))
    (idle : (d.panel p).slotQueued (ctlSlot (d.ctlWord p)) = false) (room : (d.panel p).queuedOps < 4) (dump : Bool) :
    d.portIssue p dump = .done
      (((d.setPanel p { d.panel p with port := (d.panel p).port ++ [.queued ⟨dump, ctlSlot (d.ctlWord p), ctlTag (d.ctlWord p),
        d.pA p (ctlRegA (d.ctlWord p)), !dump && b.frame == d.pStart p, d.pStart p, b.frame, d.pGang p⟩] }).portCapture p 4).showSlots p) := by
  rw [Dev.portIssue]
  exact (Dev.ownSlot_owned below bound isTag idle _).trans (if_neg (Nat.not_le.mpr room))

end Sys2Proof.Machine
end

section
/-! PROOFS. The control syllables that bind, free, capture and promote a slot (R148 to R151, R164, R174, R231). -/
open Sys2Proof Sys2Proof.Machine Sys2Proof.Safety

/-- Settles O14: OPEN and LOADW find their slot free; CLEAR, SPILL, DUMP and PROMOTE own theirs, and each condition left decides one
branch of the operation. -/
theorem panelSlotSyllablesTakeEffect : Obligations.PanelSlotSyllablesTakeEffect := by
  unfold Obligations.PanelSlotSyllablesTakeEffect
  intro s p hp hup d x w n a bank addr opened loaded below
  refine ⟨fun h free => ⟨?_, Dev.setSlot_slot_same d p n _⟩, fun h free => ?_, fun b bound isTag idle => ?_⟩
  · exact control_acts_done hp hup rfl h rfl (Dev.bindSlot_free below free _)
  · refine control_acts_done hp hup rfl h rfl ?_
    show (match d.bindSlot p n (d.newBind p (ctlTag w) 0 0 0 (some addr)) with
      | .done d' => Ctl.done (if bank.2 then d'.flag (F.ISL_BEAM_EVENTS_EARLY_LOAD (p / 8)) else d')
      | other => other) = _
    rw [Dev.bindSlot_free below free]
  · refine ⟨fun h alone => ?_, fun q h partner => ?_, fun h room => ?_, fun h room => ?_, fun h plane noAdd noPartner => ?_⟩
    · refine control_acts_done hp hup rfl h rfl ((Dev.ownSlot_owned below bound isTag idle _).trans ?_)
      rw [alone]
    · refine control_acts_done hp hup rfl h rfl ((Dev.ownSlot_owned below bound isTag idle _).trans ?_)
      rw [partner]
    · exact control_acts_done hp hup rfl h rfl (Dev.portIssue_enters below bound isTag idle room false)
    · exact control_acts_done hp hup rfl h rfl (Dev.portIssue_enters below bound isTag idle room true)
    · have free : ¬x.promo.isSome = true := by rw [noAdd]; nofun
      have unshared : ¬x.partnered n (bitsOf w 40 37) = true := by rw [noPartner]; nofun
      exact control_acts_done hp hup rfl h rfl ((if_neg (Nat.not_le.mpr plane)).trans
        ((Dev.ownSlot_owned below bound isTag idle _).trans ((if_neg free).trans (if_neg unshared))))

end

section
/-! SUPPORT. The words of a plane (R141, R170, R171). -/
namespace Sys2Proof.Machine

section
variable {lim a b : Int}

/-- A sum within the limits is exact. -/
theorem accAdd_exact (lower : -lim ≤ a + b) (upper : a + b ≤ lim) : accAdd lim a b = (a + b, false) := by
  rw [accAdd]
  exact (if_neg (Int.not_lt.mpr upper)).trans (if_neg (Int.not_lt.mpr lower))

theorem accAdd_above (h : lim < a + b) : accAdd lim a b = (lim, true) := if_pos h

theorem accAdd_below (nonneg : 0 ≤ lim) (h : a + b < -lim) : accAdd lim a b = (-lim, true) := by
  have notAbove : ¬lim < a + b := by omega
  simp only [accAdd, notAbove, h, if_false, if_true]

end

/-- Both parts of a word lie within the limits. -/
def Cell.Within (lim : Int) (c : Cell) : Prop := -lim ≤ c.re ∧ c.re ≤ lim ∧ -lim ≤ c.im ∧ c.im ≤ lim

/-- A product of 0 leaves a word within the limits. -/
theorem Cell.add_zero {lim : Int} {c : Cell} (h : c.Within lim) : c.add lim (0, 0) = c := by
  obtain ⟨reLower, reUpper, imLower, imUpper⟩ := h
  have re : accAdd lim c.re 0 = (c.re, false) := by rw [accAdd_exact (by omega) (by omega), Int.add_zero]
  have im : accAdd lim c.im 0 = (c.im, false) := by rw [accAdd_exact (by omega) (by omega), Int.add_zero]
  simp only [Cell.add, re, im, Bool.or_false]

/-- A mark in either part makes the word leave as the saturation mark. -/
theorem Cell.word_marked {c : Cell} (h : c.sre = true ∨ c.sim = true) : c.word = markWord := if_pos (Bool.or_eq_true_iff.mpr h)

/-- What a product adds to one word of a plane. -/
def planeAddWord (lim : Int) (f : Nat → Int × Int) (t : Tab Cell) (q : Nat) : Tab Cell :=
  if f q = (0, 0) then t else Tab.upd Cell.zero t q fun c => c.add lim (f q)

theorem planeAdd_succ (lim : Int) (n : Nat) (t : Tab Cell) (f : Nat → Int × Int) :
    planeAdd lim (n + 1) t f = planeAddWord lim f (planeAdd lim n t f) n := by
  rw [planeAdd, List.range_succ, List.foldl_append]
  rfl

theorem planeAddWord_get_same {lim : Int} {t : Tab Cell} {q : Nat} (h : (Tab.get Cell.zero t q).Within lim) (f : Nat → Int × Int) :
    Tab.get Cell.zero (planeAddWord lim f t q) q = (Tab.get Cell.zero t q).add lim (f q) := by
  rw [planeAddWord]
  split
  · next zero => rw [zero, Cell.add_zero h]
  · exact Tab.get_set_same _ _ _ _

theorem planeAddWord_get_other {q j : Nat} (h : q ≠ j) (lim : Int) (t : Tab Cell) (f : Nat → Int × Int) :
    Tab.get Cell.zero (planeAddWord lim f t q) j = Tab.get Cell.zero t j := by
  rw [planeAddWord]
  split
  · rfl
  · exact Tab.get_set_other _ _ _ _ _ h

/-- The words below n take their product, one at a time, and no other word is touched. -/
theorem planeAdd_get {lim : Int} {t : Tab Cell} (within : ∀ j, (Tab.get Cell.zero t j).Within lim) (n : Nat) (f : Nat → Int × Int) (q : Nat) :
    Tab.get Cell.zero (planeAdd lim n t f) q = if q < n then (Tab.get Cell.zero t q).add lim (f q) else Tab.get Cell.zero t q := by
  induction n with
  | zero => rfl
  | succ n ih =>
    rw [planeAdd_succ]
    by_cases hq : n = q
    · subst hq
      rw [if_neg (Nat.lt_irrefl n)] at ih
      rw [planeAddWord_get_same (ih ▸ within n), ih, if_pos (Nat.lt_succ_self n)]
    · have sameSide : q < n + 1 ↔ q < n := by omega
      rw [planeAddWord_get_other hq, ih]
      simp only [sameSide]

end Sys2Proof.Machine
end

section
/-! PROOFS. The sums and marks of the accumulators (R141, R170, R171). -/
open Sys2Proof Sys2Proof.Machine Sys2Proof.Safety

/-- Settles O20: each part of a word is one clamped addition, and a plane takes its products word by word. -/
theorem accumulatorsClampAndMark : Obligations.AccumulatorsClampAndMark := by
  unfold Obligations.AccumulatorsClampAndMark
  refine ⟨fun lim c v nonneg => ?_, fun lim n t f q _ within => planeAdd_get within n f q⟩
  refine ⟨fun lower upper => ?_, fun above => ?_, fun below => ?_, fun lower upper => ?_, fun above => ?_, fun below => ?_,
    fun marked => ?_, fun marked => ?_, Cell.word_marked⟩
  · rw [Cell.add, accAdd_exact lower upper]; exact ⟨rfl, Bool.or_false _⟩
  · rw [Cell.add, accAdd_above above]; exact ⟨rfl, Bool.or_true _⟩
  · rw [Cell.add, accAdd_below nonneg below]; exact ⟨rfl, Bool.or_true _⟩
  · rw [Cell.add, accAdd_exact lower upper]; exact ⟨rfl, Bool.or_false _⟩
  · rw [Cell.add, accAdd_above above]; exact ⟨rfl, Bool.or_true _⟩
  · rw [Cell.add, accAdd_below nonneg below]; exact ⟨rfl, Bool.or_true _⟩
  · exact Bool.or_eq_true_iff.mpr (.inl marked)
  · exact Bool.or_eq_true_iff.mpr (.inl marked)

end

section
/-! SUPPORT. The commands that end a capture, a promotion add and a weight load (R151, R174, R231). -/
namespace Sys2Proof.Machine

/-! ### PLANE_BUFFER_FREE and PROMOTE_ADD_COMPLETE -/

section
variable {d : Dev} {p : Nat}

theorem Dev.planeBufferFree_leaves {op : PortOp} {shape gang : Nat} {cells : Tab Cell} {c : Bool} {partner : Option Nat}
    {rest : List PortItem} (oldest : (d.panel p).port = .plane op shape gang cells c partner :: rest)
    (room : d.crossingFull p op.dump = false) :
    d.planeBufferFree p =
      ((((d.updPanel p fun y => { y with port := rest }).planeLeaves p op shape gang cells partner).portFlush p 8).portCapture p 4).showSlots p := by
  rw [Dev.planeBufferFree, oldest]
  exact if_neg (ne_true_of_eq_false room)

theorem Dev.promoteAddComplete_ends {n b : Nat} {cells : Tab Cell} (running : (d.panel p).promo = some (n, b, cells)) :
    d.promoteAddComplete p =
      ((d.setPanel p { d.panel p with promo := none, planes := Tab.upd [] (d.panel p).planes b fun t => planeSum t cells }).portCapture p
        4).showSlots p := by
  rw [Dev.promoteAddComplete]
  dsimp only
  rw [running]

/-! ### LOADW_COMPLETE -/

theorem Dev.loadwComplete_waits {n a : Nat} {b : Bind} (bound : ((d.panel p).slot n).bind = some b) (loading : b.loading = some a)
    (busy : d.memBusy a (64 + 2 * planeWords (d.pGang p)) = true) : d.loadwComplete p n = d := by
  rw [Dev.loadwComplete]
  dsimp only
  rw [bound]
  dsimp only
  rw [loading]
  exact if_pos busy

/-- What the arrival of a weight plane shows in the registers of island k and in the event recorder, by its checks (R231). -/
def Dev.weightShown (d : Dev) (k p n addr epoch : Nat) (ok : Bool) : Dev :=
  if ok then d.put (F.ISL_BEAM_LAST_EPOCH_WEPOCH k) epoch
  else ((d.flag (F.ISL_BEAM_EVENTS_WEIGHT_BAD k)).bump (F.ISL_BEAM_CNT_COUNT k 3) 1).event (F.ISL_BEAM_EVENTS_WEIGHT_BAD k) k [p, n, addr]

theorem Dev.weightShown_panel (d : Dev) (k p n addr epoch : Nat) (ok : Bool) (q : Nat) :
    (d.weightShown k p n addr epoch ok).panel q = d.panel q := by
  cases ok <;> rfl

/-- The arrival binds the slot anew, no longer loading, and shows the result. -/
theorem Dev.loadwComplete_binds {n a : Nat} {b : Bind} (bound : ((d.panel p).slot n).bind = some b) (loading : b.loading = some a)
    (idle : d.memBusy a (64 + 2 * planeWords (d.pGang p)) = false) :
    ∃ (e : Dev) (b' : Bind) (plane : Tab Cell) (epoch : Nat) (ok : Bool),
      d.loadwComplete p n = (e.setSlot p n { bind := some b', plane := plane }).weightShown (p / 8) p n a epoch ok ∧
      b'.loading = none ∧ b'.tag = b.tag := by
  rw [Dev.loadwComplete]
  dsimp only
  rw [bound]
  dsimp only
  rw [loading]
  exact ⟨_, _, _, _, _, if_neg (ne_true_of_eq_false idle), rfl, rfl⟩

end

end Sys2Proof.Machine
end

section
/-! PROOFS. What leaves a panel, and the end of a weight load (R151, R174, R217, R231). -/
open Sys2Proof Sys2Proof.Machine Sys2Proof.Safety

/-- Settles O21: each command by what it finds in the port, the promotion buffer and the slot. -/
theorem planesLeaveThePanelInOrder : Obligations.PlanesLeaveThePanelInOrder := by
  unfold Obligations.PlanesLeaveThePanelInOrder
  intro s p hp hup d x
  refine ⟨fun op shape gang cells c partner rest oldest room => ?_, fun n b cells running => ?_, fun n b a _ bound loading busy => ?_,
    fun n b a hn bound loading idle => ?_⟩
  · exact panel_acts hp hup rfl (Dev.planeBufferFree_leaves oldest room)
  · exact panel_acts hp hup rfl (Dev.promoteAddComplete_ends running)
  · exact panel_acts hp hup rfl (Dev.loadwComplete_waits bound loading busy)
  · obtain ⟨e, b', plane, epoch, ok, acts, done, tag⟩ := Dev.loadwComplete_binds bound loading idle
    refine ⟨_, panel_acts hp hup rfl acts, b', ?_, done, tag⟩
    rw [Dev.irqSettle_panel, Dev.weightShown_panel, Dev.setSlot_slot_same]

end

section
/-! SUPPORT. The control syllables and commands that direct a panel's flow (R154, R159 to R166, R182, R184). -/
namespace Sys2Proof.Machine
open Sys2Proof.Safety

section
variable {d : Dev} {p : Nat}

/-! ### The close point (R182, R184) -/

theorem Dev.closePoint_none (h : (d.panel p).closing = none) : d.closePoint p = d := by rw [Dev.closePoint, h]

theorem Dev.closeHeld_none (h : (d.panel p).closing = none) : d.closeHeld p = false := by rw [Dev.closeHeld, h]; rfl

/-! ### FMARK (R159) -/

/-- FMARK at an island where the marker of the next frame has arrived: the panel's frame becomes `f`. -/
def Dev.fmarkMoved (d : Dev) (p f : Nat) : Dev :=
  let e := if d.get (F.PNL_CFG_PHASE p) = 1 then d.phaseLoad p f else d
  ((e.put (F.PNL_FRAME_FRAME p) f).updPanel p fun y =>
    { y with closing := if e.closesAt p f then some f else none, marked := true }).frameMoved (p / 8)

/-- What FMARK does: it waits at a held close point or for the frame marker, or makes the frame move on. -/
def Dev.fmarkEffect (d : Dev) (p : Nat) : Ctl :=
  if d.closeHeld p then .hold
  else
    let d := d.closePoint p
    match (d.isl (p / 8)).marked with
    | none => .wait false
    | some m => if m < d.pFrame p + 1 then .wait false else .done (d.fmarkMoved p (d.pFrame p + 1))

theorem Dev.fmark_eq (d : Dev) (p : Nat) : d.fmark p = d.control p 0x15 fun d => d.fmarkEffect p := rfl

theorem Dev.fmarkEffect_moves {m : Nat} (noClose : (d.panel p).closing = none) (marked : (d.isl (p / 8)).marked = some m)
    (arrived : d.pFrame p + 1 ≤ m) : d.fmarkEffect p = .done (d.fmarkMoved p (d.pFrame p + 1)) := by
  rw [Dev.fmarkEffect, if_neg (ne_true_of_eq_false (Dev.closeHeld_none noClose)), Dev.closePoint_none noClose]
  dsimp only
  rw [marked]
  exact if_neg (Nat.not_lt.mpr arrived)

theorem Dev.fmarkEffect_waits (noClose : (d.panel p).closing = none)
    (h : (d.isl (p / 8)).marked = none ∨ ∃ m, (d.isl (p / 8)).marked = some m ∧ m < d.pFrame p + 1) : d.fmarkEffect p = .wait false := by
  rw [Dev.fmarkEffect, if_neg (ne_true_of_eq_false (Dev.closeHeld_none noClose)), Dev.closePoint_none noClose]
  dsimp only
  rcases h with unmarked | ⟨m, marked, early⟩
  · rw [unmarked]
  · rw [marked]
    exact if_pos early

/-! ### SERVICE_ENTRY (R160, R161) -/

theorem Dev.serviceEntry_drain {f : Nat} (live : d.canIssue p = true) (due : d.serviceDue p = 2) (atMark : (d.panel p).atMark = some f) :
    d.serviceEntry p = ((d.setPanel p { d.panel p with doneDrain := some f }).showPend p).enterService p 2
      ⟨2, f, none, false, d.get (F.PNL_PC_PC p), (d.panel p).ti, (d.panel p).ts, (d.panel p).hold⟩ [f % 2 ^ 32, f / 2 ^ 32, 0, 0]
      (d.panel p).elig := by
  rw [Dev.serviceEntry, live]
  dsimp only
  rw [due, atMark]
  rfl

theorem Dev.serviceEntry_swap {f : Nat} (live : d.canIssue p = true) (due : d.serviceDue p = 3) (atMark : (d.panel p).atMark = some f) :
    d.serviceEntry p = ((d.setPanel p { d.panel p with doneSwap := some f }).showPend p).enterService p 3
      ⟨3, f, none, false, d.get (F.PNL_PC_PC p), (d.panel p).ti, (d.panel p).ts, (d.panel p).hold⟩ [f % 2 ^ 32, f / 2 ^ 32, 1, 0]
      (d.panel p).elig := by
  rw [Dev.serviceEntry, live]
  dsimp only
  rw [due, atMark]
  rfl

/-! ### SLOT_WAIT_EXPIRE (R164 to R166) -/

theorem Dev.slotWaitExpire_early {m l : Nat} (hold : (d.panel p).hold = some (m, l)) (early : m < l) : d.slotWaitExpire p = d := by
  rw [Dev.slotWaitExpire]
  dsimp only
  rw [hold]
  exact if_pos (by simp [early])

/-- The registers in which the expiry of panel p counts and shows the operation that it drops (R165). -/
def Dev.conflictShown (d : Dev) (p : Nat) : Dev :=
  let e := (d.flag (F.PNL_EVENTS_SLOT_CONFLICT p)).bump (F.PNL_CONFLICT_CNT_COUNT p) 1
  ((e.put (F.PNL_CONFLICT_INFO_OP p) (e.cop p)).put (F.PNL_CONFLICT_INFO_SLOT p) (ctlSlot (d.ctlWord p))).put (F.PNL_CONFLICT_INFO_TAG p)
    (ctlTag (d.ctlWord p))

/-- Past its wait the operation is dropped, shown in the conflict registers, and its word issues; no other register and no byte of memory
is written before that. -/
theorem Dev.slotWaitExpire_drops {m l : Nat} (live : d.canIssue p = true) (fresh : (d.panel p).ctrl = false)
    (hold : (d.panel p).hold = some (m, l)) (past : l ≤ m) :
    ∃ e : Dev, d.slotWaitExpire p = e.wordIssue p ∧ e.regs = (d.conflictShown p).regs ∧ e.mem = d.mem := by
  have issues : ¬(!d.canIssue p || (d.panel p).ctrl || !decide (l ≤ m)) = true := by simp [live, fresh, past]
  rw [Dev.slotWaitExpire]
  dsimp only
  rw [hold]
  refine ⟨_, if_neg issues, ?_⟩
  cases ((d.panel p).slot (ctlSlot (d.ctlWord p))).bind <;> exact ⟨rfl, rfl⟩

theorem Dev.get_congr {d e : Dev} (h : e.regs = d.regs) (f : RF) : e.get f = d.get f := by
  rw [Dev.get, Dev.rdReg, h, Dev.get, Dev.rdReg]

theorem Dev.conflictShown_conflict (d : Dev) (p : Nat) : (d.conflictShown p).is (F.PNL_EVENTS_SLOT_CONFLICT p) = true := by
  rw [Dev.conflictShown,
    Dev.is_put_of_apart (f := F.PNL_CONFLICT_INFO_TAG p) (g := F.PNL_EVENTS_SLOT_CONFLICT p) _ (.samePanel (by decide)),
    Dev.is_put_of_apart (f := F.PNL_CONFLICT_INFO_SLOT p) (g := F.PNL_EVENTS_SLOT_CONFLICT p) _ (.samePanel (by decide)),
    Dev.is_put_of_apart (f := F.PNL_CONFLICT_INFO_OP p) (g := F.PNL_EVENTS_SLOT_CONFLICT p) _ (.samePanel (by decide)), Dev.bump,
    Dev.is_put_of_apart (f := F.PNL_CONFLICT_CNT_COUNT p) (g := F.PNL_EVENTS_SLOT_CONFLICT p) _ (.samePanel (by decide))]
  exact Dev.is_put_one d (by decide : 0 < 64) rfl

theorem ctlTag_lt (w : Nat) : ctlTag w < 2 ^ 12 := Nat.mod_lt _ (Nat.two_pow_pos 12)

theorem Dev.conflictShown_tag (d : Dev) (p : Nat) : (d.conflictShown p).get (F.PNL_CONFLICT_INFO_TAG p) = ctlTag (d.ctlWord p) :=
  (Dev.get_put_same _ _ _ (by decide : 11 < 64)).trans (Nat.mod_eq_of_lt (ctlTag_lt _))

end

end Sys2Proof.Machine
end

section
/-! PROOFS. The flow of a panel's program (R154, R159, R161, R163, R165, R182, R205). -/
open Sys2Proof Sys2Proof.Machine Sys2Proof.Safety

/-- Settles O16: each syllable by the condition it waits for, the services by what is due at the mark, and the expiry by its wait. -/
theorem panelFlowSyllablesTakeEffect : Obligations.PanelFlowSyllablesTakeEffect := by
  unfold Obligations.PanelFlowSyllablesTakeEffect
  intro s p hp hup d x k
  refine ⟨fun f u named => ⟨fun h present => ?_, fun h absent => ?_, fun h => ?_⟩, fun h noClose ⟨m, marked, arrived⟩ => ?_,
    fun h noClose early => ?_, fun h outside => ?_, fun v h routine free => ?_, fun h => ?_, fun f live due atMark => ?_,
    fun f live due atMark => ?_, fun m l _ _ hold early => ?_, fun m l live fresh hold past => ?_⟩
  · refine control_acts_done hp hup rfl h rfl ?_
    rw [named]
    exact if_pos present
  · refine control_acts_wait hp hup rfl h rfl ?_
    rw [named]
    exact if_neg (ne_true_of_eq_false absent)
  · refine control_acts_done hp hup rfl h rfl ?_
    rw [named]
  · exact control_acts_done hp hup rfl h rfl (Dev.fmarkEffect_moves noClose marked arrived)
  · exact control_acts_wait hp hup rfl h rfl (Dev.fmarkEffect_waits noClose early)
  · refine control_acts_fault hp hup rfl h rfl ?_
    rw [outside]
  · have notHeld : ¬(decide (v.kind = 3) && d.closeHeld p) = true := by
      rw [Bool.and_eq_true, decide_eq_true_eq]
      exact fun ⟨swap, held⟩ => ne_true_of_eq_false (free swap) held
    refine control_acts_done hp hup rfl h rfl ?_
    rw [routine]
    exact if_neg notHeld
  · exact control_acts_stop hp hup rfl h rfl rfl
  · exact panel_acts hp hup rfl (Dev.serviceEntry_drain live due atMark)
  · exact panel_acts hp hup rfl (Dev.serviceEntry_swap live due atMark)
  · exact panel_acts hp hup rfl (Dev.slotWaitExpire_early hold early)
  · obtain ⟨e, drops, regs, mem⟩ := Dev.slotWaitExpire_drops live fresh hold past
    refine ⟨_, panel_acts hp hup rfl drops, e, rfl, ?_, ?_, fun a => ?_⟩
    · rw [Dev.is_congr regs, d.conflictShown_conflict p]
    · rw [Dev.get_congr regs, d.conflictShown_tag p]
    · rw [Dev.rdByte, mem, Dev.rdByte]

end

section
/-! SUPPORT. The array syllables of lags and beams (R155, R164, R167, R208, R216 to R220, R226). -/
namespace Sys2Proof.Machine
open Sys2Proof.Safety

/-! ### An array syllable of lags or beams that issues -/

/-- Only ACC and RETR read phase entries (R193). -/
theorem Dev.phaseFor_of_aop {d : Dev} {p : Nat} (h : 3 ≤ d.aop p) : d.phaseFor p = d := by
  rw [Dev.phaseFor]
  split
  · rfl
  · split
    · omega
    · omega
    · rfl

section
variable {c : Instr} {s : State} {p aop : Nat} {f : Dev → Arr} (hp : p < 64) (h : upIsl s (p / 8))
  (hc : exec c s = unitOk (decide (p < 64)) (s.runIsl (p / 8) fun d => d.array p aop f)) (hi : ArrayIssues s.dev p aop)
  (lagOrBeam : 3 ≤ aop ∧ aop ≤ 6) (noClose : (s.dev.panel p).closing = none)
include hp h hc hi lagOrBeam noClose

/-- A lag or beam operation that takes effect is counted, and the sequencer goes on. -/
theorem array_acts_done {e : Dev} (he : f s.dev = .done e) : Acts c s (arrayDone s.dev e p aop) := by
  have same : s.dev.phaseFor p = s.dev := Dev.phaseFor_of_aop (hi.isAop ▸ lagOrBeam.1)
  refine panel_acts hp h hc ?_
  rw [Dev.array_issue hi (by omega) lagOrBeam.2, same, Dev.closePoint_none noClose, he]

/-- A lag or beam operation that faults stops the panel with its code. -/
theorem array_acts_fault {code : Nat} (he : f s.dev = .fault code) : Acts c s ((s.dev.tick p).panelFault p code) := by
  have same : s.dev.phaseFor p = s.dev := Dev.phaseFor_of_aop (hi.isAop ▸ lagOrBeam.1)
  refine panel_acts hp h hc ?_
  rw [Dev.array_issue hi (by omega) lagOrBeam.2, same, Dev.closePoint_none noClose, he]

end

/-! ### Insole bytes without upsets (R208) -/

theorem Dev.badIn_of_good {d : Dev} (good : d.insoleBad = []) (k off gang n : Nat) (keeps : Nat → Bool) : d.badIn k off gang n keeps = [] := by
  simp [Dev.badIn, good]

theorem Dev.parityVerdicts_nil (d : Dev) (k : Nat) : d.parityVerdicts k [] = d := rfl

/-! ### The lag chain (R167) -/

section
variable {d : Dev} {p : Nat}

/-- The lag chain of panel p after the clear and the shift of a lag operation whose column operand stands at `col`. -/
def Dev.lagChain (d : Dev) (p col : Nat) (clr shift : Bool) : Tab (Int × Int) :=
  let c := if clr then [] else (d.panel p).chain
  if shift then chainShift (0, 0) (planeWords (d.pGang p)) c ((d.fetchVec (p / 8) col (d.pGang p) 1).getD 0 (0, 0)) else c

theorem Dev.crossFree_panel (d : Dev) (gang : Nat) (crosses : Nat → Bool) (prod : Nat → Int × Int) (q : Nat) :
    (d.crossFree gang crosses prod).1.panel q = d.panel q := by
  rw [Dev.crossFree]
  split <;> rfl

/-- Accumulating changes the slot alone. -/
theorem Dev.correlate_chain (d : Dev) (p n : Nat) (b : Bind) (sign : Int) (prod : Nat → Int × Int) :
    ((d.correlate p n b sign prod).panel p).chain = (d.panel p).chain := by
  have slot (v : SlotSt) : ((d.setSlot p n v).panel p).chain = (d.panel p).chain := by rw [Dev.setSlot, Dev.updPanel_same]
  rw [Dev.correlate]
  dsimp only
  split
  · split <;> exact slot _
  · exact slot _

theorem Dev.lag_beyond (beyond : d.slotLimit p ≤ d.arrSlot p) (clr shift mac : Bool) : d.lag p clr shift mac = .fault 1 := if_pos beyond

theorem Dev.lag_unbound (below : d.arrSlot p < d.slotLimit p) (free : ((d.panel p).slot (d.arrSlot p)).bind = none) (clr shift mac : Bool) :
    d.lag p clr shift mac = .done (d.unbound p) := by
  rw [Dev.lag, if_neg (Nat.not_le.mpr below)]
  dsimp only
  rw [free]

section
variable {b : Bind} (below : d.arrSlot p < d.slotLimit p) (bound : ((d.panel p).slot (d.arrSlot p)).bind = some b)
include below bound

theorem Dev.lag_outside (outside : inInsole (b.rowOff + (d.panel p).ti * (d.panel p).ts) (d.pGang p) 1 = false ∨
      inInsole (b.colOff + (d.panel p).ti * (d.panel p).ts) (d.pGang p) 1 = false) (clr shift mac : Bool) :
    d.lag p clr shift mac = .fault 4 := by
  rw [Dev.lag, if_neg (Nat.not_le.mpr below)]
  dsimp only
  rw [bound]
  refine if_pos ?_
  rcases outside with row | col
  · simp [row]
  · simp [col]

/-- A lag operation completes; where no Insole byte is bad it leaves the chain cleared and shifted, and without accumulating it leaves
the slots. -/
theorem Dev.lag_completes (row : inInsole (b.rowOff + (d.panel p).ti * (d.panel p).ts) (d.pGang p) 1 = true)
    (col : inInsole (b.colOff + (d.panel p).ti * (d.panel p).ts) (d.pGang p) 1 = true) (clr shift mac : Bool) :
    ∃ e, d.lag p clr shift mac = .done e ∧ (d.insoleBad = [] →
      (e.panel p).chain = d.lagChain p (b.colOff + (d.panel p).ti * (d.panel p).ts) clr shift ∧
      (mac = false → (e.panel p).slots = (d.panel p).slots)) := by
  rw [Dev.lag, if_neg (Nat.not_le.mpr below)]
  dsimp only
  rw [bound]
  refine ⟨_, if_neg (by simp [row, col]), fun good => ?_⟩
  simp only [Dev.badIn_of_good good, ite_self, List.append_nil, Dev.parityVerdicts_nil]
  cases mac with
  | false => rw [if_neg (by decide), Dev.setPanel_same]; exact ⟨rfl, fun _ => rfl⟩
  | true => rw [if_pos rfl, Dev.correlate_chain, Dev.crossFree_panel, Dev.setPanel_same]; exact ⟨rfl, nofun⟩

end

/-! ### Beam operations (R218, R226) -/

theorem Dev.updIsl_panel (d : Dev) (k : Nat) (f : IslSt → IslSt) (p : Nat) : (d.updIsl k f).panel p = d.panel p := rfl

theorem Dev.emitStep_panel (d : Dev) (p q : Nat) : (d.emitStep p).panel q = d.panel q := by
  rw [Dev.emitStep]
  split <;> rfl

/-- EMIT advances A11 modulo 2^32, as A9 and A11 stood before an operation that writes no register. -/
theorem Dev.emitStep_a11 {d e : Dev} (h : e.regs = d.regs) (p : Nat) :
    (e.emitStep p).pA p 11 = if bitOf (d.pA p 9) 1 then (d.pA p 11 + 1) % 2 ^ 32 else d.pA p 11 := by
  have same (r : Nat) : e.pA p r = d.pA p r := Dev.get_congr h _
  rw [Dev.emitStep, same 9]
  split
  · rw [Dev.pA_setA_same, Nat.mod_mod, same 11]
  · exact same 11

theorem Dev.beamOp_beyond (beyond : d.slotLimit p ≤ d.arrSlot p) (slot2 : Option Nat) : d.beamOp p slot2 = .fault 1 :=
  if_pos (by simp [beyond])

theorem Dev.beamOp_unbound (below : d.arrSlot p < d.slotLimit p) {slot2 : Option Nat} (below2 : ∀ t, slot2 = some t → t < d.slotLimit p)
    (free : ((d.panel p).slot (d.arrSlot p)).bind = none) : d.beamOp p slot2 = .done ((d.unbound p).emitStep p) := by
  unfold Dev.beamOp
  dsimp only
  rw [if_neg (by cases slot2 <;> simp [below, below2]), free]

/-- A beam operation completes: it writes no register before EMIT unless the powers go to the reduction unit, and without a SLOT2 it
leaves the slots. -/
theorem Dev.beamOp_completes {b : Bind} (below : d.arrSlot p < d.slotLimit p) {slot2 : Option Nat}
    (below2 : ∀ t, slot2 = some t → t < d.slotLimit p) (bound : ((d.panel p).slot (d.arrSlot p)).bind = some b)
    (bound2 : ∀ t, slot2 = some t → ((d.panel p).slot t).bind ≠ none)
    (inside : inInsole (b.rowOff + (d.panel p).ti * (d.panel p).ts) (d.pGang p) (planeSide (d.pGang p)) = true) :
    ∃ (e : Dev) (hit : List Nat), d.beamOp p slot2 = .done ((e.emitStep p).parityVerdicts (p / 8) hit) ∧ (d.insoleBad = [] → hit = []) ∧
      (slot2 = none ∨ d.get (F.ISL_RED_CFG_SRC (p / 8)) ≠ 2 → e.regs = d.regs) ∧
      (slot2 = none → (e.panel p).slots = (d.panel p).slots) := by
  unfold Dev.beamOp
  dsimp only
  rw [if_neg (by cases slot2 <;> simp [below, below2]), bound]
  dsimp only
  rw [if_neg (by cases slot2 <;> simp [bound2])]
  refine ⟨_, _, if_neg (by simp [inside]), fun good => Dev.badIn_of_good good _ _ _ _ _, fun quiet => ?_, fun alone => ?_⟩
  · cases slot2 with
    | none => split <;> rfl
    | some t =>
      have notOffered := quiet.resolve_left nofun
      simp only [apply_ite Dev.regs, Dev.updIsl_regs, ite_self, Dev.setSlot, Dev.updPanel_regs]
      exact if_neg notOffered
  · subst alone
    dsimp only
    rw [apply_ite (Dev.panel · p), Dev.updIsl_panel, ite_self, Dev.setPanel_same]

end

end Sys2Proof.Machine
end

section
/-! PROOFS. The array syllables of lags and beams (R155, R164, R167, R218, R226). -/
open Sys2Proof Sys2Proof.Machine Sys2Proof.Safety

/-- Settles O19: the slots decide between a fault, an unbound operation and one that completes, and what a completed operation leaves
is read off it. -/
theorem lagAndBeamSyllablesTakeEffect : Obligations.LagAndBeamSyllablesTakeEffect := by
  unfold Obligations.LagAndBeamSyllablesTakeEffect
  intro s p hp hup d w x n m k gang ro co next11
  have noSlot2 (P : Nat → Prop) : ∀ t, (none : Option Nat) = some t → P t := nofun
  have slot2 {P : Nat → Prop} (h : P m) : ∀ t, some m = some t → P t := fun t ht => Option.some.inj ht ▸ h
  refine ⟨fun h => panel_acts hp hup rfl (Dev.array_nop h _),
    fun noClose below => ⟨fun free => ⟨fun h => ?_, fun h => ?_, fun h => ?_, fun h below2 => ?_⟩,
      fun b bound row col => ⟨fun h => ?_, fun h => ?_⟩, fun b bound outside => ⟨fun h => ?_, fun h => ?_⟩,
      fun b bound inside => ⟨fun h => ?_, fun h below2 bound2 => ?_⟩⟩,
    fun noClose => ⟨fun e h done => ?_, fun e h done => ?_, fun e h done => ?_, fun e h done => ?_, fun c h fault => ?_, fun c h fault => ?_⟩,
    fun beyond => ⟨Dev.lag_beyond beyond _ _ _, Dev.beamOp_beyond beyond _⟩⟩
  · exact array_acts_done hp hup rfl h (by decide) noClose (Dev.lag_unbound below free _ _ _)
  · exact array_acts_done hp hup rfl h (by decide) noClose (Dev.lag_unbound below free _ _ _)
  · exact array_acts_done hp hup rfl h (by decide) noClose (Dev.beamOp_unbound below (noSlot2 _) free)
  · exact array_acts_done hp hup rfl h (by decide) noClose (Dev.beamOp_unbound below (slot2 below2) free)
  · obtain ⟨e, done, leaves⟩ := Dev.lag_completes below bound row col (bitOf w 20) (bitOf w 21) true
    exact ⟨e, array_acts_done hp hup rfl h (by decide) noClose done, fun good => (leaves good).1⟩
  · obtain ⟨e, done, leaves⟩ := Dev.lag_completes below bound row col (bitOf w 20) true false
    exact ⟨e, array_acts_done hp hup rfl h (by decide) noClose done, fun good => (leaves good).imp_right fun slots => slots rfl⟩
  · exact array_acts_fault hp hup rfl h (by decide) noClose (Dev.lag_outside below bound outside _ _ _)
  · exact array_acts_fault hp hup rfl h (by decide) noClose (Dev.lag_outside below bound outside _ _ _)
  · obtain ⟨e, hit, done, noHit, regs, slots⟩ := Dev.beamOp_completes below (noSlot2 _) bound (noSlot2 _) inside
    refine ⟨_, array_acts_done hp hup rfl h (by decide) noClose done, fun good => ?_⟩
    rw [noHit good, Dev.parityVerdicts_nil, Dev.emitStep_a11 (regs (.inl rfl)), Dev.emitStep_panel]
    exact ⟨rfl, slots rfl⟩
  · obtain ⟨e, hit, done, noHit, regs, -⟩ := Dev.beamOp_completes below (slot2 below2) bound (slot2 bound2) inside
    refine ⟨_, array_acts_done hp hup rfl h (by decide) noClose done, fun good notReduced => ?_⟩
    rw [noHit good, Dev.parityVerdicts_nil, Dev.emitStep_a11 (regs (.inr notReduced))]
  · exact array_acts_done hp hup rfl h (by decide) noClose done
  · exact array_acts_done hp hup rfl h (by decide) noClose done
  · exact array_acts_done hp hup rfl h (by decide) noClose done
  · exact array_acts_done hp hup rfl h (by decide) noClose done
  · exact array_acts_fault hp hup rfl h (by decide) noClose fault
  · exact array_acts_fault hp hup rfl h (by decide) noClose fault

end

section
/-! SUPPORT. The verdict unit (R200, R201, R203, R215): which frame a verdict word names, the four answers of its checks, what each leaves
in the verdict counters and flags, and what the handling of a verdict leaves unchanged. -/
namespace Sys2Proof.Machine
open Sys2Proof.Safety

/-- A command of compute island k, where the island takes it. -/
theorem isl_acts {c : Instr} {s : State} {k : Nat} {f : Dev → Dev} {e : Dev} (hk : k < 8) (h : upIsl s k)
    (hc : exec c s = unitOk (decide (k < 8)) (s.runIsl k f)) (he : f s.dev = e) : Acts c s e := by
  rw [Acts, hc, decide_eq_true hk, unitOk_true, State.runIsl_of_up h, he]

/-! ### The frame of a verdict word (R200) -/

theorem Dev.verdictFrame_low (d : Dev) (k lsb : Nat) : (d.verdictFrame k lsb - lsb) % 65536 = 0 := by
  unfold Dev.verdictFrame
  dsimp only
  omega

theorem Dev.verdictFrame_near (d : Dev) (k lsb : Nat) :
    (d.islFrame k : Int) - 32768 ≤ d.verdictFrame k lsb ∧ d.verdictFrame k lsb < (d.islFrame k : Int) + 32768 := by
  unfold Dev.verdictFrame
  dsimp only
  omega

/-! ### The verdict counters and flags (R215) -/

theorem Dev.get_lt (d : Dev) (f : RF) : d.get f < 2 ^ (f.hi + 1 - f.lo) := Nat.mod_lt _ (Nat.two_pow_pos _)

/-- From d to e the verdict counter of code j goes up by one and the other three of R201 stay. -/
def Dev.CountsVerdict (d e : Dev) (k j : Nat) : Prop :=
  ∀ c, c < 4 → e.get (F.ISL_VERDICT_CNT_COUNT k c) = (d.get (F.ISL_VERDICT_CNT_COUNT k c) + if c = j then 1 else 0) % 2 ^ 32

section
variable {d e : Dev} {k j : Nat}

theorem Dev.bump_countsVerdict (d : Dev) (k j : Nat) : d.CountsVerdict (d.bump (F.ISL_VERDICT_CNT_COUNT k j) 1) k j := by
  intro c _
  by_cases hcj : c = j
  · subst hcj
    rw [if_pos rfl]
    exact Dev.get_put_same _ _ _ (by decide : 31 < 64)
  · have apart : (R.ISL_VERDICT_CNT k j).addr ≠ (R.ISL_VERDICT_CNT k c).addr := by simp only [R.ISL_VERDICT_CNT]; omega
    rw [if_neg hcj, Dev.bump, Dev.get_put_other _ _ _ _ apart]
    exact (Nat.mod_eq_of_lt (d.get_lt (F.ISL_VERDICT_CNT_COUNT k c))).symm

theorem Dev.CountsVerdict.congr {g : Dev} (h : d.CountsVerdict e k j) (regs : g.regs = e.regs) : d.CountsVerdict g k j :=
  fun c hc => (Dev.get_congr regs _).trans (h c hc)

theorem Dev.CountsVerdict.put {f : RF} (h : d.CountsVerdict e k j) (apart : ∀ c, c < 4 → f.Apart (F.ISL_VERDICT_CNT_COUNT k c)) (v : Nat) :
    d.CountsVerdict (e.put f v) k j :=
  fun c hc => (Dev.get_put_of_apart e (apart c hc) v).trans (h c hc)

/-- Fields of one island are apart when their registers lie in blocks of other offsets. -/
theorem RF.Apart.sameIsland {k a b c w w' r r' hi lo hi' lo' : Nat} (h : a < b) :
    RF.Apart ⟨⟨a + k * 0x100000, w, r⟩, hi, lo⟩ ⟨⟨b + k * 0x100000 + c, w', r'⟩, hi', lo'⟩ :=
  .inl fun (e : a + k * 0x100000 = b + k * 0x100000 + c) => by omega

theorem Dev.CountsVerdict.flag_verdictEvents {b : Nat} (h : d.CountsVerdict e k j) :
    d.CountsVerdict (e.flag ⟨R.ISL_VERDICT_EVENTS k, b, b⟩) k j :=
  h.put (fun _ _ => .sameIsland (by decide)) 1

theorem Dev.CountsVerdict.showQueued (h : d.CountsVerdict e k j) : d.CountsVerdict (e.showQueued k) k j :=
  h.put (fun _ _ => .sameIsland (by decide)) _

end

/-! ### What a change of an island leaves (R203, R211) -/

theorem Dev.put_isl (d : Dev) (f : RF) (v k : Nat) : (d.put f v).isl k = d.isl k := rfl

theorem Dev.updIsl_verdicts (d : Dev) (j k : Nat) {f : IslSt → IslSt} (keeps : ∀ x, (f x).verdicts = x.verdicts) :
    ((d.updIsl j f).isl k).verdicts = (d.isl k).verdicts := by
  by_cases h : j = k
  · rw [h, Dev.updIsl_same, keeps]
  · rw [Dev.updIsl_other _ _ _ _ h]

theorem Dev.updIsl_icfg (d : Dev) (j k n : Nat) (g : RF) {f : IslSt → IslSt} (keeps : ∀ x, (f x).outgoing = x.outgoing) :
    (d.updIsl j f).icfg k n g = d.icfg k n g := by
  have outgoing : ((d.updIsl j f).isl k).outgoing = (d.isl k).outgoing := by
    by_cases h : j = k
    · rw [h, Dev.updIsl_same, keeps]
    · rw [Dev.updIsl_other _ _ _ _ h]
  rw [Dev.icfg, outgoing, Dev.updIsl_get, Dev.icfg]

theorem Dev.icfg_put_of_apart (d : Dev) {f g : RF} (h : f.Apart g) (v k n : Nat) : (d.put f v).icfg k n g = d.icfg k n g := by
  rw [Dev.icfg, Dev.get_put_of_apart d h, Dev.put_isl, Dev.icfg]

/-! ### The panels of a granule's mask (R203) -/

/-- The field of RETR_MAP that lists the panels of a granule's corner-turn index. -/
def Granule.maskField (gr : Granule) (k : Nat) : RF :=
  match gr.u % 4 with
  | 0 => F.ISL_RETR_MAP_MASK0 k (gr.u / 4)
  | 1 => F.ISL_RETR_MAP_MASK1 k (gr.u / 4)
  | 2 => F.ISL_RETR_MAP_MASK2 k (gr.u / 4)
  | _ => F.ISL_RETR_MAP_MASK3 k (gr.u / 4)

theorem Granule.maskField_reg (gr : Granule) (k : Nat) : (gr.maskField k).reg = R.ISL_RETR_MAP k (gr.u / 4) := by
  unfold Granule.maskField
  split <;> rfl

theorem Dev.granuleMask_eq (d : Dev) (k : Nat) (gr : Granule) :
    d.granuleMask k gr = (List.range 8).filter fun i => bitOf (d.icfg k gr.frame (gr.maskField k)) i && d.pLive (8 * k + i) := rfl

/-- The verdict counters lie apart from RETR_MAP and from the states of the island's panels. -/
theorem Dev.granuleMask_bump (d : Dev) {k j : Nat} (hj : j < 4) (gr : Granule) :
    (d.bump (F.ISL_VERDICT_CNT_COUNT k j) 1).granuleMask k gr = d.granuleMask k gr := by
  have map : (F.ISL_VERDICT_CNT_COUNT k j).Apart (gr.maskField k) := by
    refine .inl ?_
    rw [gr.maskField_reg k]
    simp only [F.ISL_VERDICT_CNT_COUNT, R.ISL_VERDICT_CNT, R.ISL_RETR_MAP]
    omega
  rw [Dev.granuleMask_eq, Dev.granuleMask_eq, Dev.bump, Dev.icfg_put_of_apart d map]
  refine List.filter_congr fun i hi => ?_
  have state : (F.ISL_VERDICT_CNT_COUNT k j).Apart (F.PNL_STATUS_STATE (8 * k + i)) := by
    have : i < 8 := List.mem_range.mp hi
    refine .inl ?_
    simp only [F.ISL_VERDICT_CNT_COUNT, R.ISL_VERDICT_CNT, F.PNL_STATUS_STATE, R.PNL_STATUS]
    omega
  rw [Dev.pLive, Dev.pState, Dev.get_put_of_apart d state, Dev.pLive, Dev.pState]

/-! ### What each answer of the checks leaves, also after the interrupt gateways have followed it (R201, R215) -/

section
variable {d e : Dev} {k j : Nat}

theorem Dev.CountsVerdict.irqSettle (h : d.CountsVerdict e k j) : d.CountsVerdict e.irqSettle k j := h.congr e.irqSettle_regs

theorem Dev.CountsVerdict.event (h : d.CountsVerdict e k j) (f : RF) (i : Nat) (args : List Nat) : d.CountsVerdict (e.event f i args) k j :=
  fun c hc => (e.event_get f i args _).trans (h c hc)

theorem Dev.CountsVerdict.updIsl (h : d.CountsVerdict e k j) (i : Nat) (f : IslSt → IslSt) : d.CountsVerdict (e.updIsl i f) k j :=
  h.congr (e.updIsl_regs i f)

end

/-- The device after a verdict that is rejected. -/
def Dev.afterRejected (d : Dev) (k : Nat) : Dev :=
  (d.bump (F.ISL_VERDICT_CNT_COUNT k vRejected) 1).flag (F.ISL_VERDICT_EVENTS_REJECTED k)

/-- The device after a stale verdict of stream u, channel group g and frame n. -/
def Dev.afterStale (d : Dev) (k u g : Nat) (n : Int) : Dev :=
  ((d.bump (F.ISL_VERDICT_CNT_COUNT k vStale) 1).flag (F.ISL_VERDICT_EVENTS_STALE k)).event (F.ISL_VERDICT_EVENTS_STALE k) k
    [u, g, ofInt 64 n]

/-- The device after a verdict accepted with the queue full: OVERFLOW in every panel of the granule's mask. -/
def Dev.afterOverflow (d : Dev) (k : Nat) (gr : Granule) : Dev :=
  ((d.bump (F.ISL_VERDICT_CNT_COUNT k vAccepted) 1).occAdd k
    (.granule gr (d.granuleMask k gr) ((d.granuleMask k gr).map fun m => (m, cOverflow)))).flag (F.ISL_VERDICT_EVENTS_OVERFLOW k)

/-- The device after a verdict accepted with room in the queue: entered without an outcome, it waits. -/
def Dev.afterQueued (d : Dev) (k : Nat) (gr : Granule) : Dev :=
  (((d.bump (F.ISL_VERDICT_CNT_COUNT k vAccepted) 1).occAdd k (.granule gr [] [])).updIsl k
    fun x => { x with verdicts := x.verdicts ++ [gr] }).showQueued k

theorem Dev.afterRejected_leaves (d : Dev) (k : Nat) :
    d.CountsVerdict (d.afterRejected k).irqSettle k vRejected ∧ (d.afterRejected k).irqSettle.is (F.ISL_VERDICT_EVENTS_REJECTED k) = true ∧
      (d.afterRejected k).irqSettle.isls = d.isls := by
  refine ⟨((d.bump_countsVerdict k vRejected).flag_verdictEvents (b := 0)).irqSettle, ?_, rfl⟩
  rw [Dev.irqSettle_is]
  exact Dev.is_put_one _ (by decide : 0 < 64) rfl

theorem Dev.afterStale_leaves (d : Dev) (k u g : Nat) (n : Int) :
    d.CountsVerdict (d.afterStale k u g n).irqSettle k vStale ∧ (d.afterStale k u g n).irqSettle.is (F.ISL_VERDICT_EVENTS_STALE k) = true ∧
      (d.afterStale k u g n).irqSettle.isls = d.isls := by
  refine ⟨(((d.bump_countsVerdict k vStale).flag_verdictEvents (b := 1)).event _ _ _).irqSettle, ?_, rfl⟩
  rw [Dev.irqSettle_is, Dev.afterStale, Dev.is, Dev.event_get]
  exact Dev.is_put_one _ (by decide : 1 < 64) rfl

theorem Dev.afterOverflow_leaves (d : Dev) (k : Nat) (gr : Granule) :
    d.CountsVerdict (d.afterOverflow k gr).irqSettle k vAccepted ∧
      (d.afterOverflow k gr).irqSettle.is (F.ISL_VERDICT_EVENTS_OVERFLOW k) = true ∧
      ((d.afterOverflow k gr).irqSettle.isl k).verdicts = (d.isl k).verdicts ∧
      ((d.afterOverflow k gr).irqSettle.isl k).occ =
        (d.isl k).occ ++ [.granule gr (d.granuleMask k gr) ((d.granuleMask k gr).map fun m => (m, cOverflow))] := by
  refine ⟨(((d.bump_countsVerdict k vAccepted).updIsl _ _).flag_verdictEvents (b := 2)).irqSettle, ?_, ?_⟩
  · rw [Dev.irqSettle_is]
    exact Dev.is_put_one _ (by decide : 2 < 64) rfl
  · rw [Dev.irqSettle_isl, Dev.afterOverflow, Dev.flag, Dev.put_isl, Dev.occAdd, Dev.updIsl_same]
    exact ⟨rfl, rfl⟩

theorem Dev.afterQueued_leaves (d : Dev) (k : Nat) (gr : Granule) :
    d.CountsVerdict (d.afterQueued k gr).irqSettle k vAccepted ∧
      ((d.afterQueued k gr).irqSettle.isl k).verdicts = (d.isl k).verdicts ++ [gr] ∧
      ((d.afterQueued k gr).irqSettle.isl k).occ = (d.isl k).occ ++ [.granule gr [] []] := by
  refine ⟨(((d.bump_countsVerdict k vAccepted).updIsl _ _).updIsl _ _).showQueued.irqSettle, ?_⟩
  rw [Dev.irqSettle_isl, Dev.afterQueued, Dev.showQueued, Dev.put_isl, Dev.updIsl_same, Dev.occAdd, Dev.updIsl_same]
  exact ⟨rfl, rfl⟩

/-! ### The four answers of the checks (R201) -/

/-- An accepted verdict for the granule stands in the island's occupancy entries. -/
def IslSt.lists (x : IslSt) (gr : Granule) : Bool := x.occ.any fun i => match i with | .granule g _ _ => g == gr | _ => false

/-- What the checks require of a granule of frame n before they look at its age: a stream, and a channel group of the island's block. -/
def Dev.VerdictFits (d : Dev) (k u g n : Nat) : Prop :=
  u < d.cfg n F.ING_CT_CFG_STREAMS ∧ d.chFirst n k / 16 ≤ g ∧ 16 * g < d.chFirst n k + d.chCount n k

/-- The frame n is before frame 0, beyond the horizon or in a sealed table. -/
def Dev.VerdictStale (d : Dev) (k : Nat) (n : Int) : Prop :=
  n < 0 ∨ n.toNat + d.icfg k n.toNat (F.ISL_VERDICT_CFG_HORIZON k) < d.islFrame k ∨ (d.isl k).sealedFrame n.toNat = true

section
variable {d : Dev} {k u g : Nat} {n : Int}

theorem Dev.verdictFits_refused : (!(u < d.cfg n.toNat F.ING_CT_CFG_STREAMS && d.chFirst n.toNat k / 16 ≤ g &&
    16 * g < d.chFirst n.toNat k + d.chCount n.toNat k)) = true ↔ ¬ d.VerdictFits k u g n.toNat := by
  simp only [Dev.VerdictFits, Bool.not_eq_true', ← Bool.not_eq_true, Bool.and_eq_true, decide_eq_true_eq, and_assoc]

theorem Dev.verdictStale_found : (n < 0 || n.toNat + d.icfg k n.toNat (F.ISL_VERDICT_CFG_HORIZON k) < d.islFrame k ||
    (d.isl k).sealedFrame n.toNat) = true ↔ d.VerdictStale k n := by
  simp only [Dev.VerdictStale, Bool.or_eq_true, decide_eq_true_eq, or_assoc]

theorem Dev.verdictCheck_rejected (h : ¬ d.VerdictFits k u g n.toNat) : d.verdictCheck k u g n = d.afterRejected k :=
  if_pos (Dev.verdictFits_refused.mpr h)

variable (fits : d.VerdictFits k u g n.toNat)
include fits

theorem Dev.verdictCheck_stale (h : d.VerdictStale k n) : d.verdictCheck k u g n = d.afterStale k u g n :=
  (if_neg (mt Dev.verdictFits_refused.mp (not_not_intro fits))).trans (if_pos (Dev.verdictStale_found.mpr h))

variable (recent : ¬ d.VerdictStale k n)
include recent

theorem Dev.verdictCheck_duplicate (h : (d.isl k).lists ⟨n.toNat, u, g⟩ = true) :
    d.verdictCheck k u g n = d.bump (F.ISL_VERDICT_CNT_COUNT k vDuplicate) 1 :=
  (if_neg (mt Dev.verdictFits_refused.mp (not_not_intro fits))).trans <|
    (if_neg (mt Dev.verdictStale_found.mp recent)).trans (if_pos h)

variable (new : ¬ (d.isl k).lists ⟨n.toNat, u, g⟩ = true)
include new

theorem Dev.verdictCheck_overflow (full : 256 ≤ d.verdictsQueued k) :
    d.verdictCheck k u g n = d.afterOverflow k ⟨n.toNat, u, g⟩ := by
  rw [Dev.afterOverflow, ← d.granuleMask_bump (j := vAccepted) (by decide) ⟨n.toNat, u, g⟩]
  exact (if_neg (mt Dev.verdictFits_refused.mp (not_not_intro fits))).trans <|
    (if_neg (mt Dev.verdictStale_found.mp recent)).trans <| (if_neg new).trans (if_pos full)

theorem Dev.verdictCheck_queued (room : d.verdictsQueued k < 256) : d.verdictCheck k u g n = d.afterQueued k ⟨n.toNat, u, g⟩ :=
  (if_neg (mt Dev.verdictFits_refused.mp (not_not_intro fits))).trans <|
    (if_neg (mt Dev.verdictStale_found.mp recent)).trans <| (if_neg new).trans (if_neg (Nat.not_le.mpr room))

end

/-! ### Handling (R203, R311) -/

theorem Dev.setMask_verdicts (d : Dev) (j k : Nat) (gr : Granule) (mask : List Nat) :
    ((d.setMask j gr mask).isl k).verdicts = (d.isl k).verdicts := d.updIsl_verdicts j k fun _ => rfl

theorem Dev.setMask_icfg (d : Dev) (j k n : Nat) (gr : Granule) (mask : List Nat) (f : RF) :
    (d.setMask j gr mask).icfg k n f = d.icfg k n f := d.updIsl_icfg j k n f fun _ => rfl

theorem Dev.takePost_none {d : Dev} {k : Nat} (h : Tab.get [] d.posts k = []) : d.takePost k = d := by rw [Dev.takePost, h]

/-- The device with the posts of island k that stand behind the one taken. -/
def Dev.postsLeft (d : Dev) (k : Nat) (rest : List (Nat × Nat)) : Dev := { d with posts := Tab.set [] d.posts k rest }

theorem Dev.takePost_oldest {d : Dev} {k c v : Nat} {rest : List (Nat × Nat)} (h : Tab.get [] d.posts k = (c, v) :: rest) :
    d.takePost k = (d.postsLeft k rest).verdictPost k v := by
  rw [Dev.takePost, h]
  rfl

theorem Dev.verdictTake_none {d : Dev} {k : Nat} (h : (d.isl k).verdicts = []) : d.verdictTake k = d := by rw [Dev.verdictTake, h]

/-- A post of the island's cores that waits, rejected with no verdict to handle, leaves the posts behind it. -/
theorem Dev.verdictHandle_rejects {d : Dev} {k c v : Nat} {rest : List (Nat × Nat)} (waiting : Tab.get [] d.posts k = (c, v) :: rest)
    (empty : (d.isl k).verdicts = [])
    (unfit : ¬ d.VerdictFits k (bitsOf v 44 32) (bitsOf v 23 16) (d.verdictFrame k (bitsOf v 15 0)).toNat) :
    d.verdictHandle k = (d.postsLeft k rest).afterRejected k := by
  have check : (d.postsLeft k rest).verdictPost k v = (d.postsLeft k rest).afterRejected k :=
    Dev.verdictCheck_rejected unfit
  rw [Dev.verdictHandle, Dev.takePost_oldest waiting, check]
  exact Dev.verdictTake_none empty

/-- The device as the oldest verdict of island k leaves the queue and its mask is set. -/
def Dev.verdictTaken (d : Dev) (k : Nat) (gr : Granule) (rest : List Granule) : Dev :=
  let e := d.updIsl k fun x => { x with verdicts := rest }
  e.setMask k gr (e.granuleMask k gr)

theorem Dev.verdictTake_oldest {d : Dev} {k : Nat} {gr : Granule} {rest : List Granule} (h : (d.isl k).verdicts = gr :: rest) :
    d.verdictTake k = ((d.verdictTaken k gr rest).forL ((d.updIsl k fun x => { x with verdicts := rest }).granuleMask k gr)
      fun e m => e.verdictPanel k gr m).showQueued k := by
  rw [Dev.verdictTake, h]
  rfl

theorem Dev.verdictTaken_verdicts (d : Dev) (k : Nat) (gr : Granule) (rest : List Granule) :
    ((d.verdictTaken k gr rest).isl k).verdicts = rest := by
  rw [Dev.verdictTaken, Dev.setMask_verdicts, Dev.updIsl_same]

theorem Dev.verdictTaken_icfg (d : Dev) (k : Nat) (gr : Granule) (rest : List Granule) (n : Nat) (f : RF) :
    (d.verdictTaken k gr rest).icfg k n f = d.icfg k n f := by
  rw [Dev.verdictTaken, Dev.setMask_icfg]
  exact d.updIsl_icfg k k n f fun _ => rfl

theorem Dev.occOut_icfg (d : Dev) (j k n : Nat) (gr : Granule) (m cause : Nat) (f : RF) :
    (d.occOut j gr m cause).icfg k n f = d.icfg k n f := d.updIsl_icfg j k n f fun _ => rfl

theorem Dev.occOut_verdicts (d : Dev) (j k : Nat) (gr : Granule) (m cause : Nat) :
    ((d.occOut j gr m cause).isl k).verdicts = (d.isl k).verdicts := d.updIsl_verdicts j k fun _ => rfl

theorem Dev.retractPost_verdicts (d : Dev) (p k : Nat) (gr : Granule) : ((d.retractPost p gr).isl k).verdicts = (d.isl k).verdicts := by
  unfold Dev.retractPost
  dsimp only
  split
  · exact d.occOut_verdicts _ _ _ _ _
  · rfl

/-- Whatever comes of a verdict in a panel, the island's queue stays. -/
theorem Dev.verdictPanel_verdicts (d : Dev) (k : Nat) (gr : Granule) (m : Nat) :
    ((d.verdictPanel k gr m).isl k).verdicts = (d.isl k).verdicts := by
  unfold Dev.verdictPanel
  dsimp only
  split
  · exact d.occOut_verdicts _ _ _ _ _
  split
  · exact d.occOut_verdicts _ _ _ _ _
  split
  · exact d.occOut_verdicts _ _ _ _ _
  split
  · exact d.updIsl_verdicts _ _ fun _ => rfl
  · exact d.retractPost_verdicts _ _ _

/-- With RETRACT_EN 0 a panel of the mask takes the outcome NO_RESERVE. -/
theorem Dev.verdictPanel_disabled {d : Dev} {k : Nat} {gr : Granule} (h : d.icfg k gr.frame (F.ISL_VERDICT_CFG_RETRACT_EN k) = 0) (m : Nat) :
    d.verdictPanel k gr m = d.occOut k gr m cNoReserve := if_pos h

theorem Dev.verdictTake_verdicts {d : Dev} {k : Nat} {gr : Granule} {rest : List Granule} (h : (d.isl k).verdicts = gr :: rest) :
    ((d.verdictTake k).isl k).verdicts = rest := by
  rw [Dev.verdictTake_oldest h]
  exact List.foldlRecOn (motive := fun e : Dev => (e.isl k).verdicts = rest) _ _ (d.verdictTaken_verdicts k gr rest) fun e he m _ =>
    (e.verdictPanel_verdicts k gr m).trans he

theorem Dev.verdictTake_panels {d : Dev} {k : Nat} {gr : Granule} {rest : List Granule} (h : (d.isl k).verdicts = gr :: rest)
    (disabled : d.icfg k gr.frame (F.ISL_VERDICT_CFG_RETRACT_EN k) = 0) : (d.verdictTake k).panels = d.panels := by
  rw [Dev.verdictTake_oldest h]
  have fold := List.foldlRecOn
    (motive := fun e : Dev => e.panels = d.panels ∧ e.icfg k gr.frame (F.ISL_VERDICT_CFG_RETRACT_EN k) = 0)
    ((d.updIsl k fun x => { x with verdicts := rest }).granuleMask k gr) (fun e m => e.verdictPanel k gr m)
    (b := d.verdictTaken k gr rest) ⟨rfl, (d.verdictTaken_icfg k gr rest _ _).trans disabled⟩ fun e ⟨panels, off⟩ m _ => by
      rw [Dev.verdictPanel_disabled off]
      exact ⟨panels, (e.occOut_icfg _ _ _ _ _ _ _).trans off⟩
  exact fold.1

end Sys2Proof.Machine
end

section
/-! PROOFS. Verdicts, their checks and their handling (R200, R201, R203, R215). -/
open Sys2Proof Sys2Proof.Machine Sys2Proof.Safety

/-- Settles O46: a post by the first check that applies and what its answer leaves, and the handling by what waits. -/
theorem verdictsAreCheckedAndHandled : Obligations.VerdictsAreCheckedAndHandled := by
  unfold Obligations.VerdictsAreCheckedAndHandled
  intro s k v hk hup d u g n nn gr rejected stale seen counted
  have post {e : Dev} (answer : d.verdictCheck k u g n = e) : Acts (.verdictPost k v) s e := isl_acts hk hup rfl answer
  have handle {e : Dev} (answer : d.verdictHandle k = e) : Acts (.verdictHandle k) s e := isl_acts hk hup rfl answer
  obtain ⟨low, high⟩ := d.verdictFrame_near k (bitsOf v 15 0)
  refine ⟨d.verdictFrame_low k _, low, high, fun unfit => ?_, fun fits old => ?_, fun fits recent known => ?_,
    fun fits recent new full => ?_, fun fits recent new room => ?_, fun empty noPost => ?_, fun gr rest oldest noPost => ?_,
    fun c rest waiting empty unfit => ?_⟩
  · exact ⟨_, post (Dev.verdictCheck_rejected unfit), d.afterRejected_leaves k⟩
  · exact ⟨_, post (Dev.verdictCheck_stale (Classical.not_not.mp fits) old), d.afterStale_leaves k u g n⟩
  · exact post (Dev.verdictCheck_duplicate (Classical.not_not.mp fits) recent known)
  · exact ⟨_, post (Dev.verdictCheck_overflow (Classical.not_not.mp fits) recent new full), d.afterOverflow_leaves k gr⟩
  · exact ⟨_, post (Dev.verdictCheck_queued (Classical.not_not.mp fits) recent new room), d.afterQueued_leaves k gr⟩
  · exact handle (by rw [Dev.verdictHandle, Dev.takePost_none noPost, Dev.verdictTake_none empty])
  · have taken : d.verdictHandle k = d.verdictTake k := by rw [Dev.verdictHandle, Dev.takePost_none noPost]
    exact ⟨_, handle taken, Dev.verdictTake_verdicts oldest, Dev.verdictTake_panels oldest⟩
  · have ⟨counts, _, isls⟩ := (d.postsLeft k rest).afterRejected_leaves k
    exact ⟨_, handle (Dev.verdictHandle_rejects waiting empty unfit), Tab.get_set_same _ _ _ _, counts, isls⟩

end

section
/-! SUPPORT. A completed beam vector of an island whose own state says that it is held (R32, R223): its crossing to egress stays. -/
namespace Sys2Proof.Machine

/-- The island's own mark `held`, not its bit of ISL_RESET, closes its crossing to egress. -/
theorem Dev.sendEgr_of_held {d : Dev} {k : Nat} (h : (d.isl k).held = true) (i : EgrItem) : d.sendEgr k i = d :=
  if_pos (by simp [h])

theorem Dev.updIsl_toEgr (d : Dev) (k : Nat) {f : IslSt → IslSt} (keeps : ∀ x, (f x).toEgr = x.toEgr) :
    ((d.updIsl k f).isl k).toEgr = (d.isl k).toEgr := by
  rw [Dev.updIsl_same, keeps]

/-- Samples for capture go by the crossing to the memory island. -/
theorem Dev.sendMem_toEgr (d : Dev) (k : Nat) (i : MemItem) : ((d.sendMem k i).isl k).toEgr = (d.isl k).toEgr := by
  rw [Dev.sendMem]
  split
  · rfl
  · exact d.updIsl_toEgr k fun _ => rfl

theorem Dev.memFlush_toEgr (d : Dev) (k fuel : Nat) : ((d.memFlush k fuel).isl k).toEgr = (d.isl k).toEgr := by
  induction fuel generalizing d with
  | zero => rfl
  | succ fuel ih =>
    rw [Dev.memFlush]
    split
    · exact (ih _).trans (d.updIsl_toEgr k (f := fun x => { x with toMem := _ }) fun _ => rfl)
    · rfl

theorem Dev.capBeam_toEgr (d : Dev) (k beam n ch t : Nat) (bad : Bool) (re im : Nat) :
    ((d.capBeam k beam n ch t bad re im).isl k).toEgr = (d.isl k).toEgr := by
  rw [Dev.capBeam]
  split
  · exact (Dev.memFlush_toEgr _ k 1).trans (d.sendMem_toEgr k _)
  · rfl

/-- The counts and flags of a completed vector leave the islands, so a held island sends none of its samples to egress. -/
theorem Dev.beamComplete_toEgr_of_held {d : Dev} {k : Nat} (h : (d.isl k).held = true) (e : Emission) :
    ((d.beamComplete k e).isl k).toEgr = (d.isl k).toEgr := by
  rw [Dev.beamComplete]
  dsimp only
  split
  · rfl
  · refine List.foldlRecOn (motive := fun g : Dev => (g.isl k).toEgr = (d.isl k).toEgr) _ _ ?_ fun g hg s _ =>
      (g.capBeam_toEgr k _ _ _ _ _ _ _).trans hg
    rw [Dev.sendEgr_of_held]
    · split <;> rfl
    · split <;> exact h

/-- An emission of beam block 0 without sums. -/
def blankEmission : Emission := { bb := 0, fb := 0, ch := 0, t := 0, bad := false, grp := [], sums := [] }

/-- Island 0 with one emission, its mark `held` set while ISL_RESET holds no island. -/
def heldWithoutReset : Dev := State.reset.dev.updIsl 0 fun x => { x with held := true, emissions := [blankEmission] }

end Sys2Proof.Machine
end

section
/-! PROOFS. Beam vectors and weight commits (R221, R222, R224, R233). -/
open Sys2Proof Sys2Proof.Machine Sys2Proof.Safety

/-- Refutes O47: the statement takes the island as out of reset by its bit of ISL_RESET, and its crossing to egress is closed by the
island's own mark `held`. Where the mark stands without the bit, an emission of a block of a single part completes and its samples do not
reach egress. The statement lacks the premise that the mark follows the bit, as a write of ISL_RESET leaves them (R33). -/
theorem not_beamVectorsAndWeightCommits : ¬ Obligations.BeamVectorsAndWeightCommits := by
  unfold Obligations.BeamVectorsAndWeightCommits
  intro h
  let s : State := { State.reset with dev := heldWithoutReset }
  have hup : upIsl s 0 := ⟨by decide +kernel, by decide +kernel⟩
  have held : (s.dev.isl 0).held = true := by decide +kernel
  have emissions : (s.dev.isl 0).emissions = blankEmission :: [] := by decide +kernel
  have single : s.dev.icfg 0 0 (F.ISL_BEAM_TAB_PARTS_M1 0 0) + 1 = 1 := by decide +kernel
  have open_ : s.dev.egrHeld = false := by decide +kernel
  obtain ⟨-, emission, -⟩ := (h s 0 (by decide)).1 hup
  obtain ⟨completes, sent, -⟩ := emission blankEmission [] emissions
  obtain ⟨t, samples, ht, -, -, -, -, toEgr⟩ := sent single (by decide +kernel)
  obtain rfl := Host.Outcome.next.inj ((completes single).symm.trans ht)
  have claimed := toEgr open_
  rw [Dev.irqSettle_isl, Dev.beamComplete_toEgr_of_held (by rw [Dev.updIsl_same]; exact held), Dev.updIsl_same] at claimed
  exact List.cons_ne_nil _ _ (List.self_eq_append_right.mp claimed)

end

section
/-! SUPPORT. How a command of egress acts, and a lane group of which one lane has room beside a frame that waits (R65, R251). -/
namespace Sys2Proof.Machine
open Sys2Proof.Safety

/-- A command of the egress island for a unit that exists. -/
theorem egr_acts {c : Instr} {s : State} {known : Bool} {f : Dev → Dev} {e : Dev} (unit : known = true) (h : upEgr s)
    (hc : exec c s = unitOk known (s.runEgr f)) (he : f s.dev = e) : Acts c s e := by
  rw [Acts, hc, unit, unitOk_true, State.runEgr_of_up h, he]

/-- A relayed frame of one byte, for queue 0. -/
def oneByteUnit : EgrUnit :=
  { EgrUnit.blank with kind := 5, src := 9, room := 32, parts := [{ off := 0, hdr := [0], bytes := [1] }] }

/-- A frame of one data block that waits at a lane: three of the 32 blocks of its transmit buffer. -/
def oneBlockFrame : TxFrame := { hdr := 0, data := [0], unit := 1, seq := 0, sends := 0, first := 0, sent := false }

/-- Queue 0 of lane group 0 holds a unit of one byte; lane 0, the only lane of the group, is UP with one frame of three blocks in its
transmit buffer. -/
def roomBesideAFrame : Dev :=
  ((((State.reset.dev.put (F.EGR_QUEUE_DEST 0) 1).put (F.LANE_CFG_ROLE 0) roleEgress).put (F.LANE_STATE_STATE 0) stUp).setQueue 0
    [oneByteUnit]).updTx 0 fun t => { t with queue := [oneBlockFrame] }

theorem roomBesideAFrame_deals : ((roomBesideAFrame.egressFrameDeal 0).lane 0).tx.queue.length = 2 := by decide +kernel

end Sys2Proof.Machine
end

section
/-! PROOFS. Egress: arrivals, queues and lane groups (R240 to R253). -/
open Sys2Proof Sys2Proof.Machine Sys2Proof.Safety

/-- Refutes O48: for a frame of n blocks the statement deals to the lanes whose transmit buffer can take 32 · n blocks, a measure in bytes
where the buffer holds 32 blocks (R65), so it passes over every lane at which a frame waits. R251 passes over a lane only where its buffer
cannot take the frame: here a frame of three blocks waits, one of three blocks is due, and the model deals it. -/
theorem not_egressRoutesQueuesAndDeals : ¬ Obligations.EgressRoutesQueuesAndDeals := by
  unfold Obligations.EgressRoutesQueuesAndDeals
  intro h
  let s : State := { State.reset with dev := roomBesideAFrame }
  have hup : upEgr s := ⟨by decide +kernel, by decide +kernel⟩
  obtain ⟨-, -, -, -, -, deals, -⟩ := h s hup
  have turn : s.dev.turnOf 0 = some (0, 1) := by decide +kernel
  have noLane : nextAfter (Tab.get (0, 0, 0) s.dev.egr.turn 0).2.2 (s.dev.groupLanes 0
      (32 * (ceilDiv ((s.dev.nextPart (s.dev.ringUnit 0)).bytes.take 1024).length 32 + 2))) = none := by decide +kernel
  have claimed : Acts (.egressFrameDeal 0) s s.dev := ((deals 0 (by decide)).2 0 1 turn (.inr (by decide +kernel))).1 noLane
  have dealt : Acts (.egressFrameDeal 0) s (roomBesideAFrame.egressFrameDeal 0) := egr_acts rfl hup rfl rfl
  have same := congrArg (fun t : State => (t.dev.lane 0).tx.queue.length) (Host.Outcome.next.inj (claimed.symm.trans dealt))
  simp only [Dev.irqSettle_lane, roomBesideAFrame_deals] at same
  exact absurd same (by decide +kernel)

end

section
/-! SUPPORT. What the reads and stores of a ring writer leave (R341, R349), and what the end of a dump leaves (R248, R249, R259). -/
namespace Sys2Proof.Machine
open Sys2Proof.Safety

/-! ### Fields at other addresses -/

theorem Dev.get_put_below (d : Dev) {f g : RF} {a : Nat} (low : g.reg.addr < a) (high : a ≤ f.reg.addr) (v : Nat) :
    (d.put f v).get g = d.get g :=
  d.get_put_other f g v (Nat.ne_of_gt (Nat.lt_of_lt_of_le low high))

theorem Dev.get_put_above (d : Dev) {f g : RF} {a : Nat} (low : f.reg.addr < a) (high : a ≤ g.reg.addr) (v : Nat) :
    (d.put f v).get g = d.get g :=
  d.get_put_other f g v (Nat.ne_of_lt (Nat.lt_of_lt_of_le low high))

/-! ### A read of SDRAM, as it is reported (R341, R348, R349) -/

/-- Both devices have the same bytes of memory and the same egress beside its registers. -/
structure Dev.SameEgress (d e : Dev) : Prop where
  mem : e.mem = d.mem
  egr : e.egr = d.egr

theorem Dev.SameEgress.refl (d : Dev) : d.SameEgress d := ⟨rfl, rfl⟩

theorem Dev.SameEgress.trans {d e g : Dev} (h : d.SameEgress e) (h' : e.SameEgress g) : d.SameEgress g :=
  ⟨h'.mem.trans h.mem, h'.egr.trans h.egr⟩

theorem Dev.SameEgress.foldl {α : Type} {f : Dev → α → Dev} (step : ∀ (e : Dev) a, e.SameEgress (f e a)) (d : Dev) (l : List α) :
    d.SameEgress (l.foldl f d) :=
  List.foldlRecOn (motive := fun e => d.SameEgress e) l f (.refl d) fun e h a _ => h.trans (step e a)

theorem Dev.memPost_sameEgress (d : Dev) (port cls : Nat) (write : Bool) (a n : Nat) : d.SameEgress (d.memPost port cls write a n) := by
  rw [Dev.memPost]
  split
  · exact .refl d
  · refine .foldl (fun e g => ?_) d _
    dsimp only
    split <;> exact ⟨rfl, rfl⟩

theorem Dev.corrected_sameEgress (d : Dev) (f : RF) (n : Nat) : d.SameEgress (d.corrected f n) := by
  rw [Dev.corrected]
  split <;> exact ⟨rfl, rfl⟩

theorem Dev.memReport_sameEgress (d : Dev) (r : MRead) (port : Nat) : d.SameEgress (d.memReport r port) := by
  rw [Dev.memReport, Dev.memReportAs]
  have posted := d.memPost_sameEgress port (portClass port) false r.addr r.bytes.length
  have counted := SameEgress.foldl (fun e a => e.corrected_sameEgress (F.MEM_CH_CNT_COUNT (e.chanOf a).1 3) 1)
    (d.memPost port (portClass port) false r.addr r.bytes.length) r.ce
  have recorded := SameEgress.foldl (f := fun e a => e.memUncorrectable a port) (fun e a => ⟨rfl, rfl⟩)
    ((d.memPost port (portClass port) false r.addr r.bytes.length).forL r.ce fun e a =>
      e.corrected (F.MEM_CH_CNT_COUNT (e.chanOf a).1 3) 1) r.ue
  exact ((posted.trans counted).trans recorded).trans ⟨rfl, rfl⟩

/-- What a read of SDRAM gives does not depend on the registers below those of the memory island. -/
theorem Dev.memRead_put (d : Dev) {f : RF} (low : f.reg.addr < 0xF001000000) (v a n : Nat) : (d.put f v).memRead a n = d.memRead a n := by
  have field {g : RF} (high : 0xF001000000 ≤ g.reg.addr) : (d.put f v).get g = d.get g := d.get_put_above low high v
  have set : (d.put f v).ilvSet = d.ilvSet := by rw [Dev.ilvSet, Dev.ilvSet, field (by decide)]
  have cap : (d.put f v).chanCap = d.chanCap := by
    rw [Dev.chanCap, Dev.chanCap, field (g := F.MEM_CFG_DENSITY) (by decide), field (g := F.MEM_CFG_CLAMSHELL) (by decide)]
  have chan : (d.put f v).chanOf = d.chanOf := by funext b; rw [Dev.chanOf, Dev.chanOf, set]
  have key : (d.put f v).chanKey = d.chanKey := by funext b; rw [Dev.chanKey, Dev.chanKey, chan]
  have lost : (d.put f v).beatLost = d.beatLost := by
    funext b
    have state : (d.put f v).chanState (d.chanOf b).1 = d.chanState (d.chanOf b).1 := field (Nat.le_add_right_of_le (by decide))
    rw [Dev.beatLost, Dev.beatLost, chan, state]
  have inUse : (d.put f v).sdramInUse a n = d.sdramInUse a n := by rw [Dev.sdramInUse, Dev.sdramInUse, set, cap]
  have byte : (d.put f v).sdByte = d.sdByte := by
    funext b
    rw [Dev.sdByte, Dev.sdByte, Dev.sdWritten, Dev.sdWritten, key]
    rfl
  have cold : (d.put f v).coldReport = d.coldReport := by
    funext b
    rw [Dev.coldReport, Dev.coldReport, key]
    rfl
  rw [Dev.memRead, Dev.memRead, Dev.sdBytes, Dev.sdBytes, byte, inUse, lost, cold]
  rfl

/-! ### Interrupts leave egress (R420) -/

@[simp] theorem Dev.irqSettle_queue (d : Dev) (q : Nat) : d.irqSettle.queue q = d.queue q := by rw [Dev.queue, Dev.irqSettle_egr, Dev.queue]

@[simp] theorem Dev.irqSettle_ring (d : Dev) (q : Nat) : d.irqSettle.ring q = d.ring q := by rw [Dev.ring, Dev.irqSettle_egr, Dev.ring]

@[simp] theorem Dev.irqSettle_win (d : Dev) (w : Nat) : d.irqSettle.win w = d.win w := by rw [Dev.win, Dev.irqSettle_egr, Dev.win]

/-! ### The end of a dump (R248, R249, R259) -/

/-- Both devices have the same queues and ring writers, and the same fields in every register below those of the windows. -/
structure Dev.SameQueues (d e : Dev) : Prop where
  queues : e.egr.queues = d.egr.queues
  rings : e.egr.rings = d.egr.rings
  fields : ∀ f : RF, f.reg.addr < 0xF000D40000 → e.get f = d.get f

theorem Dev.SameQueues.refl (d : Dev) : d.SameQueues d := ⟨rfl, rfl, fun _ _ => rfl⟩

theorem Dev.SameQueues.trans {d e g : Dev} (h : d.SameQueues e) (h' : e.SameQueues g) : d.SameQueues g :=
  ⟨h'.queues.trans h.queues, h'.rings.trans h.rings, fun f low => (h'.fields f low).trans (h.fields f low)⟩

theorem Dev.SameQueues.foldl {α : Type} {f : Dev → α → Dev} (step : ∀ (e : Dev) a, e.SameQueues (f e a)) (d : Dev) (l : List α) :
    d.SameQueues (l.foldl f d) :=
  List.foldlRecOn (motive := fun e => d.SameQueues e) l f (.refl d) fun e h a _ => h.trans (step e a)

theorem Dev.SameQueues.queue {d e : Dev} (h : d.SameQueues e) (q : Nat) : e.queue q = d.queue q := by rw [Dev.queue, Dev.queue, h.queues]

theorem Dev.SameQueues.ring {d e : Dev} (h : d.SameQueues e) (q : Nat) : e.ring q = d.ring q := by rw [Dev.ring, Dev.ring, h.rings]

theorem Dev.put_sameQueues (d : Dev) {f : RF} (window : 0xF000D40000 ≤ f.reg.addr) (v : Nat) : d.SameQueues (d.put f v) :=
  ⟨rfl, rfl, fun _ low => d.get_put_below low window v⟩

theorem Dev.setWin_sameQueues (d : Dev) (w : Nat) (x : WinSt) : d.SameQueues (d.setWin w x) := ⟨rfl, rfl, fun _ _ => rfl⟩

theorem Dev.winShow_sameQueues (d : Dev) (w f : Nat) : d.SameQueues (d.winShow w f) := by
  have window {r : Nat} (h : 0xF000D40000 ≤ r) : 0xF000D40000 ≤ r + w * 0x20 := Nat.le_add_right_of_le h
  exact ((((d.setWin_sameQueues w _).trans (put_sameQueues _ (window (by decide)) _)).trans
    (put_sameQueues _ (window (by decide)) _)).trans (put_sameQueues _ (window (by decide)) _)).trans
    (put_sameQueues _ (window (by decide)) _)

theorem Dev.winComplete_sameQueues (d : Dev) (q f : Nat) : d.SameQueues (d.winComplete q f) := by
  refine .foldl (fun e w => ?_) d _
  dsimp only
  split
  · split
    · exact (e.setWin_sameQueues w _).trans (put_sameQueues _ (Nat.le_add_right_of_le (by decide)) _)
    · exact e.winShow_sameQueues w f
  · exact .refl e

theorem Dev.endDump_sameQueues (d : Dev) (q f : Nat) : d.SameQueues (d.endDump q f) :=
  (show d.SameQueues (d.updEgr _) from ⟨rfl, rfl, fun _ _ => rfl⟩).trans (Dev.winComplete_sameQueues _ q f)

theorem Dev.checkDumps_sameQueues (d : Dev) : d.SameQueues d.checkDumps := by
  unfold Dev.checkDumps
  extract_lets ended due gone old
  have same : d.SameQueues ended := by
    refine .foldl (fun e x => .foldl (fun g q => ?_) e _) d _
    split
    · exact g.endDump_sameQueues q x.1
    · exact .refl g
  split
  · exact same
  · exact same.trans ⟨rfl, rfl, fun _ _ => rfl⟩

end Sys2Proof.Machine
end

section
/-! SUPPORT. The steps of a ring writer (R255 to R257). -/
namespace Sys2Proof.Machine
open Sys2Proof.Safety

variable {d e : Dev} {q : Nat}

/-! ### The read of a descriptor (R255, R256, R349) -/

/-- What ring q of e shows once its writer has reread its descriptor in d, where the read gave r: a halt, a data write, or a wait. -/
structure Dev.Rereads (d e : Dev) (q : Nat) (r : MRead) : Prop where
  halts : r.err = true ∨ r.ue ≠ [] → (e.ring q).phase = 5 ∧ e.is (F.EGR_RING_PTR_WAITING q) = false
  writes : r.err = false → r.ue = [] → bitOf (r.bytes.getD 12 0) 0 = true →
    (e.ring q).phase = 2 ∧ e.is (F.EGR_RING_PTR_WAITING q) = false
  waits : r.err = false → r.ue = [] → bitOf (r.bytes.getD 12 0) 0 = false →
    (e.ring q).phase = 1 ∧ e.is (F.EGR_RING_PTR_WAITING q) = true ∧ e.mem = d.mem

theorem Dev.Rereads.of_mem {d' : Dev} {r : MRead} (h : d'.Rereads e q r) (mem : d'.mem = d.mem) : d.Rereads e q r :=
  ⟨h.halts, h.writes, fun ok good free => mem ▸ h.waits ok good free⟩

theorem Dev.Rereads.irqSettle {r : MRead} (h : d.Rereads e q r) : d.Rereads e.irqSettle q r := by
  constructor <;> simp only [Dev.irqSettle_ring, Dev.irqSettle_is, Dev.irqSettle_mem]
  · exact h.halts
  · exact h.writes
  · exact h.waits

theorem Dev.setRing_memRead (d : Dev) (q : Nat) (x : RingSt) (a n : Nat) : (d.setRing q x).memRead a n = d.memRead a n := rfl

theorem Dev.setRing_descAddr (d : Dev) (q : Nat) (x : RingSt) : (d.setRing q x).descAddr q = d.descAddr q := rfl

theorem Dev.ringRead_rereads (d : Dev) (q : Nat) : d.Rereads (d.ringRead q) q (d.memRead (d.descAddr q) 16) := by
  have waitingFits : (F.EGR_RING_PTR_WAITING q).hi < 64 := (by decide : 30 < 64)
  unfold Dev.ringRead
  extract_lets a r reported x
  refine ⟨fun bad => ?_, fun ok good own => ?_, fun ok good free => ?_⟩
  · rw [if_pos (by simpa using bad)]
    exact ⟨congrArg RingSt.phase (reported.setRing_same q _), Dev.is_put_zero _ waitingFits⟩
  · rw [if_neg (by simp [a, r, ok, good]), if_pos own]
    exact ⟨congrArg RingSt.phase (Dev.setRing_same _ q _), Dev.is_put_zero _ waitingFits⟩
  · rw [if_neg (by simp [a, r, ok, good]), if_neg (ne_true_of_eq_false free)]
    exact ⟨congrArg RingSt.phase (reported.setRing_same q _), Dev.is_put_one _ waitingFits rfl,
      (d.memReport_sameEgress r 10).mem⟩

/-! ### The start of an idle writer (R257) -/

theorem Dev.ringStart_empty (empty : d.queue q = []) : d.ringStart q = d := by rw [Dev.ringStart, empty]

/-- INDEX with which ring q takes up unit u. -/
def Dev.startIndex (d : Dev) (q : Nat) (u : EgrUnit) : Nat :=
  if (d.ring q).last = (d.qcfg u (F.EGR_RING_CFG_BASE q), d.qcfg u (F.EGR_RING_CFG_LOG_N q)) then d.get (F.EGR_RING_PTR_INDEX q) else 0

/-- Ring q as it takes up unit u: INDEX, and BASE and LOG_N as used last. -/
def Dev.ringTakes (d : Dev) (q : Nat) (u : EgrUnit) : Dev :=
  let c := (d.qcfg u (F.EGR_RING_CFG_BASE q), d.qcfg u (F.EGR_RING_CFG_LOG_N q))
  let d := if (d.ring q).last = c then d else d.put (F.EGR_RING_PTR_INDEX q) 0
  d.setRing q { d.ring q with polls := 0, last := c }

theorem Dev.cfg_put_of_apart (d : Dev) {f g : RF} (h : f.Apart g) (v n : Nat) : (d.put f v).cfg n g = d.cfg n g := by
  rw [Dev.cfg, Dev.cfg, d.get_put_of_apart h]
  rfl

theorem Dev.ringTakes_descAddr {u : EgrUnit} {l : List EgrUnit} (head : d.queue q = u :: l) :
    (d.ringTakes q u).descAddr q = d.qcfg u (F.EGR_RING_CFG_BASE q) * 64 + 64 * d.startIndex q u := by
  have unit {g : Dev} (same : g.queue q = d.queue q) : g.ringUnit q = u := by rw [Dev.ringUnit, same, head]; rfl
  rw [Dev.ringTakes, Dev.startIndex]
  split
  · exact congrArg (fun u => d.qcfg u (F.EGR_RING_CFG_BASE q) * 64 + 64 * d.get (F.EGR_RING_PTR_INDEX q)) (unit rfl)
  · have base : (d.put (F.EGR_RING_PTR_INDEX q) 0).qcfg u (F.EGR_RING_CFG_BASE q) = d.qcfg u (F.EGR_RING_CFG_BASE q) :=
      d.cfg_put_of_apart (.inl (by show 0xf000d20008 + q * 0x10 ≠ 0xf000d20000 + q * 0x10; omega)) 0 u.cfg
    have index : (d.put (F.EGR_RING_PTR_INDEX q) 0).get (F.EGR_RING_PTR_INDEX q) = 0 := d.get_put_same _ 0 (by decide : 15 < 64)
    show (d.put (F.EGR_RING_PTR_INDEX q) 0).descAddr q = _
    rw [Dev.descAddr, unit (g := d.put (F.EGR_RING_PTR_INDEX q) 0) rfl, base, index]

theorem Dev.ringTakes_memRead (hq : q < 4096) (u : EgrUnit) (a n : Nat) : (d.ringTakes q u).memRead a n = d.memRead a n := by
  rw [Dev.ringTakes]
  split
  · rfl
  · exact d.memRead_put (by show 0xf000d20008 + q * 0x10 < 0xF001000000; omega) 0 a n

theorem Dev.ringTakes_mem (u : EgrUnit) : (d.ringTakes q u).mem = d.mem := by
  rw [Dev.ringTakes]
  split <;> rfl

theorem Dev.ringStart_takes {u : EgrUnit} {l : List EgrUnit} (head : d.queue q = u :: l) (idle : (d.ring q).phase = 0)
    (dest : d.qcfg u (F.EGR_QUEUE_DEST q) = 2) (good : d.storeBad 4 = false) (free : d.ringBusy q = false) :
    d.ringStart q = (d.ringTakes q u).ringRead q := by
  have open_ : d.memBusy (d.descAddr q) 64 = false := free
  rw [Dev.ringStart, head]
  dsimp only
  rw [if_neg (by simp [good]), if_pos (by simp [idle, dest, open_])]
  rfl

theorem Dev.ringStart_rereads (hq : q < 4096) {u : EgrUnit} {l : List EgrUnit} (head : d.queue q = u :: l) (idle : (d.ring q).phase = 0)
    (dest : d.qcfg u (F.EGR_QUEUE_DEST q) = 2) (good : d.storeBad 4 = false) (free : d.ringBusy q = false) :
    d.Rereads (d.ringStart q) q (d.memRead (d.qcfg u (F.EGR_RING_CFG_BASE q) * 64 + 64 * d.startIndex q u) 16) := by
  rw [Dev.ringStart_takes head idle dest good free, ← ringTakes_descAddr head, ← ringTakes_memRead hq u]
  exact (ringRead_rereads _ q).of_mem (ringTakes_mem u)

/-! ### RING_DESC_POLL (R256) -/

theorem Dev.ringPoll_busy (busy : d.ringBusy q = true) : d.ringPoll q = d := if_pos busy

theorem Dev.ringPoll_idle (free : d.ringBusy q = false) (idle : (d.ring q).phase = 0) : d.ringPoll q = d.ringStart q := by
  rw [Dev.ringPoll, free]
  exact if_pos idle

theorem Dev.ringPoll_empty (idle : (d.ring q).phase = 0) (empty : d.queue q = []) : d.ringPoll q = d := by
  by_cases busy : d.ringBusy q = true
  · exact ringPoll_busy busy
  · exact (ringPoll_idle (eq_false_of_ne_true busy) idle).trans (ringStart_empty empty)

theorem Dev.ringPoll_stays (notIdle : (d.ring q).phase ≠ 0) (notWaiting : (d.ring q).phase ≠ 1) : d.ringPoll q = d := by
  simp only [Dev.ringPoll, notIdle, notWaiting, if_false, ite_self]

/-- RING_WAIT is a flag of EGR.EVENTS: raising it leaves the ring as it is. -/
theorem Dev.Rereads.ringWait {r : MRead} (h : d.Rereads e q r) : d.Rereads (e.flag F.EGR_EVENTS_RING_WAIT) q r := by
  have waiting : (e.flag F.EGR_EVENTS_RING_WAIT).is (F.EGR_RING_PTR_WAITING q) = e.is (F.EGR_RING_PTR_WAITING q) :=
    e.is_put_of_apart (.inl (by show 0xf000d00010 ≠ 0xf000d20008 + q * 0x10; omega)) 1
  exact ⟨waiting ▸ h.halts, waiting ▸ h.writes, waiting ▸ h.waits⟩

/-- A waiting writer rereads its descriptor, and may raise RING_WAIT. -/
theorem Dev.ringPoll_waiting (free : d.ringBusy q = false) (waiting : (d.ring q).phase = 1) :
    let reread := (d.setRing q { d.ring q with polls := (d.ring q).polls + 1 }).ringRead q
    d.ringPoll q = reread ∨ d.ringPoll q = reread.flag F.EGR_EVENTS_RING_WAIT := by
  unfold Dev.ringPoll
  extract_lets x reread
  rw [if_neg (by simp [free]), if_neg (by simp [x, waiting]), if_pos waiting]
  split
  · exact .inr rfl
  · exact .inl rfl

theorem Dev.ringPoll_rereads (free : d.ringBusy q = false) (waiting : (d.ring q).phase = 1) :
    d.Rereads (d.ringPoll q) q (d.memRead (d.descAddr q) 16) := by
  have reread : d.Rereads ((d.setRing q { d.ring q with polls := (d.ring q).polls + 1 }).ringRead q) q (d.memRead (d.descAddr q) 16) := by
    have h := (d.setRing q { d.ring q with polls := (d.ring q).polls + 1 }).ringRead_rereads q
    rw [Dev.setRing_descAddr, Dev.setRing_memRead] at h
    exact h.of_mem rfl
  rcases ringPoll_waiting free waiting with h | h <;> rw [h]
  · exact reread
  · exact reread.ringWait

/-! ### RING_KICK (R256) -/

theorem Dev.ringKick_waiting (waiting : (d.ring q).phase = 1) : d.ringKick q = if d.ringBusy q then d else d.ringRead q := if_pos waiting

theorem Dev.ringKick_halted (halted : (d.ring q).phase = 5) : d.ringKick q = (d.setRing q { d.ring q with phase := 0 }).ringStart q := by
  simp only [Dev.ringKick, halted, if_true]
  rfl

theorem Dev.ringKick_stays (notWaiting : (d.ring q).phase ≠ 1) (notHalted : (d.ring q).phase ≠ 5) : d.ringKick q = d := by
  simp only [Dev.ringKick, notWaiting, notHalted, if_false]

theorem Dev.ringKick_rereads (hq : q < 4096) {u : EgrUnit} {l : List EgrUnit} (head : d.queue q = u :: l) (halted : (d.ring q).phase = 5)
    (dest : d.qcfg u (F.EGR_QUEUE_DEST q) = 2) (good : d.storeBad 4 = false) (free : d.ringBusy q = false) :
    d.Rereads (d.ringKick q) q (d.memRead (d.qcfg u (F.EGR_RING_CFG_BASE q) * 64 + 64 * d.startIndex q u) 16) := by
  have ring := d.setRing_same q { d.ring q with phase := 0 }
  have index : (d.setRing q { d.ring q with phase := 0 }).startIndex q u = d.startIndex q u := by
    rw [Dev.startIndex, ring]
    rfl
  rw [ringKick_halted halted, ← index]
  have started := ringStart_rereads hq (d := d.setRing q { d.ring q with phase := 0 }) head (by rw [ring]) dest good free
  rw [Dev.setRing_memRead] at started
  exact started.of_mem rfl

/-! ### RING_WRITE_RESPONSE (R255, R256) -/

theorem Dev.ringResponse_stays (h : d.ringBusy q = true ∨ (d.ring q).phase = 0 ∨ (d.ring q).phase = 1 ∨ (d.ring q).phase = 5) :
    d.ringResponse q = d := by
  rw [Dev.ringResponse]
  rcases h with h | h | h | h <;> simp [h]

theorem Dev.ringResponse_data (free : d.ringBusy q = false) (data : (d.ring q).phase = 2) :
    ((d.ringResponse q).ring q).phase = 3 ∧ ((d.ringResponse q).ring q).err = (d.ring q).bad := by
  rw [Dev.ringResponse]
  simp only [free, data, Bool.false_eq_true, if_false, if_true, Dev.setRing_same, and_self]

theorem Dev.ringResponse_header (free : d.ringBusy q = false) (header : (d.ring q).phase = 3) :
    ((d.ringResponse q).ring q).phase = 4 ∧ ((d.ringResponse q).ring q).err = ((d.ring q).err || (d.ring q).bad) := by
  rw [Dev.ringResponse]
  simp [free, header]

/-- An error response leaves the queues, and every register but EGR.EVENTS. -/
theorem Dev.ringError_leaves (d : Dev) (q a : Nat) (first : Bool) :
    (d.ringError q a first).egr.queues = d.egr.queues ∧
      ∀ f : RF, R.EGR_EVENTS.addr ≠ f.reg.addr → (d.ringError q a first).get f = d.get f := by
  have flagged (f : RF) (h : R.EGR_EVENTS.addr ≠ f.reg.addr) : (d.flag F.EGR_EVENTS_RING_ERR).get f = d.get f :=
    d.get_put_other _ f 1 h
  rw [Dev.ringError]
  split
  · rw [Dev.countDropped]
    split
    · split <;> exact ⟨rfl, flagged⟩
    · exact ⟨rfl, flagged⟩
  · exact ⟨rfl, flagged⟩

theorem Dev.setQueue_ring (d : Dev) (q : Nat) (l : List EgrUnit) (j : Nat) : (d.setQueue q l).ring j = d.ring j := rfl

/-- Ring q whose status write failed: halted, with the rest of its unit off the queue (R256). -/
def Dev.statusLost (d : Dev) (q : Nat) : Dev :=
  let x := d.ring q
  let failed := d.ringError q (d.descAddr q + 12) (!x.err)
  (failed.setRing q { x with phase := 5, bad := false, gap := true }).setQueue q (failed.queue q).tail

theorem Dev.ringResponse_lost (free : d.ringBusy q = false) (status : (d.ring q).phase = 4) (bad : (d.ring q).bad = true) :
    d.ringResponse q = d.statusLost q := by
  unfold Dev.ringResponse
  extract_lets x
  rw [if_neg (by simp [free]), if_neg (by simp [x, status]), if_neg (by simp [x, status]), if_pos status, if_pos bad]
  rfl

theorem Dev.statusLost_halts (d : Dev) (q : Nat) :
    ((d.statusLost q).ring q).phase = 5 ∧ (d.statusLost q).queue q = (d.queue q).tail ∧
      (d.statusLost q).get (F.EGR_RING_PTR_INDEX q) = d.get (F.EGR_RING_PTR_INDEX q) := by
  obtain ⟨queues, fields⟩ := d.ringError_leaves q (d.descAddr q + 12) (!(d.ring q).err)
  unfold Dev.statusLost
  extract_lets x failed
  have queue : failed.queue q = d.queue q := by rw [Dev.queue, Dev.queue, queues]
  exact ⟨by rw [Dev.setQueue_ring, Dev.setRing_same], (Dev.setQueue_same _ q _).trans (congrArg List.tail queue),
    fields _ (by show 0xf000d00010 ≠ 0xf000d20008 + q * 0x10; omega)⟩

/-- Ring q whose status write ended its unit: idle at the next INDEX, with the unit off the queue (R255). -/
def Dev.unitWritten (d : Dev) (q : Nat) : Dev :=
  let x := d.ring q
  let index := (d.get (F.EGR_RING_PTR_INDEX q) + 1) % 2 ^ d.qcfg (d.ringUnit q) (F.EGR_RING_CFG_LOG_N q)
  ((d.put (F.EGR_RING_PTR_INDEX q) index).setRing q { RingSt.init with last := x.last, gap := x.gap }).setQueue q (d.queue q).tail

theorem Dev.unitWritten_completes (d : Dev) (q : Nat) :
    ((d.unitWritten q).ring q).phase = 0 ∧ (d.unitWritten q).queue q = (d.queue q).tail ∧
      (d.unitWritten q).get (F.EGR_RING_PTR_INDEX q) =
        (d.get (F.EGR_RING_PTR_INDEX q) + 1) % 2 ^ d.qcfg (d.ringUnit q) (F.EGR_RING_CFG_LOG_N q) % 2 ^ 16 :=
  ⟨by rw [Dev.unitWritten, Dev.setQueue_ring, Dev.setRing_same]; rfl, Dev.setQueue_same _ q _, d.get_put_same _ _ (by decide : 15 < 64)⟩

/-- A unit of a dump is counted as sent; then the next one starts, and a dump may end. -/
theorem Dev.ringResponse_written (free : d.ringBusy q = false) (status : (d.ring q).phase = 4) (good : (d.ring q).bad = false)
    (whole : ((d.ringUnit q).advance (d.ring q).len).parts = []) :
    ∃ e, (d.unitWritten q).SameQueues e ∧ d.ringResponse q = (e.ringStart q).checkDumps := by
  rw [Dev.ringResponse, if_neg (by simp [free]), if_neg (by simp [status]), if_neg (by simp [status]), if_pos status,
    if_neg (by simp [good])]
  dsimp only
  rw [if_pos (by simp [whole])]
  refine ⟨_, ?_, rfl⟩
  split
  · split
    · exact .refl _
    · exact ⟨rfl, rfl, fun _ _ => rfl⟩
  · exact .refl _

/-- The last write of the last unit of a queue: the writer is idle at the next INDEX. -/
theorem Dev.ringResponse_completes (hq : q < 4096) (free : d.ringBusy q = false) (status : (d.ring q).phase = 4)
    (good : (d.ring q).bad = false) (last : (d.queue q).tail = []) (whole : ((d.ringUnit q).advance (d.ring q).len).parts = []) :
    ((d.ringResponse q).ring q).phase = 0 ∧ (d.ringResponse q).queue q = [] ∧
      (d.ringResponse q).get (F.EGR_RING_PTR_INDEX q) =
        (d.get (F.EGR_RING_PTR_INDEX q) + 1) % 2 ^ d.qcfg (d.ringUnit q) (F.EGR_RING_CFG_LOG_N q) % 2 ^ 16 := by
  obtain ⟨e, counted, answer⟩ := ringResponse_written free status good whole
  obtain ⟨phase, queue, index⟩ := d.unitWritten_completes q
  have empty : e.queue q = [] := (counted.queue q).trans (queue.trans last)
  have same := counted.trans e.checkDumps_sameQueues
  rw [answer, Dev.ringStart_empty empty]
  exact ⟨(congrArg RingSt.phase (same.ring q)).trans phase, (same.queue q).trans (queue.trans last),
    (same.fields _ (by show 0xf000d20008 + q * 0x10 < 0xF000D40000; omega)).trans index⟩

end Sys2Proof.Machine
end

section
/-! SUPPORT. The release of a result window (R260). -/
namespace Sys2Proof.Machine

variable {d : Dev} {w : Nat}

theorem Dev.winRelease_closed (closed : (d.win w).on = false) : d.winRelease w = d := if_pos (by simp [closed])

/-- Window w as a release leaves it, before what waits is shown. -/
def Dev.winCleared (d : Dev) (w : Nat) : Dev := (d.setWin w { d.win w with shown := [], on := false }).wrReg (R.EGR_WIN_HDR w) 0

theorem Dev.winCleared_win (d : Dev) (w : Nat) : (d.winCleared w).win w = { d.win w with shown := [], on := false } := d.setWin_same w _

theorem Dev.winCleared_valid (d : Dev) (w : Nat) : (d.winCleared w).is (F.EGR_WIN_HDR_VALID w) = false := by
  have word : (d.winCleared w).rdReg (R.EGR_WIN_HDR w) = 0 := Dev.rdReg_wrReg_same _ _ _
  show (bitsOf ((d.winCleared w).rdReg (R.EGR_WIN_HDR w)).toNat 63 63 == 1) = false
  rw [word]
  rfl

theorem Dev.winRelease_clears (presents : (d.win w).on = true) (noFill : ∀ f q, (d.win w).fill ≠ some (f, q, true)) :
    d.winRelease w = d.winCleared w := by
  unfold Dev.winRelease
  extract_lets x cleared
  rw [if_neg (by simp [x, presents])]
  split
  · next f q fill => exact absurd fill (noFill f q)
  · rfl

theorem Dev.winRelease_shows {f q : Nat} (presents : (d.win w).on = true) (fill : (d.win w).fill = some (f, q, true)) :
    d.winRelease w = (d.winCleared w).winShow w f := by
  unfold Dev.winRelease
  extract_lets x cleared
  rw [if_neg (by simp [x, presents]), show x.fill = _ from fill]
  rfl

theorem Dev.winShow_win (d : Dev) (w f : Nat) : (d.winShow w f).win w = ⟨(d.win w).words, true, none, []⟩ := d.setWin_same w _

/-- The header, WAITING and DUMP_SEQ of a window stand in three registers. -/
theorem Dev.winShow_shows (d : Dev) (w f : Nat) :
    (d.winShow w f).is (F.EGR_WIN_HDR_VALID w) = true ∧ (d.winShow w f).get (F.EGR_WIN_HDR_FRAME w) = f % 2 ^ 48 ∧
      (d.winShow w f).is (F.EGR_WIN_CTRL_WAITING w) = false := by
  have seq_hdr : (R.EGR_WIN_SEQ w).addr ≠ (R.EGR_WIN_HDR w).addr := by show 0xf000d40008 + w * 0x20 ≠ 0xf000d40000 + w * 0x20; omega
  have ctrl_hdr : (R.EGR_WIN_CTRL w).addr ≠ (R.EGR_WIN_HDR w).addr := by show 0xf000d4000c + w * 0x20 ≠ 0xf000d40000 + w * 0x20; omega
  have seq_ctrl : (R.EGR_WIN_SEQ w).addr ≠ (R.EGR_WIN_CTRL w).addr := by show 0xf000d40008 + w * 0x20 ≠ 0xf000d4000c + w * 0x20; omega
  have frame_valid : (F.EGR_WIN_HDR_FRAME w).Apart (F.EGR_WIN_HDR_VALID w) :=
    .inr ⟨rfl, (by decide : 63 < 64), .inl (by decide : 47 < 63)⟩
  unfold Dev.winShow
  extract_lets x shown headed
  refine ⟨?_, ?_, ?_⟩
  · rw [Dev.is_put_of_apart _ (.inl seq_hdr), Dev.is_put_of_apart _ (.inl ctrl_hdr), Dev.is_put_of_apart _ frame_valid]
    exact Dev.is_put_one _ (by decide : 63 < 64) rfl
  · rw [Dev.get_put_of_apart _ (.inl seq_hdr), Dev.get_put_of_apart _ (.inl ctrl_hdr)]
    exact Dev.get_put_same _ _ _ (by decide : 47 < 64)
  · rw [Dev.is_put_of_apart _ (.inl seq_ctrl)]
    exact Dev.is_put_zero _ (by decide : 1 < 64)

end Sys2Proof.Machine
end

section
/-! PROOFS. Ring writers and result windows (R255 to R260). -/
open Sys2Proof Sys2Proof.Machine Sys2Proof.Safety

/-- Settles O49: each command by the phase of its ring and what the read of the descriptor gives, and a release by what its window holds. -/
theorem ringsAndWindowsStep : Obligations.RingsAndWindowsStep := by
  unfold Obligations.RingsAndWindowsStep
  intro s hup d
  constructor
  · intro q hq x rereads starts
    have poll {e : Dev} (answer : d.ringPoll q = e) : Acts (.ringDescPoll q) s e := egr_acts (decide_eq_true hq) hup rfl answer
    have kick {e : Dev} (answer : d.ringKick q = e) : Acts (.ringKick q) s e := egr_acts (decide_eq_true hq) hup rfl answer
    have response {e : Dev} (answer : d.ringResponse q = e) : Acts (.ringWriteResponse q) s e :=
      egr_acts (decide_eq_true hq) hup rfl answer
    have shows {c : Instr} {e : Dev} {r : MRead} (acts : Acts c s e) (h : d.Rereads e q r) : rereads c r :=
      ⟨fun bad => ⟨_, acts, h.irqSettle.halts bad⟩, fun ok good own => ⟨_, acts, h.irqSettle.writes ok good own⟩,
        fun ok good free => ⟨_, acts, h.irqSettle.waits ok good free⟩⟩
    refine ⟨fun busy => ⟨poll (Dev.ringPoll_busy busy), response (Dev.ringResponse_stays (.inl busy)), fun waiting => ?_⟩,
      fun free waiting => ⟨shows (poll rfl) (Dev.ringPoll_rereads free waiting), ?_⟩,
      fun free => ⟨fun idle u l head dest good => ?_, fun halted u l head dest good => ?_⟩,
      fun empty => ⟨fun idle => ?_, fun halted => ?_⟩, fun notIdle notWaiting => poll (Dev.ringPoll_stays notIdle notWaiting),
      fun notWaiting notHalted => kick (Dev.ringKick_stays notWaiting notHalted), fun free => ⟨fun data => ?_, fun header => ?_,
        fun status bad => ?_, fun status good last whole => ?_⟩, fun phase => response (Dev.ringResponse_stays (.inr phase))⟩
    · exact kick (by rw [Dev.ringKick_waiting waiting, if_pos busy])
    · exact shows (kick (by rw [Dev.ringKick_waiting waiting, if_neg (ne_true_of_eq_false free)])) (d.ringRead_rereads q)
    · exact shows (poll (Dev.ringPoll_idle free idle)) (Dev.ringStart_rereads hq head idle dest good free)
    · exact shows (kick rfl) (Dev.ringKick_rereads hq head halted dest good free)
    · exact poll (Dev.ringPoll_empty idle empty)
    · exact kick ((Dev.ringKick_halted halted).trans (Dev.ringStart_empty empty))
    · refine ⟨_, response rfl, ?_⟩
      rw [Dev.irqSettle_ring]
      exact Dev.ringResponse_data free data
    · refine ⟨_, response rfl, ?_⟩
      rw [Dev.irqSettle_ring]
      exact Dev.ringResponse_header free header
    · refine ⟨_, response (Dev.ringResponse_lost free status bad), ?_⟩
      rw [Dev.irqSettle_ring, Dev.irqSettle_queue, Dev.irqSettle_get]
      exact d.statusLost_halts q
    · refine ⟨_, response rfl, ?_⟩
      rw [Dev.irqSettle_ring, Dev.irqSettle_queue, Dev.irqSettle_get]
      exact Dev.ringResponse_completes hq free status good last whole
  · intro w hw x
    have release {e : Dev} (answer : d.winRelease w = e) : Acts (.winRelease w) s e := egr_acts (decide_eq_true hw) hup rfl answer
    refine ⟨fun closed => release (Dev.winRelease_closed closed), fun presents noFill => ?_, fun f q presents fill => ?_⟩
    · refine ⟨_, release (Dev.winRelease_clears presents noFill), ?_⟩
      rw [Dev.irqSettle_is, Dev.irqSettle_win]
      exact ⟨d.winCleared_valid w, d.winCleared_win w⟩
    · refine ⟨_, release (Dev.winRelease_shows presents fill), ?_⟩
      rw [Dev.irqSettle_is, Dev.irqSettle_get, Dev.irqSettle_is, Dev.irqSettle_win, Dev.winShow_win, Dev.winCleared_win]
      obtain ⟨valid, frame, waiting⟩ := (d.winCleared w).winShow_shows w f
      exact ⟨valid, frame, waiting, rfl⟩
end
